-- ==== Sys2Proof/Word.lean ====
section
/-! DEFINITION. The word types of the node and the keyed list that State uses for sparse things. -/

namespace Sys2Proof

/-- A byte (R4, R5). -/
abbrev Byte := BitVec 8

/-- A 32-bit word: an FP32 pattern, a handle, a microprogram instruction. -/
abbrev W32 := BitVec 32

/-- A 128-byte command descriptor (R91): bit 0 is bit 0 of byte 0, little-endian (R5). -/
abbrev Desc := BitVec 1024

/-- A 40-byte Kalad base header (R261), read as one number in network byte order (R5): byte 0 is the most significant byte. -/
abbrev KHdr := BitVec 320

/-- A keyed list: entries in ascending key order, no key twice (the form `FMap.wf` states). -/
abbrev FMap (α : Type) := List (Nat × α)

/-- The entry of a key. -/
def FMap.get? {α : Type} (m : FMap α) (k : Nat) : Option α :=
  match m with
  | [] => none
  | (j, a) :: rest => if j = k then some a else FMap.get? rest k

/-- Put an entry at its place in key order, replacing one of the same key. -/
def FMap.set {α : Type} (m : FMap α) (k : Nat) (a : α) : FMap α :=
  match m with
  | [] => [(k, a)]
  | (j, b) :: rest =>
    if j = k then (k, a) :: rest
    else if k < j then (k, a) :: (j, b) :: rest
    else (j, b) :: FMap.set rest k a

/-- Take an entry out. -/
def FMap.erase {α : Type} (m : FMap α) (k : Nat) : FMap α :=
  match m with
  | [] => []
  | (j, b) :: rest => if j = k then rest else (j, b) :: FMap.erase rest k

/-- Put a number at a key; 0 is not listed. -/
def FMap.put (m : FMap Nat) (k v : Nat) : FMap Nat := if v = 0 then m.erase k else m.set k v

/-- Replace the entry of a key by a function of it, where there is one. -/
def FMap.adjust {α : Type} (m : FMap α) (k : Nat) (f : α → α) : FMap α :=
  match m with
  | [] => []
  | (j, b) :: rest => if j = k then (j, f b) :: rest else (j, b) :: FMap.adjust rest k f

/-- Apply a function to every entry. -/
def FMap.mapVals {α : Type} (m : FMap α) (f : Nat → α → α) : FMap α :=
  m.map (fun e => (e.1, f e.1 e.2))

/-- Keep the entries that pass a test. -/
def FMap.keep {α : Type} (m : FMap α) (p : Nat → α → Bool) : FMap α :=
  m.filter (fun e => p e.1 e.2)

/-- Every key lies above a bound, and the keys rise. -/
def FMap.above {α : Type} (lo : Nat) (m : FMap α) : Bool :=
  match m with
  | [] => true
  | (j, _) :: rest => decide (lo < j) && FMap.above j rest

/-- The canonical form: keys strictly rising. -/
def FMap.wf {α : Type} (m : FMap α) : Bool :=
  match m with
  | [] => true
  | (j, _) :: rest => FMap.above j rest

/-- The lowest number from `lo` on, within `n` tries, that is no key. -/
def FMap.fresh {α : Type} (m : FMap α) (lo : Nat) (n : Nat) : Option Nat :=
  match n with
  | 0 => none
  | n + 1 => if (m.get? lo).isNone then some lo else m.fresh (lo + 1) n

/-- Put an element before the first one it is at or below. -/
def insertBy {α : Type} (le : α → α → Bool) (a : α) (l : List α) : List α :=
  match l with
  | [] => [a]
  | b :: rest => if le a b then a :: b :: rest else b :: insertBy le a rest

/-- Sort a list; equal elements keep their order. -/
def sortBy {α : Type} (le : α → α → Bool) (l : List α) : List α := l.foldr (insertBy le) []

end Sys2Proof
end

