-- ==== Sys2Proof/Config.lean ====
section
/-! DEFINITION. What an implementation fixes and the spec leaves open: free values and functions of outside standards, all uninterpreted. -/

namespace Sys2Proof.Config

/-- The n-th 64-bit draw of the TRNG (R266, R324, R345, R348, R428): a free value. Log entry 3. -/
opaque trng : Nat → BitVec 64

/-- A byte the spec leaves open, by a running number: a free value. Log entry 4. -/
opaque freeByte : Nat → Byte

/-- A number the spec leaves open, by a running number: a free value. Log entry 4. -/
opaque freeNat : Nat → Nat

/-- A quantity of a stretch of network time that no rule bounds (R509), by its kind, its place and the stretch's two ends: 0 and 1 mesh
flits a cirque sends and receives, 2 to 4 cycles of CAIRN_WAIT, CONTEXT_WAIT and CREDIT_WAIT of a cell, 5 and 6 DRAM_NS and SRAM_NS
of a ridge, 7 the longest wait of a Loupe bank over its first searches, 8 how long a stream fill of a page can be joined. A free value. Log entry 27. -/
opaque openCount : Nat → Nat → Nat → Nat → Nat

/-- SHA-384 of a byte string, as a 384-bit number (R356, R357, R363). Named by an outside standard. Log entry 5. -/
opaque sha384 : List Byte → BitVec 384

/-- HKDF-SHA-384 of (ikm, info, length) (R286, R288, R356). Log entry 5. -/
opaque hkdf : List Byte → List Byte → Nat → List Byte

/-- The Ed25519 signature of a byte string under the key a seed gives, 64 bytes (R362). Log entry 5. -/
opaque ed25519 : List Byte → List Byte → List Byte

/-- The ML-DSA-65 signature of a byte string under the key a seed gives, 3,309 bytes (R362). Log entry 5. -/
opaque mldsa65 : List Byte → List Byte → List Byte

/-- The public keys an Ed25519 seed and an ML-DSA-65 seed give, in that order (R356). Log entry 5. -/
opaque publicKeys : List Byte → List Byte

/-- The unique device secret the PUF reconstructs (R356). Log entry 5. -/
opaque uds : List Byte

/-- SHA-384 of the boot ROM (R363). Log entry 5. -/
opaque romMeas : BitVec 384

/-- The X25519 and ML-KEM-768 shared secrets of a handshake, from the node's draw and the peer's record (R286). Log entry 5. -/
opaque kemShared : Nat → List Byte → List Byte

/-- The node's handshake public values (R266, R286), from its draw. Log entry 5. -/
opaque kemPublic : Nat → List Byte

/-- The responder's public values of a handshake, from its draw and the initiator's (R266): its X25519 public key, and the ML-KEM-768
ciphertext under the initiator's encapsulation key. Log entry 5. -/
opaque kemReply : Nat → List Byte → List Byte

/-- AES-256-GCM of (key, nonce, additional data, plaintext): the ciphertext and the 16-byte tag (R287). Log entry 5. -/
opaque gcmSeal : List Byte → List Byte → List Byte → List Byte → List Byte

/-- The TLVs of a mailbox response body, from its opcode and its values (R374): no rule gives their TYPE numbers. Log entry 85. -/
opaque tlvBody : Nat → List Nat → List Byte

/-- AES-256-XTS encryption of one granule under a key, by its number, and a 128-bit tweak (R351). Log entry 5. -/
opaque xts : Nat → BitVec 128 → List Byte → List Byte

/-- The check byte of a 64-bit word: its (72,64) SEC-DED code (R75), whose matrix no rule gives. Log entry 83. -/
opaque checkByte : BitVec 64 → Byte

/-- A byte of a DRAM row that no rule gives, by its kind and two places: 0 a granule whose key is destroyed, 1 a slot identity, 2 the key and
tombstone tables of an index, 3 a slot that nothing holds, 4 the reserved area. A free value. Log entry 83. -/
opaque dramByte : Nat → Nat → Nat → Byte

/-- A field of an outgoing frame's IP header that no rule gives, by its kind and a running number: 0 the IPv6 flow label, 1 the hop limit
or time to live, 2 the IPv4 identification, 3 the ECN field of a control packet. A free value. Log entry 72. -/
opaque ipOpen : Nat → Nat → Nat

/-- The device certificate in the flash identity area (R356). Log entry 5. -/
opaque deviceCertificate : List Byte

/-- The alias certificate the identity keys sign for two attestation public keys and their measurements (R356). Log entry 5. -/
opaque aliasCertificate : List Byte → List Byte

/-- The rate in ppb the servo measures from a Sync's offset and the rate in force (R303): the spec bounds it and gives no
law. Log entry 6. -/
opaque servoRate : Int → Int → Int

end Sys2Proof.Config
end

