-- ==== Sys2Proof/Syntax.lean ====
section
/-! DEFINITION. The commands of the block: one constructor per row of spec/opcode_table.json, and their operands.
Every constructor's first operand `t` is the network time, in ns, at which the command reaches the node (log entry 1).
The parsed fields of mailbox bodies stand for their TLVs, whose numbers the spec does not give (log entry 8). -/

namespace Sys2Proof

/-- Who sends a mailbox message or reaches a BAR (R341, R367, R376). -/
inductive Fn where
  | pf
  | vf (r : Nat)
  | bmc
  deriving DecidableEq, Repr

/-- A CHUNK TLV (R375): offset, total length, LAST and the bytes carried. -/
structure Chunk where
  offset : Nat
  total : Nat
  bytes : Nat
  last : Bool
  deriving DecidableEq, Repr

/-- The header of a mailbox request (R374), the RIDGE TLV of R378, and the facts of its body's framing. -/
structure MbxHdr where
  fn : Fn
  proto : Nat
  tag : Nat
  /-- OR of the reserved header fields (R374). -/
  reserved : Nat
  status : Nat
  retryUs : Nat
  length : Nat
  ridge : Option Nat
  /-- The TLV framing of R374 holds over the (assembled) body. -/
  framed : Bool
  /-- Every required TLV is present (R374). -/
  complete : Bool
  chunk : Option Chunk
  deriving DecidableEq, Repr

/-- A network prefix of the description (R18). -/
structure Prefix where
  addr : Nat
  len : Nat
  deriving DecidableEq, Repr

/-- One port or breakout's addresses (R18). IPv4 addresses are held IPv4-mapped (R323). -/
structure PortAddr where
  breakout : Nat
  ipv6 : Nat
  ipv4 : Option Nat
  deriving DecidableEq, Repr

/-- One port or breakout's next hops (R18). -/
structure NextHop where
  breakout : Nat
  gateway : Nat
  prefixes : List (Prefix × Nat)
  deriving DecidableEq, Repr

/-- An entry of the composition map (R18). -/
structure MapEntry where
  node : Nat
  addrs : List Nat
  rack : Nat
  deriving DecidableEq, Repr

/-- The 1PPS role of the description (R18, R305). -/
inductive PpsRole where
  | none
  | input
  | output
  deriving DecidableEq, Repr

/-- A fabric description (R18). -/
structure Fabric where
  node : Nat
  portAddrs : List PortAddr
  nextHops : List NextHop
  kaladPort : Nat
  rack : Nat
  /-- (prefix, cross-rack). -/
  boundary : List (Prefix × Bool)
  map : List MapEntry
  epoch : Nat
  ptpDomain : Nat
  ptpPorts : List Nat
  pps : PpsRole
  t0 : Nat
  periodUs : Nat
  deadlineUs : Nat
  actTime : Nat
  deriving DecidableEq, Repr

/-- The fields a FABRIC_SET carries: those of R18, each none where the message omits it. -/
structure FabricMsg where
  node : Option Nat
  portAddrs : Option (List PortAddr)
  nextHops : Option (List NextHop)
  kaladPort : Option Nat
  rack : Option Nat
  boundary : Option (List (Prefix × Bool))
  map : Option (List MapEntry)
  epoch : Option Nat
  /-- The time source: PTP domain, its ports, and the 1PPS role. -/
  timeSource : Option (Nat × List Nat × PpsRole)
  t0 : Option Nat
  periodUs : Option Nat
  deadlineUs : Option Nat
  actTime : Option Nat
  deriving DecidableEq, Repr

/-- The parameters of RIDGE_OPEN (R342); a parameter with a default may be left out. -/
structure RidgeParams where
  cirques : List Nat
  descAllow : Nat
  ringShare : Nat
  slotAllow : Nat
  connAllow : Nat
  ctxShare : Nat
  parkShare : Nat
  ingressShare : Nat
  /-- (bank, width 1, 2 or 4). -/
  banks : List (Nat × Nat)
  pfDepth : Option Nat
  scratchEn : Option Nat
  deriving DecidableEq, Repr

/-- The TLVs of RING_CREATE (R380). -/
inductive RingParams where
  | host (entries sqAddr cqAddr vector coalCount coalUs : Nat)
  | node (entries cirque : Nat)
  deriving DecidableEq, Repr

/-- The parameters of CONN_CREATE (R265). -/
structure ConnParams where
  initiate : Bool
  label : Nat
  peerAddr : Nat
  peerPort : Nat
  breakout : Nat
  cls : Nat
  seg : Nat
  e : Nat
  entBase : Nat
  cwndMax : Nat
  /-- T_DELAY, or its default. -/
  tDelayUs : Option Nat
  cmdRing : Option Nat
  psk : List Byte
  deriving DecidableEq, Repr

/-- The parameters of CTR_CREATE (R213). -/
structure IndexParams where
  metric : Nat
  dim : Nat
  efmt : Nat
  skw : Nat
  maxNorm : W32
  seed : BitVec 64
  cirques : List Nat
  stripes : Nat
  sideCap : Nat
  /-- MERGE_AT in eighths, or its default. -/
  mergeAt : Option Nat
  deriving DecidableEq, Repr

/-- The tables of Loupe (R323). -/
inductive LoupeTable where
  | ofs
  | ofl
  | cls4
  | cls6
  | reg
  | rfl
  deriving DecidableEq, Repr

/-- The entry a LOUPE_SET carries (R333): key and mask as stored, RESULT, PRIO, and the CTL bits it names. -/
structure LoupeBody where
  key : Nat
  mask : Nat
  result : Nat
  prio : Nat
  crit : Bool
  reserved : Nat
  deriving DecidableEq, Repr

/-- A firmware image offered to FW_STAGE (R358, R365): its version, bytes, and which signatures verify. -/
structure FwImage where
  svn : Nat
  bytes : List Byte
  vendorEd : Bool
  vendorMl : Bool
  ownerEd : Bool
  ownerMl : Bool
  deriving DecidableEq, Repr

/-- An owner record (R360): the DEVICE_ID it names, the owner's public keys, and which vendor signatures verify. -/
structure OwnerRec where
  deviceId : BitVec 128
  keys : List Byte
  vendorEd : Bool
  vendorMl : Bool
  deriving DecidableEq, Repr

/-- A release record (R360): the DEVICE_ID it names and which signatures of the current owner verify. -/
structure ReleaseRec where
  deviceId : BitVec 128
  ownerEd : Bool
  ownerMl : Bool
  deriving DecidableEq, Repr

/-- The targets of STRIP_RUN (R490) and the conditions measured at its start (R491). -/
structure StripRun where
  logic : Bool
  memory : Bool
  analog : Bool
  cirques : List Nat
  banks : List Nat
  breakouts : List Nat
  clocksOk : Bool
  suppliesOk : Bool
  deriving DecidableEq, Repr

/-- The results of a test strip run: bits set for failed targets, as the STRIP block holds them (R494). -/
structure StripResult where
  logic : Nat
  mem : Nat
  analog : Nat
  deriving DecidableEq, Repr

/-- What an injection does and where (R433). -/
inductive InjTarget where
  | checkDram (double : Bool) (ridge handle layer page granule : Nat)
  | checkFrame (double : Bool) (cirque set way word : Nat)
  | checkLocal (double : Bool) (cirque cell word : Nat)
  | pktDropBreakout (breakout : Nat)
  | pktDropConn (conn : Nat)
  | ctxEvict (conn : Nat)
  | cellStall (cirque cell us : Nat)
  | linkRetrain (breakout : Nat)
  deriving DecidableEq, Repr

/-- The fields of a LEASE TLV (R446). -/
structure LeaseParams where
  role : Nat
  epoch : Nat
  expires : Nat
  /-- Peer node number and connection, or none. -/
  peer : Option (Nat × Nat)
  peerRegion : Nat
  /-- PERIOD and ORPHAN_T, or their defaults. -/
  periodUs : Option Nat
  orphanS : Option Nat
  deriving DecidableEq, Repr

/-- Which log ERR_READ names (R419, R466). -/
inductive LogSel where
  | ridge (r : Nat)
  | waitFor
  deriving DecidableEq, Repr

/-- The MODE of TRACE_SET (R463). -/
inductive FlmMode where
  | off
  | stream
  | ring
  deriving DecidableEq, Repr

/-- The MODE of an event counter (R456). -/
inductive EvMode where
  | count
  | accum
  | max
  deriving DecidableEq, Repr

/-- One EVSEL entry (R456): the cirque, or none for a global counter; the counter, the event and the mode. -/
structure EvSel where
  cirque : Option Nat
  counter : Nat
  event : Nat
  mode : EvMode
  deriving DecidableEq, Repr

/-- The RECORDS TLV (R461). -/
structure RecSel where
  types : Nat
  ridges : Nat
  cirques : Nat
  k : Nat
  deriving DecidableEq, Repr

/-- Where a data-path command comes from: a host ring's fetched span, or a connection's notified COMMAND message (R383, R274). -/
inductive Src where
  | ring (ridge ring : Nat)
  | conn (n : Nat)
  deriving DecidableEq, Repr

/-- What a read of protected memory met (R415, R187). -/
inductive MemErr where
  | none
  | corrected
  | uncorrectable
  | misplaced
  deriving DecidableEq, Repr

/-- A source word that a segment met in error (R186, R188): the run row, counted over the segment's rows; whether it is of source B; and
its granule column 0 to 6, 7 for metadata, 8 for the work latch (R185). -/
structure SegWord where
  row : Nat
  ofB : Bool
  col : Nat
  deriving DecidableEq, Repr

/-- What a segment's checks met (R186, R187): the words corrected, and the word that was uncorrectable or whose granule tag did not match. -/
structure SegMet where
  corr : List SegWord
  abort : Option (SegWord × Bool)
  deriving DecidableEq, Repr

/-- What the outer headers of a received datagram say (R259): an IP fragment, IPv4 options or IPv6 extension headers, the UDP checksum
field, and whether that checksum verifies. -/
structure Outer where
  fragment : Bool
  options : Bool
  udpSum : Nat
  udpOk : Bool
  deriving DecidableEq, Repr

/-- A received Kalad datagram: the outer facts (R259), the source, the base header, the security extension (R287) and
the wire payload with its trailer. `authOk`: the GCM tag verifies under the keys of the connection and phase (R269). -/
structure KPkt where
  breakout : Nat
  srcAddr : Nat
  srcPort : Nat
  dscp : Nat
  outer : Outer
  /-- The ECN field: 3 is CE. -/
  ecn : Nat
  hdr : KHdr
  /-- KEY_PHASE, TXC and the extension's reserved bits, when an extension is present. -/
  ext : Option (Bool × Nat × Nat)
  authOk : Bool
  wire : List Byte
  icrc : W32
  deriving DecidableEq, Repr

/-- A CONNECT, ACCEPT or REFUSE record (R266). -/
structure SetupRec where
  versions : Nat
  label : Nat
  conn : Nat
  seg : Nat
  e : Nat
  psn : Nat
  msn : Nat
  /-- Completion target (region, address, entries), or none. -/
  target : Option (Nat × Nat × Nat)
  reason : Nat
  keyData : List Byte
  body : List Byte
  deriving DecidableEq, Repr

/-- A PTP Announce's data set, in the comparison order of IEEE 1588-2019 (R301). -/
structure Announce where
  priority1 : Nat
  clockClass : Nat
  accuracy : Nat
  variance : Nat
  priority2 : Nat
  gmIdentity : Nat
  stepsRemoved : Nat
  deriving DecidableEq, Repr

/-- A frame the MAC drops (R297). -/
inductive BadFrame where
  | etherType
  | pause
  | fcs
  deriving DecidableEq, Repr

/-- A wake frame's fields (R481). -/
structure WakeFrame where
  breakout : Nat
  dstMac : Nat
  len : Nat
  payload : List Byte
  deriving DecidableEq, Repr

/-- The reference clocks of R504. -/
inductive Clock where
  | sys
  | pcie
  | eth (p : Nat)
  | trace
  | aon
  deriving DecidableEq, Repr

/-- A 32 µs sensor reading (R506, R507, R508): °C, tenths of a watt, mV; and whether the AVSBus write it causes is acknowledged. -/
structure Sensors where
  dieMax : Nat
  stackTemps : List Nat
  substrate : Nat
  power : Nat
  measMv : Nat
  /-- AVSBus acknowledgements, one per try. -/
  avsAcks : List Bool
  deriving DecidableEq, Repr

/-- The limits of R506 at which the node acts: the die sensors' °C for lower issue, the package power in tenths of a watt, and the
THERMTRIP °C of a die and of a stack. -/
structure ThermLimits where
  die : Nat
  power : Nat
  dieTrip : Nat
  stackTrip : Nat
  deriving DecidableEq, Repr

/-- What a cold reset samples: straps, the configuration blob (R357), the flash images (R358), the PUF and the brownout cause. -/
structure ColdInputs where
  straps : BitVec 8
  blobOk : Bool
  macs : List Nat
  scratchAllow : Bool
  injectAllow : Bool
  blobBytes : List Byte
  /-- The blob's own thermal limits, if it sets any (R357, R506). -/
  limits : Option ThermLimits
  imageA : Option FwImage
  imageB : Option FwImage
  pufOk : Bool
  /-- The signatures of the floor record verify (R361). -/
  floorOk : Bool
  ioBistFail : Bool
  /-- VDD_AON or VDD_IO was lost. -/
  aonLost : Bool
  deriving DecidableEq, Repr

/-- How a node-issued PCIe read failed (R370), and what it was for. -/
inductive PcieRead where
  | fetch (ridge ring : Nat)
  | query (slot : Nat)
  deriving DecidableEq, Repr

/-- Why a page fill runs (R86, R87). -/
inductive FillKind where
  | frame
  | stream
  | prefetch
  deriving DecidableEq, Repr

/-- The commands: one constructor per row of the opcode table, in its order. -/
inductive Instr where
  -- Mailbox messages (R378)
  | hello (t : Nat) (h : MbxHdr) (versions : Nat)
  | idGet (t : Nat) (h : MbxHdr)
  | certGet (t : Nat) (h : MbxHdr) (aliasCert : Bool) (offset : Nat)
  | attest (t : Nat) (h : MbxHdr) (nonce : BitVec 256) (sel : Nat) (offset : Option Nat)
  | fabricSet (t : Nat) (h : MbxHdr) (m : FabricMsg)
  | fabricGet (t : Nat) (h : MbxHdr)
  | ridgeOpen (t : Nat) (h : MbxHdr) (p : RidgeParams)
  | ridgeModify (t : Nat) (h : MbxHdr) (pfDepth scratchEn : Option Nat)
  | ridgeDrain (t : Nat) (h : MbxHdr)
  | ridgeOpenAgain (t : Nat) (h : MbxHdr)
  | ridgeClose (t : Nat) (h : MbxHdr) (force : Bool)
  | ridgeGet (t : Nat) (h : MbxHdr)
  | ringCreate (t : Nat) (h : MbxHdr) (p : RingParams)
  | ringDestroy (t : Nat) (h : MbxHdr) (ring : Nat)
  | ringReset (t : Nat) (h : MbxHdr) (ring : Nat)
  | ringGet (t : Nat) (h : MbxHdr) (ring : Nat)
  | connCreate (t : Nat) (h : MbxHdr) (p : ConnParams)
  | connReset (t : Nat) (h : MbxHdr) (conn : Nat)
  | connClose (t : Nat) (h : MbxHdr) (conn : Nat)
  | connGet (t : Nat) (h : MbxHdr) (conn : Nat)
  | mprogLoad (t : Nat) (h : MbxHdr) (slot : Nat) (words consts : List W32)
  | mprogClear (t : Nat) (h : MbxHdr) (slot : Nat)
  | cbufCreate (t : Nat) (h : MbxHdr) (slots slotSize cirque : Nat)
  | cbufDestroy (t : Nat) (h : MbxHdr) (region : Nat)
  | cscrCreate (t : Nat) (h : MbxHdr) (cirque groups : Nat)
  | cscrDestroy (t : Nat) (h : MbxHdr) (region : Nat)
  | ctrCreate (t : Nat) (h : MbxHdr) (p : IndexParams)
  | ctrDestroy (t : Nat) (h : MbxHdr) (index : Nat)
  | pskrCreate (t : Nat) (h : MbxHdr) (width : Nat) (seed : BitVec 64) (groups : Nat)
  | pskrDestroy (t : Nat) (h : MbxHdr)
  | loupeSetAdd (t : Nat) (h : MbxHdr) (table : LoupeTable) (e : LoupeBody)
  | loupeSetDelete (t : Nat) (h : MbxHdr) (table : LoupeTable) (index : Nat)
  | loupeSetReplace (t : Nat) (h : MbxHdr) (table : LoupeTable) (index : Nat) (e : LoupeBody)
  | portSet (t : Nat) (h : MbxHdr) (port mode mtu : Nat) (macs : List Nat)
  | ntStep (t : Nat) (h : MbxHdr)
  | cbsSet (t : Nat) (h : MbxHdr) (breakout cls idle hi : Nat) (enable full : Bool)
  | gateSet (t : Nat) (h : MbxHdr) (breakout : Nat) (entries : List (Nat × Nat)) (takeover : Nat)
  | shtSet (t : Nat) (h : MbxHdr) (breakout : Nat) (slots : List (Nat × Nat)) (takeover : Nat)
  | shtGet (t : Nat) (h : MbxHdr) (breakout : Nat)
  | fwStage (t : Nat) (h : MbxHdr) (img : FwImage)
  | fwActivate (t : Nat) (h : MbxHdr) (at_ : Nat)
  | fwFloor (t : Nat) (h : MbxHdr) (value : Nat)
  | ownerEnrol (t : Nat) (h : MbxHdr) (rec : OwnerRec) (release : Option ReleaseRec)
  | pwrEnter (t : Nat) (h : MbxHdr) (target : Nat)
  | resetWarm (t : Nat) (h : MbxHdr)
  | ridgeReset (t : Nat) (h : MbxHdr)
  | cirqueReset (t : Nat) (h : MbxHdr) (cirque : Nat)
  | stripRun (t : Nat) (h : MbxHdr) (run : StripRun)
  | errRead (t : Nat) (h : MbxHdr) (log : LogSel) (start : Nat)
  | healthGet (t : Nat) (h : MbxHdr)
  | shadowSet (t : Nat) (h : MbxHdr) (fraction : Nat)
  | shadowSetRelease (t : Nat) (h : MbxHdr) (cirque cell : Nat)
  | inject (t : Nat) (h : MbxHdr) (target : InjTarget) (count expiry : Nat)
  | injectClear (t : Nat) (h : MbxHdr) (id : Nat)
  | belaySetDrain (t : Nat) (h : MbxHdr) (on : Bool)
  | belaySetMirror (t : Nat) (h : MbxHdr) (conn : Option Nat) (sync : Bool)
  | belaySetStandin (t : Nat) (h : MbxHdr) (on : Bool)
  | belaySetLease (t : Nat) (h : MbxHdr) (p : LeaseParams)
  | leaseGet (t : Nat) (h : MbxHdr)
  | meterRead (t : Nat) (h : MbxHdr)
  | epochDrain (t : Nat) (h : MbxHdr) (periodUs : Nat)
  | epochDrainEndNow (t : Nat) (h : MbxHdr)
  | stopAt (t : Nat) (h : MbxHdr) (instant : Nat) (holdMaxS : Option Nat)
  | stopAtCancel (t : Nat) (h : MbxHdr)
  | stopAtRelease (t : Nat) (h : MbxHdr)
  | watchdogSet (t : Nat) (h : MbxHdr) (periodMs : Nat)
  | traceSetEvsel (t : Nat) (h : MbxHdr) (sels : List EvSel)
  | traceSetRecords (t : Nat) (h : MbxHdr) (sel : RecSel)
  | traceSetMode (t : Nat) (h : MbxHdr) (mode : FlmMode)
  | traceSetDump (t : Nat) (h : MbxHdr) (snapshot : Bool) (addr len : Nat)
  | mboxOverrun (t : Nat) (fn : Fn)
  -- Data-path commands (R386)
  | openSeq (t : Nat) (src : Src) (d : Desc)
  | append (t : Nat) (src : Src) (d : Desc) (data : Option (List Byte))
  | sealSeq (t : Nat) (src : Src) (d : Desc)
  | fork (t : Nat) (src : Src) (d : Desc)
  | free (t : Nat) (src : Src) (d : Desc)
  | ingest (t : Nat) (src : Src) (d : Desc) (data : Option (List Byte))
  | read (t : Nat) (src : Src) (d : Desc)
  | prefetch (t : Nat) (src : Src) (d : Desc)
  | develop (t : Nat) (src : Src) (d : Desc) (inl : List Byte)
  | reverse (t : Nat) (src : Src) (d : Desc) (inl : List Byte)
  | composite (t : Nat) (src : Src) (d : Desc)
  | gradSend (t : Nat) (src : Src) (d : Desc)
  | gradClear (t : Nat) (src : Src) (d : Desc)
  | query (t : Nat) (src : Src) (d : Desc) (inl : List Byte)
  | insert (t : Nat) (src : Src) (d : Desc) (data : Option (List Byte))
  | delete (t : Nat) (src : Src) (d : Desc) (data : Option (List Byte))
  | ctrMerge (t : Nat) (src : Src) (d : Desc)
  | cairn (t : Nat) (src : Src) (d : Desc) (inl : List Byte)
  | cairnHoldEnter (t : Nat) (src : Src) (d : Desc)
  | cairnHoldLeave (t : Nat) (src : Src) (d : Desc)
  -- Register accesses
  | ringDb (t : Nat) (fn : Fn) (ridge ring tail : Nat)
  | cqHead (t : Nat) (fn : Fn) (ridge ring head : Nat)
  | intCauseClear (t : Nat) (fn : Fn) (bits : W32)
  | intEnable (t : Nat) (fn : Fn) (bits : W32)
  | flmMark (t : Nat) (value : W32)
  | lowWordRead (t : Nat) (fn : Fn) (offset : Nat)
  | registerWrite (t : Nat) (fn : Fn) (offset size value : Nat)
  | barBadAccess (t : Nat) (fn : Fn) (write : Bool) (offset size : Nat)
  -- Kalad packets
  | write (t : Nat) (p : KPkt)
  | writeImm (t : Nat) (p : KPkt)
  | readReq (t : Nat) (p : KPkt)
  | readResp (t : Nat) (p : KPkt)
  | command (t : Nat) (p : KPkt)
  | ack (t : Nat) (p : KPkt)
  | sack (t : Nat) (p : KPkt)
  | nack (t : Nat) (p : KPkt)
  | connect (t : Nat) (p : KPkt) (r : SetupRec)
  | accept (t : Nat) (p : KPkt) (r : SetupRec)
  | refuse (t : Nat) (p : KPkt) (r : SetupRec)
  -- Kalad events
  | messageNotify (t : Nat) (conn : Nat)
  | contextFetchDone (t : Nat) (conn : Nat) (ok : Bool)
  | rtoExpiry (t : Nat) (conn : Nat)
  | ackDelayExpiry (t : Nat) (conn : Nat)
  | connectResend (t : Nat) (conn : Nat)
  | retryAfterExpiry (t : Nat) (conn : Nat)
  | connCloseTimeout (t : Nat) (conn : Nat)
  | oldKeyExpiry (t : Nat) (conn : Nat)
  -- Ports and network time
  | ptpSync (t : Nat) (domain breakout : Nat) (offset : Int) (logInterval : Int)
  | ptpAnnounce (t : Nat) (domain breakout : Nat) (a : Announce)
  | ptpDelayResp (t : Nat) (domain breakout : Nat) (delay : Nat)
  | syncTimeout (t : Nat) (announce : Bool)
  | holdoverSecond (t : Nat)
  | ppsInEdge (t : Nat)
  | ppsLoss (t : Nat)
  | ppsOutEdge (t : Nat)
  | arpRx (t : Nat) (breakout target : Nat) (request : Bool)
  | ethFrameDrop (t : Nat) (breakout : Nat) (kind : BadFrame)
  | wakeFrame (t : Nat) (f : WakeFrame)
  | egressDecision (t : Nat) (breakout : Nat)
  | linkDown (t : Nat) (breakout : Nat)
  | linkUp (t : Nat) (breakout : Nat)
  | gateTakeover (t : Nat) (ridge breakout : Nat)
  | shutterTakeover (t : Nat) (breakout : Nat)
  -- Schedule
  | fabricActivation (t : Nat)
  | drainDeadline (t : Nat)
  | exposureBoundary (t : Nat) (n : Nat)
  | deadlineInstant (t : Nat) (slot : Nat)
  -- Engines
  | queryPlaced (t : Nat) (slot : Nat) (data : Option (List Byte))
  | thinPhaseDone (t : Nat) (slot : Nat) (err : MemErr)
  | itemDispatch (t : Nat) (cirque : Nat)
  | itemComplete (t : Nat) (cirque cell : Nat) (err : MemErr) (flip : Option (Nat × W32))
  | mergeAccept (t : Nat) (cirque : Nat)
  | spillComplete (t : Nat) (cirque cell : Nat)
  | fillComplete (t : Nat) (cirque slot : Nat) (kind : FillKind) (err : MemErr)
  | requestFinish (t : Nat) (slot : Nat)
  | outputDelivered (t : Nat) (slot : Nat) (ok : Bool)
  | pageSeal (t : Nat) (cirque : Nat) (err : MemErr)
  | ringReuseResume (t : Nat) (slot : Nat)
  | forkResume (t : Nat) (slot : Nat)
  | sequenceRelease (t : Nat) (index : Nat)
  | ringSpanFetch (t : Nat) (ridge ring : Nat)
  | coalTimeout (t : Nat) (ridge ring : Nat)
  | stripeSwitch (t : Nat) (ridge index cirque : Nat)
  | segmentComplete (t : Nat) (cirque bank : Nat) (met : SegMet)
  | modeEntryComplete (t : Nat) (cirque group : Nat)
  | cairnTick (t : Nat) (stack : Nat)
  | refreshDue (t : Nat) (cirque bank : Nat)
  | lingerExpiry (t : Nat) (cirque group : Nat)
  | patrolRead (t : Nat) (stack : Nat) (err : MemErr)
  | scrubPass (t : Nat) (upset : Option (Nat × Nat)) (shadowBad : Bool)
  -- Health, belay, trace
  | healthDecay (t : Nat)
  | advisoryMinute (t : Nat)
  | leaseRecordSend (t : Nat) (ridge : Nat)
  | leaseExpiry (t : Nat) (ridge : Nat)
  | orphanReclaim (t : Nat) (ridge : Nat)
  | injectExpiry (t : Nat) (id : Nat)
  | watchdogFire (t : Nat) (slot : Nat)
  | filmstripSync (t : Nat)
  | stopCut (t : Nat)
  | cutWritten (t : Nat)
  | holdMaxExpiry (t : Nat)
  | throttleStep (t : Nat) (k : Nat)
  | sensorUpdate (t : Nat) (r : Sensors)
  | fwSwitch (t : Nat) (selfCheckOk : Bool)
  -- Ridges, power, reset
  | ridgeOpened (t : Nat) (ridge : Nat) (trngOk : Bool)
  | ridgeCloseComplete (t : Nat) (ridge : Nat) (readBacks : List Bool)
  | ridgeZeroed (t : Nat) (ridge : Nat)
  | pwrEntryComplete (t : Nat)
  | wakeEvent (t : Nat) (source breakout : Nat) (fn : Fn) (post : Option (Nat × Nat × Nat))
  | a0Reported (t : Nat) (imageOk : Bool)
  | cellRegate (t : Nat) (cirque : Nat)
  | stripComplete (t : Nat) (r : StripResult)
  | coldReset (t : Nat) (c : ColdInputs)
  | perstReset (t : Nat)
  | functionLevelReset (t : Nat) (fn : Fn)
  | supplyExcursion (t : Nat) (code us : Nat) (c : ColdInputs)
  | clockLoss (t : Nat) (clk : Clock)
  | thermtrip (t : Nat) (celsius : Nat) (stack : Bool)
  | clockReturn (t : Nat) (clk : Clock) (c : ColdInputs)
  | trngHealthFailure (t : Nat)
  | warmResetComplete (t : Nat) (c : ColdInputs)
  | ridgeResetComplete (t : Nat) (ridge : Nat)
  | attestReportHoldExpiry (t : Nat) (fn : Fn)
  | submissionFetchComplete (t : Nat) (ridge ring span : Nat)
  | pcieReadFailed (t : Nat) (what : PcieRead)
  | mboxUnsupportedOpcode (t : Nat) (h : MbxHdr) (opcode : Nat)
  | undefinedCommandOpcode (t : Nat) (src : Src) (d : Desc)
  | pcieReplay (t : Nat)
  | sriovVfEnable (t : Nat) (numVfs : Nat) (enable : Bool)
  deriving DecidableEq, Repr

end Sys2Proof
end

