-- ==== Sys2Proof/Machine/State.lean ====
section
/-! DEFINITION. The state of the node: plain data, grouped by the chapter that names it; the faults and refusals; reset.
Log entries 2, 3, 6, 8, 9, 11, 12, 18, 20, 23, 24, 30, 44, 49, 54, 64. -/

namespace Sys2Proof.Machine

open Sys2Proof

/-- Faults. No command of this block ends in one: every outcome the spec names is a status, a NACK, a drop or a record in
State. (Safe: nothing raises it.) -/
inductive Fault where
  /-- Raised by nothing; kept so that the type has a value. Safe. -/
  | none
  deriving DecidableEq, Repr

/-- Refusals. -/
inductive Refusal where
  /-- A command whose meaning is not written yet, raised by an arm of `exec` alone. Safe: the machine stops. -/
  | notModelled (mnemonic : String)
  deriving DecidableEq, Repr

/-- Command statuses (R389). -/
inductive Status where
  | ok
  | malformed
  | ridgeMismatch
  | staleEpoch
  | badHandle
  | stateConflict
  | badShape
  | badLength
  | badParam
  | noSeq
  | noPages
  | limit
  | normLimit
  | sideFull
  | queryFault
  | nonfinite
  | uncorrectable
  | outFault
  | discarded
  | partial_
  | incomplete
  | contribConflict
  | hwFault
  deriving DecidableEq, Repr

/-- Mailbox statuses (R377). -/
inductive MStatus where
  | ok
  | malformed
  | unsupported
  | invalidArg
  | accessDenied
  | noSpace
  | busy
  | stateConflict
  | hwFault
  | conditions
  | noHello
  | noPages
  deriving DecidableEq, Repr

/-- NACK codes (R281). -/
inductive NackCode where
  | ctxRetry
  | busy
  | staleEpoch
  | badRegion
  | ridgeMismatch
  | malformed
  | length
  | seq
  deriving DecidableEq, Repr

/-- Causes of error records (R421). -/
inductive Cause where
  | uncorr
  | misplaced
  | codec
  | codecSrc
  | nonfinite
  | shadow
  | queryFault
  | outFault
  | ringError
  | connFail
  | contrib
  | loupe
  | link
  | key
  | trng
  | fw
  | time
  | protocol
  | watchdog
  | mirror
  | lease
  | advisory
  deriving DecidableEq, Repr

/-- Components of records and health scores (R420, R423), with their number. -/
inductive Comp where
  | none
  | cell (n : Nat)
  | cirque (n : Nat)
  | stack (n : Nat)
  | slice (n : Nat)
  | lane (n : Nat)
  | ioRing
  | security
  | aon
  | pcie
  deriving DecidableEq, Repr

/-- Where a counter lies (R408, R409 to R413): the section and the index. -/
inductive Ctr where
  | ridge (r i : Nat)
  | cirque (c i : Nat)
  | index (r x i : Nat)
  | bank (b i : Nat)
  | node (i : Nat)
  deriving DecidableEq, Repr

/-- An error record (R420). -/
structure ErrRec where
  seq : Nat
  cause : Cause
  ridge : Nat
  injected : Bool
  comp : Comp
  count : Nat
  time : Nat
  tag : Nat
  opcode : Nat
  status : Option Status
  handle : Nat
  loc0 : Nat
  layer : Nat
  page : Nat
  head : Nat
  noPage : Bool
  /-- A tenant's copy that names a component the tenant does not own: COMP_ID and LOC0 read 0 (R353, R420). -/
  hidden : Bool
  detail : List Nat
  deriving DecidableEq, Repr

/-- One error log (R418): records newest first, the next sequence number, LOST. -/
structure Log where
  recs : List ErrRec
  next : Nat
  lost : Nat
  deriving DecidableEq, Repr

/-- The empty log: sequence numbers start at 1 (R418). -/
def Log.empty : Log := { recs := [], next := 1, lost := 0 }

/-- A wait-for record (R466): the request, its edges (kind, from, waited µs, object), and its times. -/
structure WaitRec where
  seq : Nat
  slot : Nat
  ridge : Nat
  cycle : Bool
  trunc : Bool
  tag : Nat
  opcode : Nat
  edges : List (Nat × Nat × Nat × Nat)
  started : Nat
  fired : Nat
  deriving DecidableEq, Repr

/-- Time states (R302). -/
inductive TState where
  | unset
  | acquiring
  | locked
  | holdover
  | fault
  deriving DecidableEq, Repr

/-- Network time and its servo (R300 to R305, R317). -/
structure TimeSt where
  /-- The 64-bit network time of R7, in ns. -/
  now : Nat
  st : TState
  lockCnt : Nat
  faultCnt : Nat
  offset : Int
  synced : Bool
  lastSync : Nat
  /-- The announced Sync interval in ns, clamped (R302). -/
  syncInt : Nat
  /-- The counter's rate off nominal, in ppb. -/
  rate : Int
  /-- The last rate the servo measured (R304). -/
  servo : Int
  holdFrom : Nat
  holdRecs : Nat
  stepThUs : Nat
  /-- The latest Announce of each clock on each port, by breakout, oldest first (R301). -/
  heard : List (Nat × Announce)
  /-- The selected master: its breakout and data set. -/
  master : Option (Nat × Announce)
  delay : Nat
  ppsPhase : Bool
  lastPps : Nat
  ppsChanges : Nat
  lastPpsOut : Nat
  /-- The part of the last measured offset that no step has taken away. -/
  left : Int
  deriving DecidableEq, Repr

/-- The fabric description's home (R17 to R23, R445). -/
structure FabricSt where
  cur : Option Fabric
  pend : Option Fabric
  prevEpoch : Option Nat
  drainAt : Nat
  drainUs : Nat
  deriving DecidableEq, Repr

/-- Ridge states (R344). -/
inductive RState where
  | absent
  | opening
  | opened
  | draining
  | closing
  deriving DecidableEq, Repr

/-- A microprogram slot (R105): the program, and the version of the last load since the Opening. -/
structure MSlot where
  prog : Option (List W32 × List W32)
  last : Nat
  deriving DecidableEq, Repr

/-- A row that a page-sketch region has given to an owner (R239): its bank and bank row, the owner's sequence handle, layer and head, and
the page slots that hold positions in it. -/
structure PskRow where
  bank : Nat
  row : Nat
  seq : Nat
  layer : Nat
  head : Nat
  /-- (position in the row, page slot). -/
  used : List (Nat × Nat)
  deriving DecidableEq, Repr

/-- A page-sketch region (R236): width, seed, its row groups, the whitening draw, and each cirque's rows. -/
structure Pskr where
  width : Nat
  seed : BitVec 64
  groups : Nat
  white : Nat
  /-- Its write generation (R76, R217). -/
  wgen : Nat
  /-- The row groups taken, by cirque. -/
  rowGroups : FMap (List Nat)
  /-- Assigned rows by cirque. -/
  rows : FMap (List PskRow)
  /-- The next bank of the round robin, by cirque (R239). -/
  nextBank : FMap Nat
  deriving DecidableEq, Repr

/-- A meter set (R449, R450). -/
structure Meter where
  epoch : Nat
  openAt : Nat
  closeAt : Nat
  own : Nat
  cell : Nat
  dram : Nat
  sram : Nat
  tx : Nat
  rx : Nat
  deriving DecidableEq, Repr

/-- The zero meter set. -/
def Meter.zero : Meter :=
  { epoch := 0, openAt := 0, closeAt := 0, own := 0, cell := 0, dram := 0, sram := 0, tx := 0, rx := 0 }

/-- A peer's lease record (R446). -/
structure LeaseRec where
  role : Nat
  epoch : Nat
  node : Nat
  expires : Nat
  sent : Nat
  device : Nat
  deriving DecidableEq, Repr

/-- A lease (R446 to R448). -/
structure Lease where
  p : LeaseParams
  region : Nat
  peerRec : Option LeaseRec
  holding : Bool
  lostAt : Nat
  reclaimed : Bool
  lastSend : Nat
  deriving DecidableEq, Repr

/-- A ridge (R341 to R352). -/
structure Ridge where
  state : RState
  p : RidgeParams
  keyEpoch : Nat
  ridgeEpoch : Nat
  /-- The memory key's slot of the key store holds a key (R348, R349): its draw. -/
  key : Option Nat
  /-- A command has been refused while Draining (R344). -/
  refused : Bool
  /-- The function whose RIDGE_OPEN or RIDGE_CLOSE awaits its completion. -/
  waiter : Option Fn
  force : Bool
  /-- Rows still to be zeroed under step 7 of R347, by stack. -/
  rowsLeft : FMap Nat
  /-- Zeroization failed three times, or a key-store error: every DRAM path halted (R350, R417). -/
  halted : Bool
  /-- A ridge reset runs since this instant (R364, R488). -/
  resetAt : Option Nat
  tempoLevel : Nat
  tempoExp : Nat
  mprogs : FMap MSlot
  pskr : Option Pskr
  shadow : Nat
  watchdogMs : Nat
  mirror : Option (Nat × Bool)
  standin : Bool
  lease : Option Lease
  meter : Meter
  meters : List Meter
  log : Log
  deriving DecidableEq, Repr

/-- The parameters a ridge that is Absent shows: none. -/
def RidgeParams.none : RidgeParams :=
  { cirques := [], descAllow := 0, ringShare := 0, slotAllow := 0, connAllow := 0, ctxShare := 0, parkShare := 0,
    ingressShare := 0, banks := [], pfDepth := .none, scratchEn := .none }

/-- A ridge in the state given, with nothing in it. -/
def Ridge.fresh (st : RState) : Ridge :=
  { state := st, p := RidgeParams.none, keyEpoch := 0, ridgeEpoch := 0, key := none, refused := false, waiter := none,
    force := false, rowsLeft := [], halted := false, resetAt := none, tempoLevel := 3, tempoExp := 0, mprogs := [],
    pskr := none, shadow := 0, watchdogMs := 10, mirror := none, standin := false, lease := none, meter := Meter.zero,
    meters := [], log := Log.empty }

/-- A KV format block (R31), parsed. -/
structure Fmt where
  bits : BitVec 192
  kfmt : Nat
  vfmt : Nat
  rot : Nat
  rope : Nat
  hkv : Nat
  d : Nat
  pairs : Nat
  ver : Nat
  seed : BitVec 64
  base : W32
  scale : W32
  deriving DecidableEq, Repr

/-- Sequence descriptor states (R60); Free is absence from the map. -/
inductive SState where
  | opened
  | sealed
  | closing
  deriving DecidableEq, Repr

/-- One layer of a sequence: next position (R56), page map, gradient page map (R135), gradient mark (R137). -/
structure Layer where
  next : Nat
  pages : FMap Nat
  grads : FMap Nat
  dirty : Bool
  deriving DecidableEq, Repr

/-- The belay mirror of one sequence (R437 to R440). -/
structure MirrorSeq where
  conn : Nat
  sync : Bool
  buddy : Option Nat
  broken : Bool
  /-- Mirrored commands that wait for the buddy's handle (R438): handle of the sequence, opcode, message, and the request that waits. -/
  held : List (Nat × Nat × List Byte × Option Nat)
  deriving DecidableEq, Repr

/-- A sequence (R52, R55, R60). -/
structure SeqD where
  state : SState
  ridge : Nat
  gen : Nat
  fmt : Fmt
  layers : FMap Layer
  salt : Nat
  ringW : Nat
  sink : Nat
  start : Nat
  mirror : Option MirrorSeq
  deriving DecidableEq, Repr

/-- Page states of the header (R58). -/
inductive PSt where
  | opened
  | sealed
  | ring
  | pinned
  deriving DecidableEq, Repr

/-- A page in a slot (R57, R58, R76): header fields, stored payload, what its granules hold wrong, and the state it awaits. -/
structure Page where
  ridge : Nat
  refs : Nat
  wgen : Nat
  pstate : PSt
  /-- The state the page is to enter at its seal (R249). -/
  want : Option PSt
  raw : Bool
  partl : Bool
  grad : Bool
  pageNo : Nat
  layer : Nat
  tokens : Nat
  tpp : Nat
  homeK : Nat
  salt : Nat
  firstPos : Nat
  fmt : BitVec 192
  encBytes : Nat
  /-- CODE_TABLE (R248), 960 bytes, or empty for all zero. -/
  table : List Byte
  /-- SKETCH by head (R58, R237); empty for all zero. -/
  sketch : List Nat
  /-- The stored payload bytes up to the last one that is read (R252). -/
  payload : List Byte
  /-- Granules that read as uncorrectable (R415). -/
  bad : List Nat
  /-- The granules that an injection made so (R435). -/
  injected : List Nat
  deriving DecidableEq, Repr

/-- A frame of the SRAM cache (R83 to R88). -/
structure Frame where
  /-- The page slot it holds. -/
  slot : Nat
  refBit : Bool
  /-- The deadline instant the pin lasts to. -/
  pinTo : Option Nat
  /-- An uncorrectable word was injected. -/
  bad : Bool
  /-- It is the second copy that R90 makes of a page. -/
  refill : Bool
  /-- The tiles of the page (R84), up to the last byte that is not of the zero tail; none while a fill runs. -/
  tiles : List Byte
  deriving DecidableEq, Repr

/-- A page partial (R47). -/
structure Partial where
  m : W32
  l : W32
  u : List W32
  count : Nat
  deriving DecidableEq, Repr

/-- A contribution of REVERSE (R132): position, dK and dV. -/
structure Contrib where
  pair : Nat
  pos : Nat
  dk : List W32
  dv : List W32
  deriving DecidableEq, Repr

/-- What an item computed: one partial for each pair of its block, REVERSE's contributions, whether a value was not
finite (the query heads), and REV_CLAMP events. -/
structure ItemOut where
  parts : List (Nat × Partial)
  contribs : List Contrib
  /-- Pairs that met a non-finite operand or result (R51). -/
  nonfinite : List Nat
  clamps : Nat
  deriving DecidableEq, Repr

/-- A work item (R154): request slot, page number, KV head, pair block; which run of a shadowed item (R429): 1, 2 or 3;
and the cells the earlier runs used. -/
structure Item where
  req : Nat
  page : Nat
  head : Nat
  block : Nat
  run : Nat
  avoid : List Nat
  deriving DecidableEq, Repr

/-- A finished run of a shadowed item, awaiting comparison (R429, R430). -/
structure ShadowRun where
  page : Nat
  head : Nat
  block : Nat
  run : Nat
  cell : Nat
  /-- None when the run met an uncorrectable word (R451). -/
  result : Option ItemOut
  deriving DecidableEq, Repr

/-- A candidate item of a QUERY, as it stood at admission (R224, R227, R235). -/
structure QItem where
  k : Nat
  side : Bool
  /-- Ordinal for main items; commit sequence × 1,024 + position for side items (R227). -/
  order : Nat
  key : Nat
  tag : BitVec 64
  n : W32
  vec : List Byte
  sketch : Nat
  deriving DecidableEq, Repr

/-- Request phases. -/
inductive RPhase where
  /-- Admitted; waits for E_n (R144). -/
  | waiting
  /-- Started; its query or input block is not wholly placed (R95). -/
  | fetching
  /-- The thin phase runs (R107, R226). -/
  | thin
  /-- Items run (R156). -/
  | dense
  /-- The output has been sent and is not yet acknowledged (R113). -/
  | output
  /-- A COMPOSITE's buffer is armed (R125). -/
  | armed
  /-- Held by ring reuse (R71). -/
  | held
  /-- A FORK waits for seals (R256). -/
  | forkWait
  /-- An APPEND under SYNC waits for the buddy (R439), or a CTR_MERGE, PREFETCH or CAIRN for its engines. -/
  | engine
  /-- Completed; its slot is held until the completion written by Kalad is acknowledged (R285). -/
  | posted
  deriving DecidableEq, Repr

/-- An admitted command that has not completed (R285): its request slot holds all of it. -/
structure Request where
  ridge : Nat
  opcode : Nat
  tag : Nat
  prio : Nat
  src : Src
  sqHead : Nat
  exposure : Nat
  tagged : Bool
  lateDiscard : Bool
  deadline : Nat
  order : Nat
  desc : Desc
  phase : RPhase
  startedAt : Option Nat
  admittedAt : Nat
  /-- Committed next position at admission (R66). -/
  snap : Nat
  /-- Page number and slot of every page held at admission. -/
  pages : List (Nat × Nat)
  /-- The number of the open page at admission (R106). -/
  openPage : Option Nat
  /-- The numbers of the pages that awaited their seal at admission (R107). -/
  awaiting : List Nat
  prog : Option (List W32 × List W32)
  /-- Prepared operands (R96): per pair, element codes or patterns; then block scales of an FP8 query. -/
  query : List (List W32)
  qscales : List (List W32)
  slopes : List W32
  /-- REVERSE inputs (R131): dO prepared, L and D per pair. -/
  dout : List (List W32)
  bigL : List W32
  bigD : List W32
  /-- Attended pages after selection, ascending (R108). -/
  chosen : List Nat
  approx : Bool
  /-- Items not yet created (R156). -/
  todo : List Item
  /-- Accepted partials: page, home index, head, pair (R152). -/
  parts : List (Nat × Nat × Nat × Partial)
  contribs : List (Nat × Contrib)
  runs : List ShadowRun
  shadowed : List (Nat × Nat × Nat)
  committed : Bool
  /-- First runtime cause (R115), and the error record of it. -/
  fail : Option Status
  /-- (pair, page) of every non-finite outcome (R51). -/
  nonfin : List (Nat × Nat)
  errRef : Nat
  flags : Nat
  bytes : Nat
  result0 : Nat
  pagesRead : List Nat
  /-- PREFETCH: slots still to warm; COMPOSITE: accepted (slot, CONTRIB). -/
  list : List (Nat × Nat)
  /-- COMPOSITE: the records accepted, by CONTRIB, as they stood when they were (R126). -/
  recs : FMap (List Byte)
  items : List QItem
  data : List Byte
  watchFired : Bool
  /-- Time for which a cut was held while the request ran (R464). -/
  heldNs : Nat
  /-- A write that waits for readers of the pages it reuses is counted once (R71). -/
  reuseHeld : Bool
  /-- The composite buffer or scratch region the command names, or the region its remote query is placed in. -/
  region : Nat
  /-- The remote query is wholly placed (R95). -/
  placed : Bool
  /-- The Kalad message that carries the output is done, or has failed (R113). -/
  outDone : Option Bool
  /-- The last NACK code of a message that failed (R281). -/
  nack : Nat
  /-- The status to complete with once the output is delivered. -/
  final : Status
  deriving DecidableEq, Repr

/-- A spill slot (R159, R162, R163): the strand record with its request, KV head, pair block and next page, whether it is still to be read,
and the partial that the strand held. -/
structure Spill where
  item : Item
  unread : Bool
  held : Option (Item × ItemOut)
  deriving DecidableEq, Repr

/-- A cell (R147, R155, R160, R432). -/
structure Cell where
  item : Option Item
  since : Nat
  /-- The item that caused the mark takes the cell next (R160). -/
  mark : Option Item
  held : Option (Item × ItemOut)
  spilling : Bool
  spills : List Spill
  odd : Nat
  quarantined : Bool
  stallTo : Nat
  /-- An injected double-bit error of the local store awaits a read. -/
  bad : Bool
  /-- The page data its item needs are at hand (R86). -/
  fed : Bool
  /-- Its item stopped a marked strand there and has not issued yet (R454). -/
  preempting : Bool
  /-- Its item came when a stream fill of its page could no longer be joined: it takes R86 again when the fill ends (R253). -/
  late : Bool
  /-- The page buffer (R253): TOKENS and the tiles of its item's KV head, from a stream fill. -/
  buffer : Option (Nat × List Byte)
  deriving DecidableEq, Repr

/-- A cell at reset. -/
def Cell.idle : Cell :=
  { item := none, since := 0, mark := none, held := none, spilling := false, spills := [], odd := 0,
    quarantined := false, stallTo := 0, bad := false, fed := false, preempting := false,
    late := false, buffer := none }

/-- A cirque's engines (R152, R156, R249, R476). -/
structure Cirque where
  cells : FMap Cell
  ready : List Item
  /-- Partials ahead of their turn: (request, page, head, block) in reorder slots (R152). -/
  reorder : List (Nat × Nat × Nat × Nat × ItemOut)
  sealQ : List Nat
  gated : Bool
  /-- When the cirque's work last changed (R476). -/
  idleSince : Nat
  /-- Page fills in progress: page slot, kind and the instant the fill began. -/
  fills : List (Nat × FillKind × Nat)
  /-- Ready items for which a mark has been withheld since every spill slot of a candidate was in use: each is counted once (R165). -/
  withheld : List Item
  deriving DecidableEq, Repr

/-- A cirque at reset. -/
def Cirque.idle : Cirque :=
  { cells := [], ready := [], reorder := [], sealQ := [], gated := false, idleSince := 0, fills := [], withheld := [] }

/-- A bank group of a cirque (R172 to R174). -/
structure Group where
  mode : Bool
  entering : Option Nat
  holders : List Nat
  lingerAt : Option Nat
  deriving DecidableEq, Repr

/-- A bank group at reset: out of Cairn mode. -/
def Group.out : Group := { mode := false, entering := none, holders := [], lingerAt := none }

/-- A row image of a bank (R75, R171): 1,792 data bytes and the granule tags of its seven columns. Its check bytes and metadata words follow
from these. -/
structure RowImg where
  data : List Byte
  tags : List Nat
  deriving DecidableEq, Repr

/-- A row image of zeros. -/
def RowImg.zero : RowImg := { data := [], tags := [] }

/-- An operation descriptor of a unit, with the row of its aperture (R175, R178). `resv`: a reserved field of it is not 0. -/
structure CairnOp where
  op : Nat
  rowA : Nat
  rowB : Nat
  rowD : Nat
  bLatch : Bool
  dLatch : Bool
  predEn : Bool
  predInv : Bool
  skw : Nat
  qsel : Nat
  run : Nat
  gmask : Nat
  shift : Nat
  thr : Nat
  tagq : Nat
  pmask : BitVec 64
  pval : BitVec 64
  expTag : Nat
  tagMask : Nat
  newTag : Nat
  resv : Bool
  deriving DecidableEq, Repr

/-- A segment of one bank (R177, R202): the request it serves, its descriptors, the query latch image the controller writes before it, the
ridge it expects, and the network time of its segment control write. -/
structure Segment where
  req : Nat
  ops : List CairnOp
  latch : Option Nat
  ridge : Nat
  issued : Nat
  deriving DecidableEq, Repr

/-- The status word of a unit (R185). -/
structure UnitStatus where
  state : Nat
  opsDone : Nat
  rowOps : Nat
  abortOp : Nat
  cause : Nat
  results : Nat
  corr : Nat
  abortRow : Nat
  abortCol : Nat
  seq : Nat
  deriving DecidableEq, Repr

/-- The status word at reset: outside Cairn mode. -/
def UnitStatus.zero : UnitStatus :=
  { state := 0x3E, opsDone := 0, rowOps := 0, abortOp := 0, cause := 0, results := 0, corr := 0, abortRow := 0,
    abortCol := 0, seq := 0 }

/-- A bank's unit and controller state (R171, R193). -/
structure Bank where
  /-- The row last activated by the unit, and its latches (R171). -/
  rowBuf : RowImg
  work : RowImg
  queryLatch : Nat
  /-- The descriptors of the segment, their number and the expected ridge that segment control gave (R177). -/
  ops : List CairnOp
  segOps : Nat
  segRidge : Nat
  results : List (List Byte)
  status : UnitStatus
  /-- Segments that wait for the bank, and the running one. -/
  queue : List Segment
  running : Option Segment
  /-- Refreshes owed, and when the next comes due, in 1/32 ns of network time; 0 until one has come due (R192, R193). -/
  owed : Nat
  refDue : Nat
  /-- Ordinary accesses held while a segment runs, and when the first arrived (R195). -/
  held : Nat
  heldAt : Nat
  deriving DecidableEq, Repr

/-- A bank at reset. -/
def Bank.idle : Bank :=
  { rowBuf := RowImg.zero, work := RowImg.zero, queryLatch := 0, ops := [], segOps := 0, segRidge := 0, results := [],
    status := UnitStatus.zero, queue := [], running := none, owed := 0, refDue := 0, held := 0, heldAt := 0 }

/-- A stack's controller (R196 to R198, R416). -/
structure Stack where
  temp : Nat
  grant : Int
  charged : Nat
  history : List Nat
  throttled : Bool
  refFactor : Nat
  hot : Bool
  budget : Nat
  /-- The linger in force, in steps of 10 µs (R173, R205). -/
  linger : Nat
  /-- The ranks, by 2 × channel + rank, whose AP_ERR is set (R174, R176). -/
  apErr : List Nat
  /-- The next row of the patrol, by bank and row (R416). -/
  patrolRow : Nat
  lastTick : Nat
  deriving DecidableEq, Repr

/-- A stack at reset. -/
def Stack.idle : Stack :=
  { temp := 0, grant := 0, charged := 0, history := [], throttled := false, refFactor := 1, hot := false, budget := 560,
    linger := 5, apErr := [], patrolRow := 0, lastTick := 0 }

/-- CAIRN_CFG of a cirque (R205). -/
structure CairnCfg where
  budget : Nat
  actTh : Nat
  linger : Nat
  deriving DecidableEq, Repr

/-- An armed COMPOSITE's buffer, a scratch region, a lease region or a completion target: what a region handle names. -/
inductive RegionKind where
  | composite (slots slotSize cirque : Nat) (armed : Option Nat)
  | scratch (cirque : Nat) (groups : List Nat) (held : Bool)
  | lease
  | completion (cirque : Nat)
  | query
  deriving DecidableEq, Repr

/-- A region (R123, R200, R267, R324, R446): owner, handle, bytes that differ from 0 (canonical), rows of a scratch region
by bank and row, and its Loupe entry. -/
structure Region where
  ridge : Nat
  handle : Nat
  kind : RegionKind
  size : Nat
  mem : List Host.Cell
  /-- Rows of a scratch region that are not as creation filled them, by 1,024 × bank + region row (R200). -/
  rows : FMap RowImg
  /-- The write generation of a scratch region (R76, R202). -/
  wgen : Nat
  deriving DecidableEq, Repr

/-- A side-list entry (R220). -/
structure SideEnt where
  key : Nat
  tag : BitVec 64
  seq : Nat
  pos : Nat
  sketch : Nat
  n : W32
  vec : List Byte
  /-- The number of the entry among the cirque's side entries (R220). -/
  entry : Nat
  deriving DecidableEq, Repr

/-- A main-region item (R218, R219). -/
structure MainItem where
  key : Nat
  tag : BitVec 64
  seq : Nat
  sketch : Nat
  n : W32
  vec : List Byte
  deriving DecidableEq, Repr

/-- One cirque's part of an index (R217, R220, R222, R234). -/
structure IndexPart where
  side : List SideEnt
  stripes : FMap (List MainItem)
  tombs : List (Nat × Nat)
  /-- A running merge: its snapshot M and next stripe (R235). -/
  merge : Option (Nat × Nat)
  /-- A CTR_MERGE came while a merge ran: another follows it (R234). -/
  again : Bool
  /-- Side entries retired by a switch, with the admission order from which QUERYs do not read them (R235). -/
  retired : List (List Nat × Nat)
  /-- Stripe numbers whose physical stripe is not their own; the spare stripe, and what it still holds (R235). -/
  place : FMap Nat
  spare : Nat
  old : List MainItem
  deriving DecidableEq, Repr

/-- A Contour index (R213 to R216, R223). -/
structure Index where
  p : IndexParams
  gen : Nat
  commit : Nat
  whiteW : Nat
  whiteT : Nat
  /-- Its write generation (R76, R217). -/
  wgen : Nat
  parts : FMap IndexPart
  /-- Row groups taken in each cirque, and slots besides (R215). -/
  groups : FMap (List Nat)
  extra : FMap (List Nat)
  deriving DecidableEq, Repr

/-- Ring states (R382). -/
inductive RingState where
  | active
  | error
  | stopped
  deriving DecidableEq, Repr

/-- A command ring (R380 to R383, R405). -/
structure Ring where
  host : Bool
  entries : Nat
  sqAddr : Nat
  cqAddr : Nat
  vector : Nat
  coalCount : Nat
  coalUs : Nat
  cirque : Nat
  creator : Fn
  state : RingState
  sqHead : Nat
  sqTail : Nat
  cqTail : Nat
  cqHead : Nat
  phase : Nat
  /-- Spans fetched whole and not yet started, by their lengths. -/
  fetched : List Nat
  /-- Commands fetched and not yet completed (R381). -/
  outstanding : Nat
  /-- Completions written and not yet consumed (R381). -/
  unread : Nat
  /-- When the oldest completion that awaits an interrupt was written. -/
  coalSince : Option Nat
  coalPend : Nat
  /-- The connections whose COMMANDs stand in a network ring, in ring order (R64, R274). -/
  order : List Nat
  /-- A span waits for a request slot (R383). -/
  slotWait : Bool
  deriving DecidableEq, Repr

/-- Connection states (R268). -/
inductive CState where
  | declared
  | connecting
  | opened
  | failed
  deriving DecidableEq, Repr

/-- A packet the node has sent and not had acknowledged (R277, R278). -/
structure TxPkt where
  psn : Nat
  msn : Nat
  op : Nat
  offset : Nat
  first : Bool
  last : Bool
  region : Nat
  addr : Nat
  imm : Nat
  bytes : List Byte
  sentAt : Nat
  retx : Nat
  resentAt : Nat
  /-- CTX_RETRYs of this packet, and the instant the next resend is due (R281). -/
  tries : Nat
  retryAt : Option Nat
  deriving DecidableEq, Repr

/-- What a message the node sends belongs to (R280). -/
inductive MsgOwner where
  | none
  /-- The output of a request slot. -/
  | output (slot : Nat)
  /-- A READ_REQ for a request's query. -/
  | query (slot : Nat)
  /-- A completion entry written to the peer's target, with the request slot it holds. -/
  | completion (slot : Option Nat)
  /-- A mirrored command of the sequence of a handle, with its TAG and the request that waits under SYNC. -/
  | mirror (handle tag : Nat) (slot : Option Nat)
  | lease (ridge : Nat)
  deriving DecidableEq, Repr

/-- A message the node sends: owner, bytes, retries and the instant a retry is due (R277, R281). -/
structure TxMsg where
  msn : Nat
  op : Nat
  region : Nat
  addr : Nat
  imm : Nat
  bytes : List Byte
  owner : MsgOwner
  /-- BUSYs of this message, and the instant it is due again under new PSNs (R281). -/
  tries : Nat
  retryAt : Option Nat
  /-- Every packet is acknowledged (R277). A COMMAND stays listed until the peer's watermark passes it, since a BUSY may yet ask for it
  again (R281). -/
  done : Bool
  deriving DecidableEq, Repr

/-- Marks of the receive window (R273). -/
inductive RxMark where
  | placing
  | complete
  | refused
  | deferred
  deriving DecidableEq, Repr

/-- A message being received (R272, R273). -/
structure RxMsg where
  mark : RxMark
  op : Nat
  placed : Nat
  total : Option Nat
  region : Nat
  addr : Nat
  imm : Nat
  bytes : List (Nat × List Byte)
  /-- Its notification or admission has happened (R274). -/
  notified : Bool
  /-- The PSN and the entropy value of the packet that arrived last. -/
  psn : Nat
  ent : Nat
  deriving DecidableEq, Repr

/-- A Kalad connection and its context (R265 to R288). -/
structure Conn where
  ridge : Nat
  p : ConnParams
  state : CState
  crossRack : Bool
  peer : Nat
  peerConn : Nat
  peerE : Nat
  /-- The peer's base source port: that of its setup packets, whose PSN is 0 (R260, R266). -/
  peerBase : Nat
  seg : Nat
  connects : Nat
  connectAt : Nat
  target : Option (Nat × Nat × Nat)
  targetIdx : Nat
  /-- The handle of the node's own completion target (R267). -/
  own : Nat
  /-- The setup record the node sent last: its CONNECT, or the ACCEPT it repeats (R266). -/
  sent : Option SetupRec
  /-- The draw that gave the ephemeral keys of the handshake (R286). -/
  kemDraw : Nat
  -- sending
  txPsn : Nat
  txMsn : Nat
  initPsn : Nat
  initMsn : Nat
  unacked : List TxPkt
  msgs : List TxMsg
  waiting : List TxPkt
  cumAck : Nat
  /-- The highest completed-message watermark the peer has acknowledged: MSNs above it are unresolved (R273, R277). -/
  peerMark : Nat
  cwnd : Nat
  /-- alpha of R279 in units of 2^-20. -/
  alpha : Nat
  srtt : Nat
  rttvar : Nat
  backoff : Nat
  rttSamples : List (Nat × Nat)
  rtoAt : Option Nat
  ceAcked : Nat
  pktAcked : Nat
  ceSeen : Nat
  lastDec : Nat
  lastRound : Nat
  -- receiving
  rxCum : Nat
  rxBits : List Nat
  rxMsgs : FMap RxMsg
  watermark : Nat
  ceCount : Nat
  sinceAck : Nat
  oldestUnacked : Option Nat
  /-- The entropy value of that packet (R260). -/
  oldestEnt : Nat
  lastDupAck : Nat
  nackHold : FMap Nat
  nackSeen : List Nat
  -- commands
  /-- COMMAND messages notified and not yet started, oldest first: their bytes (R274). -/
  cmdQ : List (List Byte)
  cmdAdmitted : Nat
  /-- Mirrored commands sent and not yet completed by the buddy (R438, R439): TAG, opcode, handle, waiting request. -/
  mirOut : List (Nat × Nat × Nat × Option Nat)
  mirTag : Nat
  -- context cache
  onDie : Bool
  lru : Nat
  parked : List (Nat × KPkt)
  -- keys
  keyPhase : Bool
  txc : Nat
  rxPhase : Bool
  oldKeyAt : Option Nat
  keys : List Byte
  oldKeys : List Byte
  -- closing
  closingAt : Option Nat
  closer : Option Fn
  deriving DecidableEq, Repr

/-- A frame queued to a breakout (R306): its ridge, class and connection queue, bytes on the wire, and what it carries. -/
structure TxFrame where
  ridge : Nat
  cls : Nat
  queue : Nat
  bytes : Nat
  conn : Nat
  psn : Nat
  msn : Nat
  op : Nat
  plen : Nat
  /-- Retransmission ordinal (R260, R459). -/
  retx : Nat
  srcPort : Nat
  queuedAt : Nat
  /-- The frame from the destination MAC to the trailer, as R259 to R263 and R287 build it; empty for a frame whose bytes another
  standard gives (log entry 72). -/
  data : List Byte
  deriving DecidableEq, Repr

/-- A shaper (R309): slope in Mb/s, limit in bits, credit in thousandths of a bit. -/
structure Shaper where
  enabled : Bool
  idle : Nat
  hi : Nat
  credit : Int
  at_ : Nat
  /-- A change that waits for the end of a frame of the class (R310). -/
  pend : Option (Bool × Nat × Nat × Bool)
  deriving DecidableEq, Repr

/-- A cyclic list that governs a gate or a shutter: entries (mask or ridge, duration) and the instant of a cycle boundary. -/
structure CycList where
  entries : List (Nat × Nat)
  base : Nat
  deriving DecidableEq, Repr

/-- A running list and its pending successor with the takeover instant (R312). -/
structure Sched where
  run : CycList
  pend : Option (List (Nat × Nat) × Nat)
  deriving DecidableEq, Repr

/-- A breakout (R295, R296, R299, R306). -/
structure Breakout where
  mac : Nat
  link : Bool
  queue : List TxFrame
  busyTo : Nat
  sending : Option TxFrame
  /-- The round robin of R307: the queue whose turn it is by (ridge × 8 + class), and deficits by queue (log entry 24). -/
  turn : FMap Nat
  deficit : FMap Nat
  shapers : FMap Shaper
  gates : FMap Sched
  shutter : Sched
  /-- Receive errors of R423 counted toward the next 16. -/
  errs : Nat
  /-- The instant up to which idle time is accounted, and the last decision. -/
  idleAt : Nat
  decidedAt : Nat
  deriving DecidableEq, Repr

/-- A port (R295, R296). -/
structure Port where
  mode : Nat
  mtu : Nat
  deriving DecidableEq, Repr

/-- A Loupe entry (R321). -/
structure LEntry where
  valid : Bool
  crit : Bool
  prio : Nat
  table : LoupeTable
  key : Nat
  mask : Nat
  result : Nat
  deriving DecidableEq, Repr

/-- A Loupe bank and its shadow (R320, R334, R339). -/
structure LBank where
  owner : Nat
  width : Nat
  entries : FMap LEntry
  shadow : FMap LEntry
  deriving DecidableEq, Repr

/-- A connection map entry (R328). -/
structure CMap where
  ridge : Nat
  peer : Nat
  cls : Nat
  deriving DecidableEq, Repr

/-- Loupe (R320 to R339). -/
structure Loupe where
  banks : FMap LBank
  updDiv : Nat
  privBanks : Nat
  ofsDefault : Nat
  oflDefault : Nat
  cmap : FMap CMap
  /-- PEER values by ridge and address. -/
  peers : List (Nat × Nat × Nat)
  /-- CTR of accepted LOUPE_SET entries kept by firmware for rebuilds (R335): bank, index, entry. -/
  copies : List (Nat × Nat × LEntry)
  deriving DecidableEq, Repr

/-- A mailbox response (R374): tag, opcode, status, retry-after, reply words. -/
structure MReply where
  tag : Nat
  opcode : Nat
  status : MStatus
  retryUs : Nat
  vals : List Nat
  deriving DecidableEq, Repr

/-- A chunk series in progress (R375). -/
structure Series where
  opcode : Nat
  tag : Nat
  total : Nat
  next : Nat
  deriving DecidableEq, Repr

/-- A held attestation report (R363). -/
structure Report where
  tag : Nat
  bytes : List Byte
  until_ : Nat
  deriving DecidableEq, Repr

/-- What a function or the BMC mailbox holds (R372 to R376, R398, R403). -/
structure Func where
  session : Option Nat
  /-- The message in service: opcode and tag. STATE is BUSY while there is one. -/
  busy : Option (Nat × Nat)
  done : Bool
  overrun : Bool
  ready : Bool
  resp : Option MReply
  /-- Words of the request buffer that are not 0, by offset (R372). -/
  reqBuf : FMap Nat
  series : Option Series
  latch : FMap Nat
  cause : W32
  enable : W32
  firstRing : Option (Nat × Nat)
  /-- The words of the MSI-X table that the host has written (R399, R400), where they are not 0. -/
  msixTab : FMap Nat
  report : Option Report
  deriving DecidableEq, Repr

/-- A function at reset: no session, not ready. -/
def Func.fresh (ready : Bool) : Func :=
  { session := none, busy := none, done := false, overrun := false, ready := ready, resp := none, reqBuf := [], series := none,
    latch := [], cause := 0, enable := 0, firstRing := none, msixTab := [], report := none }

/-- Advisory levels (R424). -/
inductive Level where
  | normal
  | watch
  | drain
  | expel
  deriving DecidableEq, Repr

/-- A component's health: the accumulator in units of 2^-32 (log entry 12), level, and the last change (R423, R424). -/
structure Health where
  comp : Comp
  acc : Nat
  level : Level
  changedAt : Nat
  worseAt : Nat
  deriving DecidableEq, Repr

/-- HLT_CFG (R452). -/
structure HltCfg where
  halfLife : Nat
  watchTh : Nat
  drainTh : Nat
  expelTh : Nat
  hyst : Nat
  advMin : Nat
  quarCount : Nat
  deriving DecidableEq, Repr

/-- An armed injection (R433). -/
structure Inj where
  id : Nat
  target : InjTarget
  left : Nat
  expiry : Nat
  /-- An effect that comes at once has come. -/
  fired : Bool
  deriving DecidableEq, Repr

/-- Errors, health, injections, node drain (R415 to R436). -/
structure HealthSt where
  scores : List Health
  cfg : HltCfg
  advMinuteFrom : Nat
  advCount : Nat
  advHeld : List (Comp × Level × Level)
  lastDecay : Nat
  drain : Bool
  injs : List Inj
  nextInj : Nat
  /-- CHECK2 injections remembered (R435): id, page slot, granule. -/
  check2 : List (Nat × Nat × Nat)
  waits : List WaitRec
  nextWait : Nat
  waitSecond : Nat
  waitInSecond : Nat
  deriving DecidableEq, Repr

/-- A filmstrip record (R458): stamp, type, source, ridge, body words. -/
structure FlmRec where
  stamp : Nat
  type : Nat
  src : Comp
  ridge : Nat
  body : List Nat
  deriving DecidableEq, Repr

/-- Filmstrip, event selectors and global stop (R456 to R473). -/
structure TraceSt where
  mode : FlmMode
  sel : RecSel
  buf : List FlmRec
  frmSeq : Nat
  loss : Bool
  lostNow : Nat
  lostFirst : Nat
  portUp : Bool
  /-- Selectors that differ from reset's: cirque (16 for global), counter, event, mode. -/
  evsel : List (Nat × Nat × Nat × EvMode)
  armed : Option (Nat × Nat)
  held : Bool
  written : Bool
  holdMaxS : Nat
  cutAt : Nat
  relAt : Nat
  /-- BAR writes held at the cut (R468): function, offset, size, value. -/
  heldWrites : List (Fn × Nat × Nat × Nat)
  lastSync : Nat
  /-- MSI-X messages that wait for the release of a cut (R468): function key and vector. -/
  heldMsix : List (Nat × Nat)
  deriving DecidableEq, Repr

/-- Power state machine (R475 to R485, R493). -/
inductive Transit where
  | none
  | entering
  | exiting
  deriving DecidableEq, Repr

structure PowerSt where
  state : Nat
  transit : Transit
  target : Nat
  waiter : Option Fn
  wake : Option (Nat × Nat × Nat × Nat)
  writes : List (Fn × Nat × Nat × Nat)
  lastSource : Nat
  lastBreakout : Nat
  lastFn : Nat
  replayed : Bool
  fromState : Nat
  wakeAt : Nat
  a0At : Nat
  exitAt : Nat
  since : Nat
  lastReset : Nat
  /-- A warm reset runs since this instant (R488). -/
  warmAt : Option Nat
  /-- Mailbox messages submitted outside A0 and A1, answered after exit (R393, R484), oldest first. -/
  msgs : List (Fn × Instr)
  deriving DecidableEq, Repr

/-- Test strip (R490 to R494). -/
structure StripSt where
  state : Nat
  pass : Bool
  logic : Nat
  mem : Nat
  analog : Nat
  doneAt : Nat
  waiter : Option Fn
  run : Option StripRun
  deriving DecidableEq, Repr

/-- Sensors, supplies, clocks, throttle (R167, R500 to R508). -/
structure SensorSt where
  dieMax : Nat
  stackMax : Nat
  substrate : Nat
  power : Nat
  targetMv : Nat
  measMv : Nat
  failCnt : Nat
  brownout : Bool
  supply : Nat
  tripped : Bool
  lost : List Clock
  issueK : Nat
  /-- The lowest issue level in force since the present exposure opened (R352). -/
  lowK : Nat
  /-- The opening instant of the last exposure whose boundary was served: each is served once (R146, R352). -/
  boundaryAt : Option Nat
  /-- The last AVSBus write was acknowledged (R501). -/
  avsOk : Bool
  deriving DecidableEq, Repr

/-- A staged image (R365): version and measurement. -/
structure Staged where
  svn : Nat
  meas : BitVec 384
  deriving DecidableEq, Repr

/-- The limits of the package (R506). -/
def ThermLimits.package : ThermLimits := { die := 95, power := 3200, dieTrip := 110, stackTrip := 105 }

/-- Identity, boot and firmware (R356 to R366). -/
structure BootSt where
  recovery : Bool
  identity : Bool
  /-- The draw of the TRNG that gave BOOT_NONCE at cold reset (R363). -/
  bootNonce : Nat
  svn : Nat
  meas : BitVec 384
  cfgMeas : BitVec 384
  floor : Nat
  /-- The signatures of the floor record failed (R361). -/
  floorBad : Bool
  /-- The active slot: false is A. -/
  activeB : Bool
  staged : Option Staged
  owner : Option (List Byte)
  ownerNext : Option (List Byte)
  scratchAllow : Bool
  injectAllow : Bool
  straps : BitVec 8
  /-- A firmware activation: its instant, and the function that asked. -/
  activation : Option (Nat × Fn)
  trngBad : Bool
  /-- The draw that gave the node key (R349). -/
  nodeKey : Nat
  /-- The thermal limits in force (R506). -/
  limits : ThermLimits
  /-- The configuration blob's signatures verified at the last boot (R358). -/
  blobOk : Bool
  deriving DecidableEq, Repr

/-- What leaves the node: the log of everything it has put on an interface, oldest first (log entry 2). -/
inductive Out where
  | mbox (fn : Fn) (r : MReply)
  | msix (fn : Fn) (vector : Nat)
  /-- A completion entry (R388) written to a host completion queue at an address. -/
  | completion (fn : Fn) (addr : Nat) (tag opcode : Nat) (status : Status) (sqHead phase exposure flags time r0 r1 errRef : Nat)
  /-- A PCIe write of output (R113, R463): kind and bytes. -/
  | hostWrite (fn : Fn) (addr : Nat) (bytes : List Byte)
  /-- A PCIe read the node issues (R370). -/
  | hostRead (fn : Fn) (addr len : Nat)
  /-- A frame started on the wire at an instant: its length there, its ridge, connection and PSN, and its bytes (R5, R259). -/
  | frame (breakout at_ bytes ridge conn psn : Nat) (data : List Byte)
  | arpReply (breakout addr : Nat)
  | pps (at_ : Nat)
  | readData (fn : Fn) (offset : Nat) (value : Nat)
  /-- A frame of the trace port (R462). -/
  | trace (frame : List Byte)
  | thermtripN
  /-- An AVSBus write to a rail (R501). -/
  | avs (rail mv : Nat)
  deriving DecidableEq, Repr

/-- The whole state of the node. -/
structure State where
  pending : List Instr
  time : TimeSt
  fab : FabricSt
  ridges : FMap Ridge
  /-- Function key: 0 PF, r VF r, 17 BMC. -/
  funcs : FMap Func
  numVfs : Nat
  vfEnable : Bool
  rings : FMap Ring
  seqs : FMap SeqD
  /-- The generation a descriptor issues next (R52), where it is not 1. -/
  gens : FMap Nat
  pages : FMap Page
  /-- Write generations of slots (R76), where they are not 0. -/
  wgens : FMap Nat
  frames : FMap Frame
  hands : FMap Nat
  reqs : FMap Request
  nextOrder : Nat
  cirques : FMap Cirque
  groups : FMap Group
  banks : FMap Bank
  dramStacks : FMap Stack
  cairnCfg : FMap CairnCfg
  regions : FMap Region
  indexes : FMap Index
  /-- Index generations by (ridge × 16 + number) (R215). -/
  indexGens : FMap Nat
  conns : FMap Conn
  kldCfg : W32
  kldRidge : FMap W32
  ports : FMap Port
  brks : FMap Breakout
  /-- DSCP, 802.1Q priority and VLAN of (ridge × 8 + class) (R306). -/
  classCfg : FMap (Nat × Nat × Nat)
  /-- Ingress bytes held by ridge (R298). -/
  ingress : FMap Nat
  loupe : Loupe
  health : HealthSt
  trace : TraceSt
  power : PowerSt
  strip : StripSt
  sns : SensorSt
  boot : BootSt
  ctrs : List (Ctr × Nat)
  /-- Draws made of the TRNG and of the free values: the argument of the next one. -/
  draws : Nat
  out : List Out
  deriving DecidableEq, Repr

/-- The gate list after cold reset (R311). -/
def CycList.openGate : CycList := { entries := [(0xFF, 1000000)], base := 0 }

/-- The shutter schedule after cold reset (R314). -/
def CycList.ridge0 : CycList := { entries := [(0, 1000000)], base := 0 }

/-- A breakout after cold reset. -/
def Breakout.reset (mac : Nat) : Breakout :=
  { mac := mac, link := false, queue := [], busyTo := 0, sending := none, turn := [], deficit := [], shapers := [], gates := [],
    shutter := { run := CycList.ridge0, pend := none }, errs := 0, idleAt := 0,
    decidedAt := 0 }

/-- The numbers below n, each with a value. -/
def FMap.tabulate {α : Type} (n : Nat) (f : Nat → α) : FMap α := (List.range n).map (fun i => (i, f i))

/-- The node right after cold reset, with firmware serving the PF and BMC mailboxes (R489, log entry 9). -/
def State.reset : State :=
  { pending := []
    time := { now := 0, st := .unset, lockCnt := 0, faultCnt := 0, offset := 0, synced := false, lastSync := 0,
              syncInt := 1000000000, rate := 0, servo := 0, holdFrom := 0, holdRecs := 0, stepThUs := 100, heard := [], master := none, delay := 0,
              ppsPhase := false, lastPps := 0, ppsChanges := 0, lastPpsOut := 0, left := 0 }
    fab := { cur := none, pend := none, prevEpoch := none, drainAt := 0, drainUs := 20000 }
    ridges := FMap.tabulate 17 (fun r => Ridge.fresh (if r = 0 then .opened else .absent))
    funcs := FMap.tabulate 18 (fun k => Func.fresh (k = 0 || k = 17))
    numVfs := 0
    vfEnable := false
    rings := []
    seqs := []
    gens := []
    pages := []
    wgens := []
    frames := []
    hands := []
    reqs := []
    nextOrder := 0
    cirques := FMap.tabulate 16 (fun _ => Cirque.idle)
    groups := []
    banks := []
    dramStacks := FMap.tabulate 32 (fun _ => Stack.idle)
    cairnCfg := FMap.tabulate 16 (fun _ => { budget := 560, actTh := 280, linger := 5 })
    regions := []
    indexes := []
    indexGens := []
    conns := []
    kldCfg := 0x04740110#32
    kldRidge := FMap.tabulate 17 (fun _ => 0x00080064#32)
    ports := FMap.tabulate 2 (fun _ => { mode := 0, mtu := 9000 })
    brks := FMap.tabulate 8 (fun _ => Breakout.reset 0)
    classCfg := []
    ingress := []
    loupe := { banks := FMap.tabulate 16 (fun _ => { owner := 31, width := 2, entries := [], shadow := [] }), updDiv := 8,
               privBanks := 0, ofsDefault := 0, oflDefault := 0, cmap := [], peers := [], copies := [] }
    health := { scores := []
                cfg := { halfLife := 60, watchTh := 800, drainTh := 500, expelTh := 200, hyst := 100, advMin := 10,
                         quarCount := 3 }
                advMinuteFrom := 0, advCount := 0, advHeld := [], lastDecay := 0,
                drain := false, injs := [], nextInj := 0, check2 := [], waits := [], nextWait := 1, waitSecond := 0,
                waitInSecond := 0 }
    trace := { mode := .off, sel := { types := 0x11C32, ridges := 0x1FFFF, cirques := 0xFFFF, k := 10 }, buf := [],
               frmSeq := 0, loss := false, lostNow := 0, lostFirst := 0, portUp := false, evsel := [], armed := none,
               held := false, written := false, holdMaxS := 10, cutAt := 0, relAt := 0, heldWrites := [], lastSync := 0,
               heldMsix := [] }
    power := { state := 0, transit := .none, target := 0, waiter := none, wake := none, writes := [], lastSource := 0,
               lastBreakout := 0, lastFn := 0, replayed := false, fromState := 0, wakeAt := 0, a0At := 0, exitAt := 0,
               since := 0, lastReset := 0, warmAt := none, msgs := [] }
    strip := { state := 0, pass := false, logic := 0, mem := 0, analog := 0, doneAt := 0, waiter := none, run := none }
    sns := { dieMax := 0, stackMax := 0, substrate := 0, power := 0, targetMv := 750, measMv := 0, failCnt := 0,
             brownout := false, supply := 0, tripped := false, lost := [], issueK := 16, lowK := 16, boundaryAt := none, avsOk := true }
    boot := { recovery := false, identity := true, bootNonce := 0, svn := 0, meas := 0, cfgMeas := 0,
              floor := 0, floorBad := false, activeB := false, staged := none, owner := none, ownerNext := none, scratchAllow := true,
              injectAllow := true, straps := 0, activation := none, trngBad := false, nodeKey := 1,
              limits := ThermLimits.package, blobOk := true }
    ctrs := []
    draws := 2
    out := [] }

end Sys2Proof.Machine
end

