-- ==== Sys2Proof/Machine/Flags.lean ====
section
/-! DEFINITION. The codes the spec gives its statuses, causes, components, levels and flags, and the proof and interrupt flag bits. -/

namespace Sys2Proof.Machine

open Sys2Proof

/-- Command status codes (R389). -/
def Status.code (s : Status) : Nat :=
  match s with
  | .ok => 0x00 | .malformed => 0x01 | .ridgeMismatch => 0x02 | .staleEpoch => 0x03 | .badHandle => 0x04
  | .stateConflict => 0x05 | .badShape => 0x06 | .badLength => 0x07 | .badParam => 0x08 | .noSeq => 0x09
  | .noPages => 0x0A | .limit => 0x0B | .normLimit => 0x0C | .sideFull => 0x0D | .queryFault => 0x10
  | .nonfinite => 0x11 | .uncorrectable => 0x12 | .outFault => 0x13 | .discarded => 0x14 | .partial_ => 0x15
  | .incomplete => 0x16 | .contribConflict => 0x17 | .hwFault => 0x18

/-- The status a code names; reserved values name none (R389). -/
def Status.ofCode (n : Nat) : Option Status :=
  match n with
  | 0x00 => some .ok | 0x01 => some .malformed | 0x02 => some .ridgeMismatch | 0x03 => some .staleEpoch
  | 0x04 => some .badHandle | 0x05 => some .stateConflict | 0x06 => some .badShape | 0x07 => some .badLength
  | 0x08 => some .badParam | 0x09 => some .noSeq | 0x0A => some .noPages | 0x0B => some .limit
  | 0x0C => some .normLimit | 0x0D => some .sideFull | 0x10 => some .queryFault | 0x11 => some .nonfinite
  | 0x12 => some .uncorrectable | 0x13 => some .outFault | 0x14 => some .discarded | 0x15 => some .partial_
  | 0x16 => some .incomplete | 0x17 => some .contribConflict | 0x18 => some .hwFault
  | _ => none

/-- Mailbox status codes (R377). -/
def MStatus.code (s : MStatus) : Nat :=
  match s with
  | .ok => 0 | .malformed => 1 | .unsupported => 2 | .invalidArg => 3 | .accessDenied => 4 | .noSpace => 5
  | .busy => 6 | .stateConflict => 7 | .hwFault => 8 | .conditions => 9 | .noHello => 10 | .noPages => 11

/-- Kalad NACK codes (R281). -/
def NackCode.code (c : NackCode) : Nat :=
  match c with
  | .ctxRetry => 1 | .busy => 2 | .staleEpoch => 3 | .badRegion => 4 | .ridgeMismatch => 5 | .malformed => 6
  | .length => 7 | .seq => 8

/-- The NACK a code names (R281). -/
def NackCode.ofCode (n : Nat) : Option NackCode :=
  match n with
  | 1 => some .ctxRetry | 2 => some .busy | 3 => some .staleEpoch | 4 => some .badRegion | 5 => some .ridgeMismatch
  | 6 => some .malformed | 7 => some .length | 8 => some .seq | _ => none

/-- Error cause codes (R421). -/
def Cause.code (c : Cause) : Nat :=
  match c with
  | .uncorr => 1 | .misplaced => 2 | .codec => 3 | .codecSrc => 4 | .nonfinite => 5 | .shadow => 6 | .queryFault => 7
  | .outFault => 8 | .ringError => 9 | .connFail => 10 | .contrib => 11 | .loupe => 12 | .link => 13 | .key => 14
  | .trng => 15 | .fw => 16 | .time => 17 | .protocol => 18 | .watchdog => 19 | .mirror => 20 | .lease => 21
  | .advisory => 22

/-- COMP_KIND (R420). -/
def Comp.kind (c : Comp) : Nat :=
  match c with
  | .none => 0 | .cell _ => 1 | .cirque _ => 2 | .stack _ => 3 | .slice _ => 4 | .lane _ => 5 | .ioRing => 6
  | .security => 7 | .aon => 8 | .pcie => 9

/-- COMP_ID (R420): cell 75c + e; cirque, stack, slice or lane number; 0 otherwise. -/
def Comp.id (c : Comp) : Nat :=
  match c with
  | .cell n => n | .cirque n => n | .stack n => n | .slice n => n | .lane n => n
  | .none => 0 | .ioRing => 0 | .security => 0 | .aon => 0 | .pcie => 0

/-- The cirque a component belongs to (R14), if it belongs to one. -/
def Comp.cirqueOf (c : Comp) : Option Nat :=
  match c with
  | .cell n => some (n / 75) | .cirque n => some n | .stack n => some (n / 2) | .slice n => some n
  | .none => Option.none | .lane _ => Option.none | .ioRing => Option.none | .security => Option.none | .aon => Option.none | .pcie => Option.none

/-- STATE of NT_STATUS (R317). -/
def TState.code (t : TState) : Nat :=
  match t with
  | .unset => 0 | .acquiring => 1 | .locked => 2 | .holdover => 3 | .fault => 4

/-- STATE of R363. -/
def RState.code (r : RState) : Nat :=
  match r with
  | .absent => 0 | .opening => 1 | .opened => 2 | .draining => 3 | .closing => 4

/-- Advisory levels in the order NORMAL, WATCH, DRAIN, EXPEL (R424). -/
def Level.code (l : Level) : Nat :=
  match l with
  | .normal => 0 | .watch => 1 | .drain => 2 | .expel => 3

/-- One bit of a flag word. -/
def flagBit (b : Bool) (i : Nat) : Nat := if b then 2 ^ i else 0

/-- The interrupt cause bits of R403. -/
def causeMboxDone : Nat := 0
def causeRingError : Nat := 1
def causeRidgeState : Nat := 2
def causeAdvisory : Nat := 3
def causeConnFail : Nat := 4
def causeErrRecord : Nat := 5
def causeTempo : Nat := 6
def causeSchedule : Nat := 7
def causeTime : Nat := 8
def causeFw : Nat := 9
def causeStop : Nat := 10
def causeWatchdog : Nat := 11
def causeLink : Nat := 12

/-- The defined bits of INT_CAUSE: 13 on the PF, bits 0 to 7 in a VF window (R403). -/
def causeMask (k : Nat) : Nat := if k = 0 then 0x1FFF else 0xFF

end Sys2Proof.Machine
end

