-- ==== Sys2Proof/Machine/Operands.lean ====
section
/-! DEFINITION. Operand forms: the fields of command descriptors (R91, R125, R201, R202, R221, R222, R225, R234, R387, R443),
the format block (R31), and byte lists.
Log entries 8. -/

namespace Sys2Proof

/-- A field of a descriptor: the byte offset, lowest bit and width of its table row. -/
def Desc.fld (d : Desc) (off lo w : Nat) : Nat := (d.toNat >>> (8 * off + lo)) % 2 ^ w

/-- The mask of a list of fields, each an offset in bytes, a lowest bit and a width. -/
def layoutMask (l : List (Nat × Nat × Nat)) : Nat :=
  l.foldl (fun m f => m ||| ((2 ^ f.2.2 - 1) <<< (8 * f.1 + f.2.1))) 0

/-- Every bit outside the layout is 0 (R10). -/
def Desc.reservedOk (d : Desc) (l : List (Nat × Nat × Nat)) : Bool := d.toNat &&& layoutMask l == d.toNat

/-- The common command header (R91). -/
def hdrLayout : List (Nat × Nat × Nat) :=
  [(0, 0, 8), (0, 8, 5), (0, 13, 2), (0, 16, 16), (4, 0, 16), (8, 0, 44), (8, 44, 1), (8, 46, 18)]

/-- The output block of R387. -/
def outLayout : List (Nat × Nat × Nat) := [(0x38, 0, 32), (0x3C, 0, 24), (0x40, 0, 64), (0x48, 0, 32), (0x4C, 0, 2)]

def openLayout : List (Nat × Nat × Nat) :=
  hdrLayout ++ [(0x10, 0, 24), (0x10, 28, 4), (0x18, 0, 64), (0x20, 0, 32), (0x24, 0, 32), (0x28, 0, 8), (0x28, 8, 9), (0x2C, 0, 32), (0x30, 0, 25), (0x34, 0, 11),
    (0x38, 0, 40)]

def appendLayout : List (Nat × Nat × Nat) :=
  hdrLayout ++ [(0x10, 0, 32), (0x14, 0, 8), (0x14, 8, 13), (0x14, 21, 2), (0x18, 0, 40), (0x20, 0, 32), (0x24, 0, 24),
    (0x28, 0, 64)]

def handleLayout : List (Nat × Nat × Nat) := hdrLayout ++ [(0x10, 0, 32)]

def forkLayout : List (Nat × Nat × Nat) := hdrLayout ++ [(0x10, 0, 32), (0x18, 0, 40)]

def ingestLayout : List (Nat × Nat × Nat) :=
  hdrLayout ++ [(0x10, 0, 32), (0x14, 0, 8), (0x14, 8, 7), (0x14, 15, 2), (0x18, 0, 32), (0x1C, 0, 24), (0x20, 0, 64)]

def readLayout : List (Nat × Nat × Nat) :=
  hdrLayout ++ [(0x10, 0, 32), (0x14, 0, 8), (0x14, 8, 1), (0x18, 0, 24), (0x1C, 0, 7)] ++ outLayout

def prefetchLayout : List (Nat × Nat × Nat) :=
  hdrLayout ++ [(0x10, 0, 32), (0x14, 0, 8), (0x14, 8, 1), (0x14, 9, 1), (0x14, 10, 4), (0x18, 0, 40), (0x20, 0, 40)]

def gradSendLayout : List (Nat × Nat × Nat) :=
  hdrLayout ++ [(0x10, 0, 32), (0x14, 0, 8), (0x14, 8, 1), (0x14, 9, 1), (0x18, 0, 40), (0x20, 0, 40)] ++ outLayout

def gradClearLayout : List (Nat × Nat × Nat) :=
  hdrLayout ++ [(0x10, 0, 32), (0x14, 0, 8), (0x14, 10, 1), (0x18, 0, 40), (0x20, 0, 40)]

def developLayout : List (Nat × Nat × Nat) :=
  hdrLayout ++ [(0x10, 0, 32), (0x14, 0, 28), (0x18, 0, 40), (0x20, 0, 40), (0x28, 0, 40), (0x30, 0, 17), (0x34, 0, 24),
    (0x38, 0, 11), (0x38, 16, 16), (0x3C, 0, 12), (0x40, 0, 32), (0x44, 0, 32), (0x48, 0, 32), (0x4C, 0, 24), (0x50, 0, 64),
    (0x58, 0, 32), (0x5C, 0, 24), (0x60, 0, 64), (0x68, 0, 32), (0x6C, 0, 32), (0x70, 0, 32), (0x74, 0, 32), (0x78, 0, 32)]

def compositeLayout : List (Nat × Nat × Nat) :=
  hdrLayout ++ [(0x10, 0, 32), (0x14, 0, 14), (0x18, 0, 32), (0x1C, 0, 14), (0x20, 0, 32), (0x24, 0, 24), (0x28, 0, 64),
    (0x30, 0, 32)]

def queryLayout : List (Nat × Nat × Nat) :=
  hdrLayout ++ [(0x10, 0, 32), (0x14, 0, 26), (0x18, 0, 64), (0x20, 0, 64), (0x28, 0, 32), (0x2C, 0, 24), (0x30, 0, 64),
    (0x38, 0, 32), (0x3C, 0, 24), (0x40, 0, 64), (0x48, 0, 32)]

def insertLayout : List (Nat × Nat × Nat) :=
  hdrLayout ++ [(0x10, 0, 32), (0x14, 0, 10), (0x14, 22, 2), (0x28, 0, 32), (0x2C, 0, 24), (0x30, 0, 64)]

def cairnLayout : List (Nat × Nat × Nat) :=
  hdrLayout ++ [(0x10, 0, 32), (0x14, 0, 13), (0x18, 0, 16), (0x18, 16, 16), (0x1C, 0, 19), (0x20, 0, 15), (0x24, 0, 21),
    (0x28, 0, 64), (0x30, 0, 64)] ++ outLayout

def holdLayout : List (Nat × Nat × Nat) := hdrLayout ++ [(0x10, 0, 32), (0x14, 0, 1)]

-- The common header (R91).
def Desc.opcode (d : Desc) : Nat := d.fld 0 0 8
def Desc.ridge (d : Desc) : Nat := d.fld 0 8 5
def Desc.prio (d : Desc) : Nat := d.fld 0 13 2
def Desc.tag (d : Desc) : Nat := d.fld 0 16 16
def Desc.mapEpoch (d : Desc) : Nat := d.fld 4 0 16
def Desc.exposure (d : Desc) : Nat := d.fld 8 0 44
def Desc.lateDiscard (d : Desc) : Bool := d.fld 8 44 1 == 1
def Desc.deadlineUs (d : Desc) : Nat := d.fld 8 46 18

/-- An EXPOSURE of 0xFFF_FFFF_FFFF marks the command untagged (R385). -/
def Desc.tagged (d : Desc) : Bool := d.exposure != 0xFFFFFFFFFFF

/-- Where a command's output goes: OUT, OUT_REGION, OUT_CONN, OUT_ADDR and OUT_IMM, whatever its layout. -/
structure OutBlock where
  out : Nat
  region : Nat
  conn : Nat
  addr : Nat
  imm : Nat
  deriving DecidableEq, Repr

/-- The output block of R387, R202, and (with OUT in 0x14 [25:24]) of R225. -/
def Desc.outBlock (d : Desc) : OutBlock :=
  { out := if d.opcode == 0x28 then d.fld 0x14 24 2 else d.fld 0x4C 0 2, region := d.fld 0x38 0 32, conn := d.fld 0x3C 0 24,
    addr := d.fld 0x40 0 64, imm := d.fld 0x48 0 32 }

/-- The output fields of R91. -/
def Desc.outDevelop (d : Desc) : OutBlock :=
  { out := d.fld 0x30 14 2, region := d.fld 0x58 0 32, conn := d.fld 0x5C 0 24, addr := d.fld 0x60 0 64,
    imm := d.fld 0x68 0 32 }

/-- The output fields of R125. -/
def Desc.outComposite (d : Desc) : OutBlock :=
  { out := d.fld 0x14 12 2, region := d.fld 0x20 0 32, conn := d.fld 0x24 0 24, addr := d.fld 0x28 0 64,
    imm := d.fld 0x30 0 32 }

/-- The output of a descriptor by its opcode. -/
def Desc.outOf (d : Desc) : OutBlock :=
  if d.opcode == 0x20 || d.opcode == 0x21 then d.outDevelop
  else if d.opcode == 0x22 then d.outComposite
  else d.outBlock

/-- Where a command's input lies: QSRC (or SRC), Q_REGION, Q_CONN and Q_ADDR, whatever its layout. -/
structure SrcBlock where
  qsrc : Nat
  region : Nat
  conn : Nat
  addr : Nat
  deriving DecidableEq, Repr

/-- The source of a descriptor by its opcode (R91, R225, R387, R443). -/
def Desc.srcOf (d : Desc) : SrcBlock :=
  if d.opcode == 0x20 || d.opcode == 0x21 then
    { qsrc := d.fld 0x30 12 2, region := d.fld 0x48 0 32, conn := d.fld 0x4C 0 24, addr := d.fld 0x50 0 64 }
  else if d.opcode == 0x02 then
    { qsrc := d.fld 0x14 21 2, region := d.fld 0x20 0 32, conn := d.fld 0x24 0 24, addr := d.fld 0x28 0 64 }
  else if d.opcode == 0x06 then
    { qsrc := d.fld 0x14 15 2, region := d.fld 0x18 0 32, conn := d.fld 0x1C 0 24, addr := d.fld 0x20 0 64 }
  else
    { qsrc := d.fld 0x14 22 2, region := d.fld 0x28 0 32, conn := d.fld 0x2C 0 24, addr := d.fld 0x30 0 64 }

-- DEVELOP and REVERSE (R91, R130).
def Desc.handle (d : Desc) : Nat := d.fld 0x10 0 32
def Desc.layer (d : Desc) : Nat := d.fld 0x14 0 8
def Desc.kvFirst (d : Desc) : Nat := d.fld 0x14 8 4
def Desc.kvCount (d : Desc) : Nat := d.fld 0x14 12 4 + 1
def Desc.g (d : Desc) : Nat := d.fld 0x14 16 6 + 1
def Desc.nq (d : Desc) : Nat := d.fld 0x14 22 6 + 1
def Desc.qpos (d : Desc) : Nat := d.fld 0x18 0 40
def Desc.posLo (d : Desc) : Nat := d.fld 0x20 0 40
def Desc.posHi (d : Desc) : Nat := d.fld 0x28 0 40
def Desc.causal (d : Desc) : Bool := d.fld 0x30 0 1 == 1
def Desc.windowEn (d : Desc) : Bool := d.fld 0x30 1 1 == 1
def Desc.sinksEn (d : Desc) : Bool := d.fld 0x30 2 1 == 1
def Desc.alibi (d : Desc) : Bool := d.fld 0x30 3 1 == 1
def Desc.softcapEn (d : Desc) : Bool := d.fld 0x30 4 1 == 1
def Desc.qfmt (d : Desc) : Nat := d.fld 0x30 5 2
def Desc.proofFmt (d : Desc) : Bool := d.fld 0x30 7 1 == 1
def Desc.sel (d : Desc) : Nat := d.fld 0x30 8 2
def Desc.mprogEn (d : Desc) : Bool := d.fld 0x30 10 1 == 1
def Desc.fillFrame (d : Desc) : Bool := d.fld 0x30 11 1 == 1
def Desc.shadow (d : Desc) : Bool := d.fld 0x30 16 1 == 1
def Desc.windowW (d : Desc) : Nat := d.fld 0x34 0 24
def Desc.sinkN (d : Desc) : Nat := d.fld 0x38 0 11
def Desc.topn (d : Desc) : Nat := d.fld 0x38 16 16
def Desc.forceRecent (d : Desc) : Nat := d.fld 0x3C 0 8
def Desc.mprogSlot (d : Desc) : Nat := d.fld 0x3C 8 4
def Desc.scale (d : Desc) : W32 := BitVec.ofNat 32 (d.fld 0x40 0 32)
def Desc.softcap (d : Desc) : W32 := BitVec.ofNat 32 (d.fld 0x44 0 32)
def Desc.param (d : Desc) (i : Nat) : W32 := BitVec.ofNat 32 (d.fld (0x6C + 4 * i) 0 32)

/-- The pairs of a request: NQ × KV_COUNT × G, ordered by query token and then by query head (R91, R113). -/
def Desc.pairs (d : Desc) : Nat := d.nq * (d.kvCount * d.g)

/-- Query token, query head and KV head of a pair by its number. -/
def Desc.pairToken (d : Desc) (p : Nat) : Nat := p / (d.kvCount * d.g)
def Desc.pairHead (d : Desc) (p : Nat) : Nat := d.kvFirst * d.g + p % (d.kvCount * d.g)
def Desc.pairKv (d : Desc) (p : Nat) : Nat := d.pairHead p / d.g

-- COMPOSITE (R125).
def Desc.expect (d : Desc) : Nat := d.fld 0x14 0 9 + 1
def Desc.missingDiscard (d : Desc) : Bool := d.fld 0x14 9 1 == 1
def Desc.cKind (d : Desc) : Nat := d.fld 0x14 10 1
def Desc.cFmt (d : Desc) : Bool := d.fld 0x14 11 1 == 1
def Desc.matchImm (d : Desc) : Nat := d.fld 0x18 0 32
def Desc.cD (d : Desc) : Nat := 16 * (d.fld 0x1C 0 4 + 1)
def Desc.cPairs (d : Desc) : Nat := d.fld 0x1C 4 10 + 1

-- Page commands (R387, R443).
def Desc.count (d : Desc) : Nat := d.fld 0x14 8 13
def Desc.firstPos (d : Desc) : Nat := d.fld 0x18 0 40
def Desc.forkPos (d : Desc) : Nat := d.fld 0x18 0 40
def Desc.readGrad (d : Desc) : Bool := d.fld 0x14 8 1 == 1
def Desc.pageNo (d : Desc) : Nat := d.fld 0x18 0 24
def Desc.pagesM1 (d : Desc) : Nat := d.fld 0x1C 0 7
def Desc.pin (d : Desc) : Bool := d.fld 0x14 8 1 == 1
def Desc.toK (d : Desc) : Bool := d.fld 0x14 9 1 == 1
def Desc.targetK (d : Desc) : Nat := d.fld 0x14 10 4
def Desc.rangeLo (d : Desc) : Nat := d.fld 0x18 0 40
def Desc.rangeHi (d : Desc) : Nat := d.fld 0x20 0 40
def Desc.gClear (d : Desc) : Bool := d.fld 0x14 8 1 == 1
def Desc.unrot (d : Desc) : Bool := d.fld 0x14 9 1 == 1
def Desc.gFree (d : Desc) : Bool := d.fld 0x14 10 1 == 1
def Desc.imagesM1 (d : Desc) : Nat := d.fld 0x14 8 7

-- Index commands (R221, R222, R225, R234).
def Desc.index (d : Desc) : Nat := d.fld 0x10 0 32
def Desc.k (d : Desc) : Nat := d.fld 0x14 0 10 + 1
def Desc.os (d : Desc) : Nat := d.fld 0x14 10 6 + 1
def Desc.widen (d : Desc) : Nat := d.fld 0x14 16 3
def Desc.filterEn (d : Desc) : Bool := d.fld 0x14 19 1 == 1
def Desc.predInv (d : Desc) : Bool := d.fld 0x14 20 1 == 1
def Desc.qInt8 (d : Desc) : Bool := d.fld 0x14 21 1 == 1
def Desc.pmask (d : Desc) : BitVec 64 := BitVec.ofNat 64 (d.fld 0x18 0 64)
def Desc.pval (d : Desc) : BitVec 64 := BitVec.ofNat 64 (d.fld 0x20 0 64)

/-- The descriptor byte at an offset. -/
def Desc.byte (d : Desc) (i : Nat) : Byte := BitVec.ofNat 8 (d.fld i 0 8)

/-- The 128 bytes of a descriptor (R5). -/
def Desc.bytes (d : Desc) : List Byte := (List.range 128).map d.byte

/-- A descriptor from its bytes. -/
def Desc.ofBytes (bs : List Byte) : Desc :=
  BitVec.ofNat 1024 (bs.reverse.foldl (fun n b => n * 256 + b.toNat) 0)

/-- A number from little-endian bytes (R5). -/
def leNat (bs : List Byte) : Nat := bs.reverse.foldl (fun n b => n * 256 + b.toNat) 0

/-- The n little-endian bytes of a number (R5). -/
def leBytes (n v : Nat) : List Byte := (List.range n).map (fun i => BitVec.ofNat 8 (v >>> (8 * i)))

/-- The n big-endian bytes of a number (R5). -/
def beBytes (n v : Nat) : List Byte := (leBytes n v).reverse

/-- `n` bytes from an offset, 0 where the list has ended. -/
def sliceBytes (bs : List Byte) (off n : Nat) : List Byte :=
  let cut := (bs.drop off).take n
  cut ++ List.replicate (n - cut.length) 0#8

/-- Put bytes over a byte list at an offset. -/
def putBytes (bs : List Byte) (off : Nat) (new : List Byte) : List Byte :=
  sliceBytes bs 0 off ++ new ++ bs.drop (off + new.length)

/-- A little-endian field of n bytes at an offset. -/
def leAt (bs : List Byte) (off n : Nat) : Nat := leNat (sliceBytes bs off n)

/-- Cut bytes into words of w bytes. -/
def chunkLe (w : Nat) (n : Nat) (bs : List Byte) : List Nat :=
  match n with
  | 0 => []
  | n + 1 => leNat (bs.take w) :: chunkLe w n (bs.drop w)

/-- A KV format block (R31), by its fields. -/
def Machine.Fmt.parse (b : BitVec 192) : Machine.Fmt :=
  let n := b.toNat
  { bits := b, kfmt := n % 4, vfmt := (n >>> 2) % 4, rot := (n >>> 4) % 4, rope := (n >>> 6) % 4, hkv := (n >>> 8) % 16 + 1,
    d := 16 * ((n >>> 12) % 16 + 1), pairs := (n >>> 16) % 256, ver := (n >>> 28) % 16,
    seed := BitVec.ofNat 64 (n >>> 64), base := BitVec.ofNat 32 (n >>> 128), scale := BitVec.ofNat 32 (n >>> 160) }

/-- A source passes the cirque mask (R461). -/
def RecSel.cirqueOk (m : RecSel) (c : Machine.Comp) : Bool :=
  match c.cirqueOf with
  | some k => m.cirques.testBit k
  | none => true

/-- The key of a function or the BMC mailbox: 0 the PF, r VF r, 17 the BMC. -/
def Fn.key (f : Fn) : Nat :=
  match f with
  | .pf => 0
  | .vf r => r
  | .bmc => 17

/-- The header framing of check 1 (R374, R510). -/
def MbxHdr.framing (h : MbxHdr) : Bool := h.reserved == 0 && h.status == 0 && h.retryUs == 0 && decide (h.length ≤ 4080)

/-- The ridge a message names: a VF's own, or the RIDGE TLV of the PF and the BMC (R378). -/
def MbxHdr.target (h : MbxHdr) : Option Nat :=
  match h.fn with
  | .vf r => some r
  | .pf => h.ridge
  | .bmc => h.ridge

def Fn.isVf (f : Fn) : Bool :=
  match f with
  | .vf _ => true
  | .pf => false
  | .bmc => false

-- Parameters a message may leave out, with the defaults of their tables.

/-- PF_DEPTH: 8 when RIDGE_OPEN leaves it out (R342). -/
def RidgeParams.depth (p : RidgeParams) : Nat := p.pfDepth.getD 8
/-- SCRATCH_EN: 0 when RIDGE_OPEN leaves it out (R342). -/
def RidgeParams.scratch (p : RidgeParams) : Nat := p.scratchEn.getD 0
/-- T_DELAY in µs: 10 when CONN_CREATE leaves it out (R265). -/
def ConnParams.delayUs (p : ConnParams) : Nat := p.tDelayUs.getD 10
/-- MERGE_AT in eighths: 4 when CTR_CREATE leaves it out (R213). -/
def IndexParams.eighths (p : IndexParams) : Nat := p.mergeAt.getD 4
/-- PERIOD in µs: 1,000 when the LEASE TLV leaves it out (R446). -/
def LeaseParams.period (p : LeaseParams) : Nat := p.periodUs.getD 1000
/-- ORPHAN_T in s: 60 when the LEASE TLV leaves it out (R446). -/
def LeaseParams.orphan (p : LeaseParams) : Nat := p.orphanS.getD 60

-- CRC-32C (R259): reflected Castagnoli, initial and final all ones.

def crcByte (n c : Nat) : Nat :=
  match n with
  | 0 => c
  | n + 1 => crcByte n (if c % 2 = 1 then (c / 2) ^^^ 0x82F63B78 else c / 2)

def crc32c (bs : List Byte) : W32 :=
  BitVec.ofNat 32 ((bs.foldl (fun c b => crcByte 8 (c ^^^ b.toNat)) 0xFFFFFFFF) ^^^ 0xFFFFFFFF)

/-- The exposure period in ns. -/
def Fabric.period (f : Fabric) : Nat := f.periodUs * 1000

-- The Kalad base header (R261), in network byte order.

/-- The number in n header bytes from an offset. -/
def KHdr.be (h : KHdr) (off n : Nat) : Nat := (h.toNat >>> (8 * (40 - off - n))) % 2 ^ (8 * n)
def KHdr.ver (h : KHdr) : Nat := h.be 0 1 / 16
def KHdr.op (h : KHdr) : Nat := h.be 0 1 % 16
def KHdr.last (h : KHdr) : Bool := (h.be 1 1).testBit 7
def KHdr.first (h : KHdr) : Bool := (h.be 1 1).testBit 6
def KHdr.sec (h : KHdr) : Bool := (h.be 1 1).testBit 5
def KHdr.ar (h : KHdr) : Bool := (h.be 1 1).testBit 4
def KHdr.ridge (h : KHdr) : Nat := h.be 2 2 / 2048
def KHdr.psize (h : KHdr) : Nat := (h.be 2 2 / 512) % 4
def KHdr.conn (h : KHdr) : Nat := h.be 4 3
def KHdr.psn (h : KHdr) : Nat := h.be 8 3
def KHdr.msn (h : KHdr) : Nat := h.be 12 3
def KHdr.offset (h : KHdr) : Nat := h.be 16 4
def KHdr.addr (h : KHdr) : Nat := h.be 20 8
def KHdr.region (h : KHdr) : Nat := h.be 28 4
def KHdr.epoch (h : KHdr) : Nat := h.be 32 2
def KHdr.plen (h : KHdr) : Nat := h.be 34 2 % 16384
def KHdr.imm (h : KHdr) : Nat := h.be 36 4

/-- Every reserved bit of the header is 0 (R10, R261). -/
def KHdr.reservedOk (h : KHdr) : Bool :=
  h.be 1 1 % 16 == 0 && h.be 2 2 % 512 == 0 && h.be 7 1 == 0 && h.be 11 1 == 0 && h.be 15 1 == 0 && h.be 34 2 / 16384 == 0

-- What follows a descriptor inline (R94).

/-- Query bytes of R93 and input-block bytes of R131. -/
def Desc.qBytes (d : Desc) (dim : Nat) : Nat := d.pairs * dim * 2
def Desc.inputBytes (d : Desc) (dim : Nat) : Nat :=
  let slopes := if d.alibi then d.kvCount * d.g * 4 else 0
  if d.opcode = 0x21 then 2 * d.qBytes dim + 8 * d.pairs + slopes else d.qBytes dim + slopes

def IndexParams.elemBytes (p : IndexParams) : Nat := if p.efmt = 0 then 2 else 1

/-- Bytes of a vector. -/
def IndexParams.vecBytes (p : IndexParams) : Nat := p.dim * p.elemBytes

/-- Bytes of a QUERY's query (R225), and at the source of an INSERT or a DELETE (R221, R222). -/
def Desc.queryBytes (d : Desc) (p : IndexParams) : Nat := p.dim * (if d.qInt8 then 1 else 2)
def Desc.itemBytes (d : Desc) (p : IndexParams) : Nat := d.k * (if d.opcode = 0x29 then 16 + p.vecBytes else 8)

/-- The 16 header bytes of a mailbox message (R374): version, opcode, TAG, LENGTH, STATUS and RETRY_US, little-endian (R5). -/
def mbxHead (version reserved op tag length status retryUs : Nat) : List Byte :=
  leBytes 4 (version % 256 + reserved % 256 * 2 ^ 8 + op % 65536 * 2 ^ 16) ++ leBytes 4 (tag % 65536) ++ leBytes 4 (length % 8192) ++
  leBytes 4 (status % 256 + retryUs % 16777216 * 2 ^ 8)

/-- The header bytes of a request (R374). -/
def MbxHdr.bytes (h : MbxHdr) (op : Nat) : List Byte := mbxHead h.proto h.reserved op h.tag h.length h.status h.retryUs

namespace Machine

/-- The bytes of a response (R374): header and body. -/
def MReply.bytes (x : MReply) (version : Nat) : List Byte :=
  let body := Config.tlvBody x.opcode x.vals
  mbxHead version 0 x.opcode x.tag body.length x.status.code x.retryUs ++ body

/-- Bytes of one BF16 token row (R387). -/
def Fmt.rowBytes (f : Fmt) : Nat := f.hkv * f.d * 4

end Machine

end Sys2Proof
end

