-- ==== Sys2Proof/WellFormed.lean ====
section
/-! DEFINITION. Which terms are commands at all: every field within the width its structure gives it, and a descriptor or
packet of the opcode its row names. -/

namespace Sys2Proof

/-- A function number is 1 to 16 for a VF (R367). -/
def Fn.wf (f : Fn) : Bool :=
  match f with
  | .vf r => decide (1 ≤ r) && decide (r ≤ 16)
  | .pf => true
  | .bmc => true

/-- A function that has a BAR: the BMC has none (R397). -/
def Fn.hasBar (f : Fn) : Bool :=
  match f with
  | .vf r => decide (1 ≤ r) && decide (r ≤ 16)
  | .pf => true
  | .bmc => false

/-- The mailbox header's fields fit their widths (R374). -/
def MbxHdr.wf (h : MbxHdr) : Bool :=
  h.fn.wf && decide (h.proto < 256) && decide (h.tag < 65536) && decide (h.status < 256) && decide (h.retryUs < 16777216) &&
  decide (h.length < 8192)

/-- The descriptor carries the opcode of its row (R386). -/
def Desc.isOp (d : Desc) (op : Nat) : Bool := d.opcode == op

/-- The data-path opcodes the spec defines (R386). -/
def definedOps : List Nat :=
  [0x01, 0x02, 0x03, 0x04, 0x05, 0x06, 0x08, 0x10, 0x20, 0x21, 0x22, 0x24, 0x25, 0x28, 0x29, 0x2A, 0x2B, 0x30, 0x31]

/-- The mailbox opcodes the spec defines (R378). -/
def definedMsgs : List Nat :=
  [0x0001, 0x0002, 0x0003, 0x0004, 0x0010, 0x0011, 0x0018, 0x0019, 0x001A, 0x001B, 0x001C, 0x001D, 0x0020, 0x0021, 0x0022,
   0x0023, 0x0028, 0x0029, 0x002A, 0x002B, 0x0030, 0x0031, 0x0034, 0x0035, 0x0038, 0x0039, 0x003C, 0x003D, 0x003E, 0x003F,
   0x0040, 0x0048, 0x0049, 0x004A, 0x004B, 0x004C, 0x004D, 0x0050, 0x0051, 0x0052, 0x0053, 0x0058, 0x0059, 0x005A, 0x005B,
   0x005C, 0x0060, 0x0061, 0x0062, 0x0063, 0x0064, 0x0065, 0x0066, 0x0067, 0x0068, 0x0069, 0x006A]

/-- A Kalad packet of the opcode its row names (R262), with its byte counts within the wire's limits. -/
def KPkt.wf (p : KPkt) (op : Nat) : Bool := p.hdr.op == op && decide (p.wire.length ≤ 8192)

/-- The instant of a command. -/
def Instr.time (i : Instr) : Nat :=
  match i with
  | .holdoverSecond t | .ppsInEdge t | .ppsLoss t | .ppsOutEdge t | .fabricActivation t | .drainDeadline t | .healthDecay t
  | .advisoryMinute t | .filmstripSync t | .stopCut t | .cutWritten t | .holdMaxExpiry t | .pwrEntryComplete t
  | .perstReset t | .trngHealthFailure t | .pcieReplay t => t
  | .idGet t _ | .fabricGet t _ | .ridgeDrain t _ | .ridgeOpenAgain t _ | .ridgeGet t _ | .pskrDestroy t _ | .ntStep t _
  | .resetWarm t _ | .ridgeReset t _ | .healthGet t _ | .leaseGet t _ | .meterRead t _ | .epochDrainEndNow t _
  | .stopAtCancel t _ | .stopAtRelease t _ | .mboxOverrun t _ | .flmMark t _ | .write t _ | .writeImm t _ | .readReq t _
  | .readResp t _ | .command t _ | .ack t _ | .sack t _ | .nack t _ | .messageNotify t _ | .rtoExpiry t _
  | .ackDelayExpiry t _ | .connectResend t _ | .retryAfterExpiry t _ | .connCloseTimeout t _ | .oldKeyExpiry t _
  | .syncTimeout t _ | .wakeFrame t _ | .egressDecision t _ | .linkDown t _ | .linkUp t _ | .shutterTakeover t _
  | .exposureBoundary t _ | .deadlineInstant t _ | .itemDispatch t _ | .mergeAccept t _ | .requestFinish t _
  | .ringReuseResume t _ | .forkResume t _ | .sequenceRelease t _ | .cairnTick t _ | .leaseRecordSend t _ | .leaseExpiry t _
  | .orphanReclaim t _ | .injectExpiry t _ | .watchdogFire t _ | .throttleStep t _ | .sensorUpdate t _ | .fwSwitch t _
  | .ridgeZeroed t _ | .a0Reported t _ | .cellRegate t _ | .stripComplete t _ | .coldReset t _ | .functionLevelReset t _
  | .clockLoss t _ | .warmResetComplete t _ | .ridgeResetComplete t _ | .attestReportHoldExpiry t _ | .pcieReadFailed t _ => t
  | .hello t _ _ | .fabricSet t _ _ | .ridgeOpen t _ _ | .ridgeClose t _ _ | .ringCreate t _ _ | .ringDestroy t _ _
  | .ringReset t _ _ | .ringGet t _ _ | .connCreate t _ _ | .connReset t _ _ | .connClose t _ _ | .connGet t _ _
  | .mprogClear t _ _ | .cbufDestroy t _ _ | .cscrDestroy t _ _ | .ctrCreate t _ _ | .ctrDestroy t _ _ | .shtGet t _ _
  | .fwStage t _ _ | .fwActivate t _ _ | .fwFloor t _ _ | .pwrEnter t _ _ | .cirqueReset t _ _ | .stripRun t _ _
  | .shadowSet t _ _ | .injectClear t _ _ | .belaySetDrain t _ _ | .belaySetStandin t _ _ | .belaySetLease t _ _
  | .epochDrain t _ _ | .watchdogSet t _ _ | .traceSetEvsel t _ _ | .traceSetRecords t _ _ | .traceSetMode t _ _
  | .openSeq t _ _ | .sealSeq t _ _ | .fork t _ _ | .free t _ _ | .read t _ _ | .prefetch t _ _ | .composite t _ _
  | .gradSend t _ _ | .gradClear t _ _ | .ctrMerge t _ _ | .cairnHoldEnter t _ _ | .cairnHoldLeave t _ _
  | .intCauseClear t _ _ | .intEnable t _ _ | .lowWordRead t _ _ | .connect t _ _ | .accept t _ _ | .refuse t _ _
  | .contextFetchDone t _ _ | .ethFrameDrop t _ _ | .gateTakeover t _ _ | .queryPlaced t _ _ | .thinPhaseDone t _ _
  | .spillComplete t _ _ | .outputDelivered t _ _ | .pageSeal t _ _ | .ringSpanFetch t _ _ | .coalTimeout t _ _
  | .modeEntryComplete t _ _ | .refreshDue t _ _ | .lingerExpiry t _ _ | .patrolRead t _ _ | .scrubPass t _ _
  | .ridgeOpened t _ _ | .ridgeCloseComplete t _ _ | .thermtrip t _ _ | .clockReturn t _ _ | .mboxUnsupportedOpcode t _ _
  | .undefinedCommandOpcode t _ _ | .sriovVfEnable t _ _ => t
  | .certGet t _ _ _ | .ridgeModify t _ _ _ | .cscrCreate t _ _ _ | .loupeSetAdd t _ _ _ | .loupeSetDelete t _ _ _
  | .ownerEnrol t _ _ _ | .errRead t _ _ _ | .shadowSetRelease t _ _ _ | .belaySetMirror t _ _ _ | .stopAt t _ _ _
  | .append t _ _ _ | .ingest t _ _ _ | .develop t _ _ _ | .reverse t _ _ _ | .query t _ _ _ | .insert t _ _ _
  | .delete t _ _ _ | .cairn t _ _ _ | .ptpAnnounce t _ _ _ | .ptpDelayResp t _ _ _ | .arpRx t _ _ _ | .stripeSwitch t _ _ _
  | .segmentComplete t _ _ _ | .supplyExcursion t _ _ _ | .submissionFetchComplete t _ _ _ => t
  | .attest t _ _ _ _ | .mprogLoad t _ _ _ _ | .cbufCreate t _ _ _ _ | .pskrCreate t _ _ _ _ | .loupeSetReplace t _ _ _ _
  | .gateSet t _ _ _ _ | .shtSet t _ _ _ _ | .inject t _ _ _ _ | .traceSetDump t _ _ _ _ | .ringDb t _ _ _ _
  | .cqHead t _ _ _ _ | .registerWrite t _ _ _ _ | .barBadAccess t _ _ _ _ | .ptpSync t _ _ _ _ | .itemComplete t _ _ _ _
  | .fillComplete t _ _ _ _ | .wakeEvent t _ _ _ _ => t
  | .portSet t _ _ _ _ _ => t
  | .cbsSet t _ _ _ _ _ _ _ => t

/-- The fields of a command lie in what its row can carry. -/
def Instr.fieldsOk (i : Instr) : Bool :=
  match i with
  | .hello _ h _ | .idGet _ h | .certGet _ h _ _ | .attest _ h _ _ _ | .fabricSet _ h _ | .fabricGet _ h | .ridgeOpen _ h _
  | .ridgeModify _ h _ _ | .ridgeDrain _ h | .ridgeOpenAgain _ h | .ridgeClose _ h _ | .ridgeGet _ h | .ringCreate _ h _
  | .ringDestroy _ h _ | .ringReset _ h _ | .ringGet _ h _ | .connCreate _ h _ | .connReset _ h _ | .connClose _ h _
  | .connGet _ h _ | .mprogLoad _ h _ _ _ | .mprogClear _ h _ | .cbufCreate _ h _ _ _ | .cbufDestroy _ h _ | .cscrCreate _ h _ _
  | .cscrDestroy _ h _ | .ctrCreate _ h _ | .ctrDestroy _ h _ | .pskrCreate _ h _ _ _ | .pskrDestroy _ h | .loupeSetAdd _ h _ _
  | .loupeSetDelete _ h _ _ | .loupeSetReplace _ h _ _ _ | .portSet _ h _ _ _ _ | .ntStep _ h | .cbsSet _ h _ _ _ _ _ _
  | .gateSet _ h _ _ _ | .shtSet _ h _ _ _ | .shtGet _ h _ | .fwStage _ h _ | .fwActivate _ h _ | .fwFloor _ h _
  | .ownerEnrol _ h _ _ | .pwrEnter _ h _ | .resetWarm _ h | .ridgeReset _ h | .cirqueReset _ h _ | .stripRun _ h _
  | .errRead _ h _ _ | .healthGet _ h | .shadowSet _ h _ | .shadowSetRelease _ h _ _ | .inject _ h _ _ _ | .injectClear _ h _
  | .belaySetDrain _ h _ | .belaySetMirror _ h _ _ | .belaySetStandin _ h _ | .belaySetLease _ h _ | .leaseGet _ h
  | .meterRead _ h | .epochDrain _ h _ | .epochDrainEndNow _ h | .stopAt _ h _ _ | .stopAtCancel _ h | .stopAtRelease _ h
  | .watchdogSet _ h _ | .traceSetEvsel _ h _ | .traceSetRecords _ h _ | .traceSetMode _ h _ | .traceSetDump _ h _ _ _ => h.wf
  | .mboxOverrun _ f => f.wf
  | .openSeq _ _ d => d.isOp 0x01
  | .append _ _ d _ => d.isOp 0x02
  | .sealSeq _ _ d => d.isOp 0x03
  | .fork _ _ d => d.isOp 0x04
  | .free _ _ d => d.isOp 0x05
  | .ingest _ _ d _ => d.isOp 0x06
  | .read _ _ d => d.isOp 0x08
  | .prefetch _ _ d => d.isOp 0x10
  | .develop _ _ d _ => d.isOp 0x20
  | .reverse _ _ d _ => d.isOp 0x21
  | .composite _ _ d => d.isOp 0x22
  | .gradSend _ _ d => d.isOp 0x24
  | .gradClear _ _ d => d.isOp 0x25
  | .query _ _ d _ => d.isOp 0x28
  | .insert _ _ d _ => d.isOp 0x29
  | .delete _ _ d _ => d.isOp 0x2A
  | .ctrMerge _ _ d => d.isOp 0x2B
  | .cairn _ _ d _ => d.isOp 0x30
  | .cairnHoldEnter _ _ d => d.isOp 0x31 && d.fld 0x14 0 1 == 0
  | .cairnHoldLeave _ _ d => d.isOp 0x31 && d.fld 0x14 0 1 == 1
  | .undefinedCommandOpcode _ _ d => !definedOps.contains d.opcode
  | .ringDb _ f _ _ _ | .cqHead _ f _ _ _ | .intCauseClear _ f _ | .intEnable _ f _ | .lowWordRead _ f _
  | .registerWrite _ f _ _ _ | .barBadAccess _ f _ _ _ => f.hasBar
  | .flmMark _ _ => true
  | .write _ p => p.wf 0
  | .writeImm _ p => p.wf 1
  | .readReq _ p => p.wf 2
  | .readResp _ p => p.wf 3
  | .command _ p => p.wf 4
  | .ack _ p => p.wf 5
  | .sack _ p => p.wf 6
  | .nack _ p => p.wf 7
  | .connect _ p _ | .accept _ p _ | .refuse _ p _ => p.hdr.conn == 0
  | .mboxUnsupportedOpcode _ h op => h.wf && !definedMsgs.contains op
  | .messageNotify _ _ | .contextFetchDone _ _ _ | .rtoExpiry _ _ | .ackDelayExpiry _ _ | .connectResend _ _
  | .retryAfterExpiry _ _ | .connCloseTimeout _ _ | .oldKeyExpiry _ _ | .ptpSync _ _ _ _ _ | .ptpAnnounce _ _ _ _
  | .ptpDelayResp _ _ _ _ | .syncTimeout _ _ | .holdoverSecond _ | .ppsInEdge _ | .ppsLoss _ | .ppsOutEdge _ | .arpRx _ _ _ _
  | .ethFrameDrop _ _ _ | .wakeFrame _ _ | .egressDecision _ _ | .linkDown _ _ | .linkUp _ _ | .gateTakeover _ _ _
  | .shutterTakeover _ _ | .fabricActivation _ | .drainDeadline _ | .exposureBoundary _ _ | .deadlineInstant _ _
  | .queryPlaced _ _ _ | .thinPhaseDone _ _ _ | .itemDispatch _ _ | .itemComplete _ _ _ _ _ | .mergeAccept _ _
  | .spillComplete _ _ _ | .fillComplete _ _ _ _ _ | .requestFinish _ _ | .outputDelivered _ _ _ | .pageSeal _ _ _
  | .ringReuseResume _ _ | .forkResume _ _ | .sequenceRelease _ _ | .ringSpanFetch _ _ _ | .coalTimeout _ _ _
  | .stripeSwitch _ _ _ _ | .segmentComplete _ _ _ _ | .modeEntryComplete _ _ _ | .cairnTick _ _ | .refreshDue _ _ _
  | .lingerExpiry _ _ _ | .patrolRead _ _ _ | .scrubPass _ _ _ | .healthDecay _ | .advisoryMinute _ | .leaseRecordSend _ _
  | .leaseExpiry _ _ | .orphanReclaim _ _ | .injectExpiry _ _ | .watchdogFire _ _ | .filmstripSync _ | .stopCut _
  | .cutWritten _ | .holdMaxExpiry _ | .throttleStep _ _ | .sensorUpdate _ _ | .fwSwitch _ _ | .ridgeOpened _ _ _
  | .ridgeCloseComplete _ _ _ | .ridgeZeroed _ _ | .pwrEntryComplete _ | .a0Reported _ _ | .cellRegate _ _
  | .stripComplete _ _ | .coldReset _ _ | .perstReset _ | .supplyExcursion _ _ _ _ | .clockLoss _ _ | .thermtrip _ _ _
  | .clockReturn _ _ _ | .trngHealthFailure _ | .warmResetComplete _ _ | .ridgeResetComplete _ _
  | .submissionFetchComplete _ _ _ _ | .pcieReadFailed _ _ | .pcieReplay _ | .sriovVfEnable _ _ _ => true
  | .wakeEvent _ _ _ f _ | .functionLevelReset _ f | .attestReportHoldExpiry _ f => f.wf

/-- A command that can be sent: its instant is a 64-bit count of nanoseconds (R7). -/
def Instr.wf (i : Instr) : Bool := i.fieldsOk && decide (i.time < 2 ^ 64)

end Sys2Proof
end

