-- ==== Sys2Proof/Decode.lean ====
section
/-! DEFINITION. The words of commands: the opcode table gives no row any bits, so no word spells a command. -/

namespace Sys2Proof

/-- The command a word of the opcode table spells: the table gives none of its rows bits, so there is none. -/
def decodeTableWord (nbits w : Nat) : Option Instr :=
  match nbits, w with
  | _, _ => none

end Sys2Proof
end

