-- ==== Sys2Proof/Machine/Fp.lean ====
section
/-! DEFINITION. The node's arithmetic (R25 to R27, R42, R44 to R49, R100 to R102): FP32 with round-to-nearest-even and flushed
subnormals, BF16 and E4M3 conversions, exp2 and exp, tanh, and the correctly rounded functions of R37.
Log entries 14. -/

namespace Sys2Proof.Machine

open Sys2Proof

/-- The NaN the node's operations give; every NaN ends in NONFINITE or is tested only for being one (R51, R102). -/
def fNaN : W32 := 0x7FC00000#32
def fOne : W32 := 0x3F800000#32
def fInf (neg : Bool) : W32 := if neg then 0xFF800000#32 else 0x7F800000#32
def fNegInf : W32 := 0xFF800000#32

def fSign (x : W32) : Bool := x.toNat.testBit 31
def fExpo (x : W32) : Nat := (x.toNat >>> 23) % 256
def fFrac (x : W32) : Nat := x.toNat % 8388608
def fIsNaN (x : W32) : Bool := fExpo x == 255 && fFrac x != 0
def fIsInf (x : W32) : Bool := fExpo x == 255 && fFrac x == 0
def fFinite (x : W32) : Bool := fExpo x != 255
/-- Zero, or a subnormal, which is read as a zero of its sign (R25). -/
def fIsZero (x : W32) : Bool := fExpo x == 0

/-- The magnitude of a finite value is its significand times 2 to the exponent `fUnit`. -/
def fMant (x : W32) : Nat := if fExpo x = 0 then 0 else 8388608 + fFrac x
def fUnit (x : W32) : Int := (fExpo x : Int) - 150

/-- 2^k times a fraction, for k of either sign. -/
def scale2 (n d : Nat) (k : Int) : Nat × Nat := if 0 ≤ k then (n <<< k.toNat, d) else (n, d <<< (-k).toNat)

/-- The exponent of a positive fraction: 2^e ≤ n/d < 2^(e+1). -/
def expoOf (n d : Nat) : Int :=
  let e : Int := (Nat.log2 n : Int) - (Nat.log2 d : Int)
  let (a, b) := scale2 n d (-e)
  if a < b then e - 1 else e

/-- A fraction rounded to the nearest whole number, ties to even. -/
def rneDiv (n d : Nat) : Nat :=
  let q := n / d
  let r := 2 * (n % d)
  if r < d then q else if d < r then q + 1 else if q % 2 = 0 then q else q + 1

/-- A positive fraction rounded to p significant bits: significand in [2^(p-1), 2^p) and the exponent of its first bit. -/
def roundSig (p : Nat) (n d : Nat) : Nat × Int :=
  let e := expoOf n d
  let (a, b) := scale2 n d ((p : Int) - 1 - e)
  let q := rneDiv a b
  if q = 2 ^ p then (2 ^ (p - 1), e + 1) else (q, e)

/-- RNE of a fraction to FP32, with tininess judged after rounding and flushed (R25). -/
def fRound (neg : Bool) (n d : Nat) : W32 :=
  let sgn := if neg then 0x80000000#32 else 0#32
  if n = 0 then sgn
  else
    let (q, e) := roundSig 24 n d
    if 128 ≤ e then fInf neg
    else if e < -126 then sgn
    else sgn ||| BitVec.ofNat 32 (((e + 127).toNat <<< 23) + (q - 8388608))

/-- RNE of a whole number times 2^k. -/
def fOfDyadic (neg : Bool) (m : Nat) (k : Int) : W32 :=
  let (n, d) := scale2 m 1 k
  fRound neg n d

/-- RNE to FP32 of an integer (R100, R102). -/
def fOfInt (i : Int) : W32 := fRound (decide (i < 0)) i.natAbs 1

def fNeg (x : W32) : W32 := x ^^^ 0x80000000#32
def fAbs (x : W32) : W32 := x &&& 0x7FFFFFFF#32

/-- A finite operand as a signed significand. -/
def fSigned (x : W32) : Int := if fSign x then -(fMant x : Int) else (fMant x : Int)

/-- RNE(x + y) (R25). -/
def fAdd (x y : W32) : W32 :=
  if fIsNaN x || fIsNaN y then fNaN
  else if fIsInf x then (if fIsInf y && fSign x != fSign y then fNaN else x)
  else if fIsInf y then y
  else
    let k := min (fUnit x) (fUnit y)
    let s := fSigned x * 2 ^ (fUnit x - k).toNat + fSigned y * 2 ^ (fUnit y - k).toNat
    if s = 0 then (if fSign x && fSign y && fIsZero x && fIsZero y then 0x80000000#32 else 0#32)
    else fOfDyadic (decide (s < 0)) s.natAbs k

/-- RNE(x − y) (R25). -/
def fSub (x y : W32) : W32 := fAdd x (fNeg y)

/-- RNE(x × y) (R25). -/
def fMul (x y : W32) : W32 :=
  let neg := fSign x != fSign y
  if fIsNaN x || fIsNaN y then fNaN
  else if fIsInf x || fIsInf y then (if fIsZero x || fIsZero y then fNaN else fInf neg)
  else fOfDyadic neg (fMant x * fMant y) (fUnit x + fUnit y)

/-- RNE(x / y), correctly rounded (R25). -/
def fDiv (x y : W32) : W32 :=
  let neg := fSign x != fSign y
  if fIsNaN x || fIsNaN y then fNaN
  else if fIsInf x then (if fIsInf y then fNaN else fInf neg)
  else if fIsInf y then fRound neg 0 1
  else if fIsZero y then (if fIsZero x then fNaN else fInf neg)
  else
    let (n, d) := scale2 (fMant x) (fMant y) (fUnit x - fUnit y)
    fRound neg n d

/-- The order of values that are not NaN: −0 and +0 are equal. -/
def fKey (x : W32) : Int :=
  let m : Int := if fIsZero x then 0 else ((x.toNat % 2147483648 : Nat) : Int)
  if fSign x then -m else m

def fLt (x y : W32) : Bool := !fIsNaN x && !fIsNaN y && decide (fKey x < fKey y)
def fEq (x y : W32) : Bool := !fIsNaN x && !fIsNaN y && decide (fKey x = fKey y)
/-- IEEE 754 comparison with 0: a NaN is not equal to 0 (R102). -/
def fNonzero (x : W32) : Bool := fIsNaN x || !fIsZero x

/-- MIN of R102: −0 is the lesser of −0 and +0. -/
def fMin (x y : W32) : W32 :=
  if fIsNaN x || fIsNaN y then fNaN
  else if fIsZero x && fIsZero y then (if fSign x || fSign y then 0x80000000#32 else 0#32)
  else if fLt y x then y else x

/-- MAX of R102: +0 is the greater. -/
def fMax (x y : W32) : W32 :=
  if fIsNaN x || fIsNaN y then fNaN
  else if fIsZero x && fIsZero y then (if fSign x && fSign y then 0x80000000#32 else 0#32)
  else if fLt x y then y else x

/-- The floor of a finite value as a whole number. -/
def fFloorInt (x : W32) : Int :=
  if 0 ≤ fUnit x then fSigned x * 2 ^ (fUnit x).toNat else fSigned x / 2 ^ (-(fUnit x)).toNat

/-- floor(A), exact (R102). -/
def fFloor (x : W32) : W32 :=
  if fIsNaN x then fNaN
  else if fIsInf x then x
  else if fIsZero x then (if fSign x then 0x80000000#32 else 0#32)
  else fOfInt (fFloorInt x)

/-- tab[i] = RNE(2^(i/64)) (R46). -/
def exp2Tab : List W32 :=
  ([0x3F800000, 0x3F8164D2, 0x3F82CD87, 0x3F843A29, 0x3F85AAC3, 0x3F871F62, 0x3F88980F, 0x3F8A14D5] ++
   [0x3F8B95C2, 0x3F8D1ADF, 0x3F8EA43A, 0x3F9031DC, 0x3F91C3D3, 0x3F935A2B, 0x3F94F4F0, 0x3F96942D] ++
   [0x3F9837F0, 0x3F99E046, 0x3F9B8D3A, 0x3F9D3EDA, 0x3F9EF532, 0x3FA0B051, 0x3FA27043, 0x3FA43516] ++
   [0x3FA5FED7, 0x3FA7CD94, 0x3FA9A15B, 0x3FAB7A3A, 0x3FAD583F, 0x3FAF3B79, 0x3FB123F6, 0x3FB311C4] ++
   [0x3FB504F3, 0x3FB6FD92, 0x3FB8FBAF, 0x3FBAFF5B, 0x3FBD08A4, 0x3FBF179A, 0x3FC12C4D, 0x3FC346CD] ++
   [0x3FC5672A, 0x3FC78D75, 0x3FC9B9BE, 0x3FCBEC15, 0x3FCE248C, 0x3FD06334, 0x3FD2A81E, 0x3FD4F35B] ++
   [0x3FD744FD, 0x3FD99D16, 0x3FDBFBB8, 0x3FDE60F5, 0x3FE0CCDF, 0x3FE33F89, 0x3FE5B907, 0x3FE8396A] ++
   [0x3FEAC0C7, 0x3FED4F30, 0x3FEFE4BA, 0x3FF28177, 0x3FF5257D, 0x3FF7D0DF, 0x3FFA83B3, 0x3FFD3E0C]).map (BitVec.ofNat 32)

/-- ck = RNE(ln(2)^k / k!) (R46). -/
def expC1 : W32 := 0x3F317218#32
def expC2 : W32 := 0x3E75FDF0#32
def expC3 : W32 := 0x3D635847#32
/-- RNE(log2(e)) (R46). -/
def expL2e : W32 := 0x3FB8AA3B#32

/-- RNE(r × p) for an exact r = rn / 2^rk that is not negative. -/
def mulExact (rn rk : Nat) (p : W32) : W32 :=
  if fIsNaN p then fNaN
  else if fIsInf p then fInf (fSign p)
  else
    let (n, d) := scale2 (rn * fMant p) (2 ^ rk) (fUnit p)
    fRound (fSign p) n d

/-- exp2(x) for x ≤ 0 (R46); the spec never asks for another argument. -/
def fExp2 (x : W32) : W32 :=
  if fIsNaN x then fNaN
  else if fIsInf x then 0#32
  else
    let n := fFloorInt x
    let k := (-(fUnit x)).toNat
    -- f = fn / 2^k, exact
    let fn := if 0 ≤ fUnit x then 0 else (fSigned x - n * 2 ^ k).toNat
    let i := (64 * fn) / 2 ^ k
    -- r = f − i/64 = rn / 2^(k+6)
    let rn := 64 * fn - i * 2 ^ k
    let p := fAdd expC2 (mulExact rn (k + 6) expC3)
    let p := fAdd expC1 (mulExact rn (k + 6) p)
    let p := fAdd fOne (mulExact rn (k + 6) p)
    let y := fMul (exp2Tab.getD i fOne) p
    if n < -400 then 0#32 else fOfDyadic false (fMant y) (fUnit y + n)

/-- exp(x) of R46 for x ≤ 0; +inf above 0 (EXPN, R102). -/
def fExp (x : W32) : W32 :=
  if fIsNaN x then fNaN
  else if fLt 0#32 x then fInf false
  else if fIsInf x then 0#32
  else fExp2 (fMul x expL2e)

/-- The soft-cap with cap c (R101), which is also TANH of R102 with c = 1. -/
def fSoftcap (c s : W32) : W32 :=
  let y := fDiv s c
  let a := fAbs y
  let e := fExp (fMul 0xC0000000#32 a)
  let t := fDiv (fSub fOne e) (fAdd fOne e)
  if fIsNaN y then fNaN else fMul c (if fSign y then fNeg t else t)

-- BF16 (R26, R28).

/-- BF16 to FP32: exact, a subnormal read as zero (R26). -/
def fOfBf (b : Nat) : W32 :=
  if (b >>> 7) % 256 = 0 then (if b.testBit 15 then 0x80000000#32 else 0#32) else BitVec.ofNat 32 ((b % 65536) <<< 16)

/-- RNE to BF16, subnormal results flushed (R25). The answer is the 16-bit pattern. -/
def bfOf (x : W32) : Nat :=
  let sgn := if fSign x then 0x8000 else 0
  if fIsNaN x then 0x7FC0
  else if fIsInf x then sgn + 0x7F80
  else if fIsZero x then sgn
  else
    let (n, d) := scale2 (fMant x) 1 (fUnit x)
    let (q, e) := roundSig 8 n d
    if 128 ≤ e then sgn + 0x7F80 else if e < -126 then sgn else sgn + ((e + 127).toNat <<< 7) + (q - 128)

def bfFinite (b : Nat) : Bool := (b >>> 7) % 256 != 255

-- E4M3 (R28, R35).

/-- The code of RNE to E4M3 with subnormals kept, a magnitude above 448 becoming 448, and every zero 0x00 (R35). -/
def e4m3Of (x : W32) : Nat :=
  if fIsZero x then 0
  else
    let sgn := if fSign x then 0x80 else 0
    let (n, d) := scale2 (fMant x) 1 (fUnit x)
    let e := max (expoOf n d) (-6)
    let (a, b) := scale2 n d (3 - e)
    let q := rneDiv a b
    -- q units of 2^(e-3); q is at most 16
    if q = 0 then 0
    else
      let (q, e) := if q = 16 then (8, e + 1) else (q, e)
      if 8 < e || (e = 8 && 14 < q) then sgn + 0x7E
      else if q < 8 then sgn + q
      else sgn + ((e + 7).toNat <<< 3) + (q - 8)

/-- The value of an E4M3 code in units of 2^-9; none for a NaN code (R28, R29). -/
def e4m3Val (c : Nat) : Option Int :=
  let e := (c >>> 3) % 16
  let m := c % 8
  if c % 128 = 0x7F then none
  else
    let v : Int := if e = 0 then (m : Int) else (((8 + m) <<< (e - 1) : Nat) : Int)
    some (if c.testBit 7 then -v else v)

/-- RNE to an integer (R35). -/
def fRneInt (x : W32) : Int :=
  let (n, d) := scale2 (fMant x) 1 (fUnit x)
  let q : Int := (rneDiv n d : Nat)
  if fSign x then -q else q

-- The functions of R37.

/-- ym^b × 2^(ye·b) × alpha^b × base^a against 1, for positive FP32 base and alpha. -/
def ropeCmp (ym : Nat) (ye : Int) (a b : Nat) (base alpha : W32) : Ordering :=
  let m := ym ^ b * fMant alpha ^ b * fMant base ^ a
  let k := ye * (b : Int) + fUnit alpha * (b : Int) + fUnit base * (a : Int)
  let (n, d) := scale2 m 1 k
  compare n d

/-- The greatest exponent e in [lo, lo + 2^n) whose 2^e does not pass the value: binary search. -/
def ropeExpo (n : Nat) (lo : Int) (a b : Nat) (base alpha : W32) : Int :=
  match n with
  | 0 => lo
  | n + 1 =>
    let mid := lo + 2 ^ n
    if ropeCmp 1 mid a b base alpha = .gt then ropeExpo n lo a b base alpha else ropeExpo n mid a b base alpha

/-- The greatest q from the one given, with n lower bits still to choose, with q × 2^e at most the value. -/
def ropeBits (n : Nat) (q : Nat) (e : Int) (a b : Nat) (base alpha : W32) : Nat :=
  match n with
  | 0 => q
  | n + 1 =>
    let t := q + 2 ^ n
    if ropeCmp t e a b base alpha = .gt then ropeBits n q e a b base alpha else ropeBits n t e a b base alpha

/-- f_i: base^(-2i/d_r) / alpha correctly rounded to fp64, as significand and exponent of its unit (R37). -/
def ropeF (i dr : Nat) (base alpha : W32) : Nat × Int :=
  let g := Nat.gcd (2 * i) dr
  let a := 2 * i / g
  let b := dr / g
  let e := ropeExpo 10 (-512) a b base alpha
  -- 53 bits and one more
  let u := e - 53
  let q := ropeBits 53 (2 ^ 53) u a b base alpha
  let exact := ropeCmp q u a b base alpha = .eq
  let h := q / 2
  let r := if q % 2 = 0 then h else if exact && h % 2 = 0 then h else h + 1
  (r, u + 1)

/-- A whole number times 2^k rounded to fp64: significand and exponent of its unit; zero is (0, 0). -/
def round64 (m : Nat) (k : Int) : Nat × Int :=
  if m = 0 then (0, 0)
  else
    let (n, d) := scale2 m 1 k
    let (q, e) := roundSig 53 n d
    (q, e - 52)

/-- The series of atan(1/x), each term cut down: pw is 2^n / x^(2k+1). -/
def atanInv (fuel : Nat) (x pw : Nat) (k : Nat) (neg : Bool) : Int :=
  match fuel with
  | 0 => 0
  | fuel + 1 =>
    let t : Int := (pw / (2 * k + 1) : Nat)
    (if neg then -t else t) + atanInv fuel x (pw / (x * x)) (k + 1) (!neg)

/-- π × 2^n within 1 unit: Machin's formula with n + 32 bits carried. -/
def piFix (n : Nat) : Nat :=
  let w := n + 32
  ((16 * atanInv w 5 (2 ^ w / 5) 0 false - 4 * atanInv w 239 (2 ^ w / 239) 0 false) / 2 ^ 32).toNat

/-- The cosine and sine series of a reduced argument r × 2^-n with r2 = r² × 2^-n, |r| at most 2^n: both sums. -/
def trigSeries (fuel : Nat) (n : Nat) (r2 : Int) (c s : Int) (k : Nat) : Int × Int :=
  match fuel with
  | 0 => (0, 0)
  | fuel + 1 =>
    let c' := -(c * r2 / 2 ^ n) / (((2 * k + 1) * (2 * k + 2) : Nat) : Int)
    let s' := -(s * r2 / 2 ^ n) / (((2 * k + 2) * (2 * k + 3) : Nat) : Int)
    let (a, b) := trigSeries fuel n r2 c' s' (k + 1)
    (c + a, s + b)

/-- Round v × 2^-n to FP32. -/
def fOfFix (v : Int) (n : Nat) : W32 := fOfDyadic (decide (v < 0)) v.natAbs (-(n : Int))

/-- cos and sin of phi = m × 2^k (m > 0) with n fraction bits: the FP32 values, where both ends of the error interval round
alike. -/
def trigTry (m : Nat) (k : Int) (n : Nat) : Option (W32 × W32) :=
  -- extra bits for the size of phi
  let x := n + (k + 64).toNat
  let pi := piFix (x + 8)
  let (num, den) := scale2 m 1 (k + ((x + 8 : Nat) : Int))
  let phi := num / den
  let half := pi / 2
  let j := (2 * phi + half) / (2 * half)
  let r : Int := ((phi : Int) - ((j * half : Nat) : Int)) / 2 ^ (x + 8 - n)
  let (c, s) := trigSeries (n / 4 + 8) n (r * r / 2 ^ n) (2 ^ n) r 0
  let err : Int := ((4 * n + 1024 : Nat) : Int)
  let (cc, ss) :=
    if j % 4 = 0 then (c, s) else if j % 4 = 1 then (-s, c) else if j % 4 = 2 then (-c, -s) else (s, -c)
  let c0 := fOfFix (cc - err) n
  let s0 := fOfFix (ss - err) n
  if c0 = fOfFix (cc + err) n ∧ s0 = fOfFix (ss + err) n then some (c0, s0) else none

/-- Cosine and sine correctly rounded to fp32 (R37): the precision is doubled until the rounding is settled, five times at most
(log entry 14). -/
def trigZiv (fuel : Nat) (m : Nat) (k : Int) (n : Nat) : W32 × W32 :=
  match fuel with
  | 0 => (fOne, 0#32)
  | fuel + 1 => (trigTry m k n).getD (trigZiv fuel m k (2 * n))

/-- cos(phi) and sin(phi) for phi = m × 2^k (R37). -/
def fCosSin (m : Nat) (k : Int) : W32 × W32 := if m = 0 then (fOne, 0#32) else trigZiv 5 m k 96

/-- c and s of R37 for a pair of frequency f at position p. -/
def ropeAngle (p : Nat) (f : Nat × Int) : W32 × W32 :=
  let (m, k) := round64 (p * f.1) f.2
  fCosSin m k

end Sys2Proof.Machine
end

