-- ==== Sys2Proof/Machine/Kv.lean ====
section
/-! DEFINITION. Keys and values (R28 to R49): the format block's checks, RoPE, rotation, quantization, token records, scores,
page partials, merges and the finished proof.
Log entries 30. -/

namespace Sys2Proof.Machine

open Sys2Proof

-- Geometry (R28, R30, R43).

def fmtBits (code : Nat) : Nat := if code = 0 then 16 else if code = 3 then 4 else 8
def ceilDiv (a b : Nat) : Nat := (a + b - 1) / b
def scaleBytes (code d : Nat) : Nat := if code = 0 then 0 else ceilDiv d 32 * 2
def elemBytes (code d : Nat) : Nat := d * fmtBits code / 8
def headBytes (code d : Nat) : Nat := elemBytes code d + scaleBytes code d
def Fmt.tokenBytes (f : Fmt) : Nat := f.hkv * headBytes f.kfmt f.d + f.hkv * headBytes f.vfmt f.d
/-- tokens_per_page (R43). -/
def Fmt.tpp (f : Fmt) : Nat := min 256 (63488 / f.tokenBytes)
/-- The rotation block, 0 for none (R31). -/
def Fmt.rotBlock (f : Fmt) : Nat := if f.rot = 0 then 0 else 16 * 2 ^ f.rot

/-- The shapes a sequence may open with (R32). ROPE_BASE and ROPE_SCALE are read under R25. -/
def Fmt.shapeOk (f : Fmt) : Bool :=
  f.rope != 3 && f.ver == 1 &&
  (if f.rope = 0 then f.pairs == 0 else f.pairs != 0 && decide (2 * f.pairs ≤ f.d)) &&
  (f.rot == 0 || (decide (f.rotBlock ≤ f.d) && f.d % f.rotBlock == 0)) &&
  (f.rope == 0 || (fFinite f.base && fLt fOne f.base && fFinite f.scale && fLt 0#32 f.scale))

-- RoPE (R37).

/-- One rotated pair. -/
def ropePair (cs : W32 × W32) (x0 x1 : W32) : W32 × W32 :=
  (fSub (fMul x0 cs.1) (fMul x1 cs.2), fAdd (fMul x0 cs.2) (fMul x1 cs.1))

/-- Interleaved pairs from the front of a vector (ROPE 2). -/
def ropeInter (angles : List (W32 × W32)) (xs : List W32) : List W32 :=
  match angles, xs with
  | cs :: rest, x0 :: x1 :: ys =>
    let (a, b) := ropePair cs x0 x1
    a :: b :: ropeInter rest ys
  | _, ys => ys

/-- Half-split pairs (ROPE 1): elements i and i + n. -/
def ropeHalf (angles : List (W32 × W32)) (n : Nat) (xs : List W32) : List W32 :=
  let lo := xs.take n
  let hi := (xs.drop n).take n
  let out := (angles.zip (lo.zip hi)).map (fun e => ropePair e.1 e.2.1 e.2.2)
  out.map (·.1) ++ out.map (·.2) ++ xs.drop (2 * n)

/-- The angles of a position: c and s for each pair. -/
def Fmt.angles (f : Fmt) (p : Nat) : List (W32 × W32) :=
  (List.range f.pairs).map (fun i => ropeAngle p (ropeF i (2 * f.pairs) f.base f.scale))

def Fmt.ropeApply (f : Fmt) (angles : List (W32 × W32)) (xs : List W32) : List W32 :=
  if f.rope = 1 then ropeHalf angles f.pairs xs else if f.rope = 2 then ropeInter angles xs else xs

-- Rotation (R39, R40).

def mask64 : Nat := 18446744073709551615

/-- One step of the generator of R40. -/
def rotStep (x : Nat) : Nat := (0x9E3779B97F4A7C15 + x) &&& mask64

/-- The output of the generator of R40 in a state. -/
def rotOut (x : Nat) : Nat :=
  let z := (0xBF58476D1CE4E5B9 * (x ^^^ (x >>> 30))) &&& mask64
  let z := (0x94D049BB133111EB * (z ^^^ (z >>> 27))) &&& mask64
  z ^^^ (z >>> 31)

/-- The output of the generator of R40 after n + 1 steps from a state. -/
def rotWord (n : Nat) (x : Nat) : Nat :=
  match n with
  | 0 => rotOut (rotStep x)
  | n + 1 => rotWord n (rotStep x)

/-- The element's sign is −1 (R40). -/
def rotNeg (seed : BitVec 64) (t h i : Nat) : Bool :=
  (rotWord (i / 64) (seed.toNat ^^^ (t * 4294967296 + h))).testBit (i % 64)

/-- One butterfly stage over chunks of twice the stride. -/
def hadStage (fuel stride : Nat) (xs : List W32) : List W32 :=
  match fuel with
  | 0 => xs
  | fuel + 1 =>
    if xs.isEmpty then []
    else
      let a := xs.take stride
      let c := (xs.drop stride).take stride
      (List.zipWith fAdd a c) ++ (List.zipWith fSub a c) ++ hadStage fuel stride (xs.drop (2 * stride))

/-- log2(b) stages from a stride on. -/
def hadStages (n stride : Nat) (xs : List W32) : List W32 :=
  match n with
  | 0 => xs
  | n + 1 => hadStages n (2 * stride) (hadStage (xs.length + 1) stride xs)

/-- c_b = RNE(1 / sqrt(b)) (R39). -/
def rotC (b : Nat) : W32 := if b = 32 then 0x3E3504F3#32 else if b = 64 then 0x3E000000#32 else 0x3DB504F3#32

def applySigns (seed : BitVec 64) (t h : Nat) (xs : List W32) : List W32 :=
  (xs.zipIdx).map (fun e => if rotNeg seed t h e.2 then fNeg e.1 else e.1)

/-- Cut a list into blocks. -/
def blocksOf {α : Type} (fuel n : Nat) (xs : List α) : List (List α) :=
  match fuel with
  | 0 => []
  | fuel + 1 => if xs.isEmpty then [] else xs.take n :: blocksOf fuel n (xs.drop n)

/-- The forward rotation of a head vector (R39). -/
def Fmt.rotate (f : Fmt) (t h : Nat) (xs : List W32) : List W32 :=
  if f.rot = 0 then xs
  else
    let b := f.rotBlock
    (blocksOf (xs.length + 1) b (applySigns f.seed t h xs)).flatMap
      (fun y => (hadStages (4 + f.rot) 1 y).map (fun x => fMul x (rotC b)))

/-- The inverse rotation (R39): stages, c_b, signs. -/
def Fmt.unrotate (f : Fmt) (t h : Nat) (xs : List W32) : List W32 :=
  if f.rot = 0 then xs
  else
    let b := f.rotBlock
    applySigns f.seed t h ((blocksOf (xs.length + 1) b xs).flatMap
      (fun y => (hadStages (4 + f.rot) 1 y).map (fun x => fMul x (rotC b))))

-- Quantization (R35).

def qmaxOf (code : Nat) : W32 := if code = 1 then 0x43E00000#32 else if code = 2 then 0x42FE0000#32 else 0x40E00000#32

/-- The greatest magnitude of a block. -/
def maxAbs (xs : List W32) : W32 := xs.foldl (fun m x => if fLt m (fAbs x) then fAbs x else m) 0#32

def clampInt (q x : Int) : Int := if x < -q then -q else if q < x then q else x

/-- A code of a scaled format as an unsigned pattern of its width. -/
def codeOf (code : Nat) (y : W32) : Nat :=
  if code = 1 then e4m3Of y
  else if code = 2 then (clampInt 127 (fRneInt y) % 256).toNat
  else (clampInt 7 (fRneInt y) % 16).toNat

/-- One block: codes, BF16 scale, and whether it was flushed; none when a scale is not finite (R35, R36). -/
def quantBlock (code : Nat) (xs : List W32) : Option (List Nat × Nat × Bool) :=
  let a := maxAbs xs
  if fIsZero a then some (xs.map (fun _ => 0), 0, false)
  else
    let s32 := fDiv a (qmaxOf code)
    let sc := bfOf s32
    if !fFinite s32 || !bfFinite sc then none
    else if sc % 32768 = 0 then some (xs.map (fun _ => 0), 0, true)
    else some (xs.map (fun x => codeOf code (fDiv x (fOfBf sc))), sc, false)

/-- Every element of a list of options, or none. -/
def allSome {α : Type} (l : List (Option α)) : Option (List α) :=
  match l with
  | [] => some []
  | none :: _ => none
  | some a :: rest => (allSome rest).map (a :: ·)

/-- Pack nibbles, the even element low (R30). -/
def packNibbles (l : List Nat) : List Nat :=
  match l with
  | a :: b :: rest => (a + 16 * b) :: packNibbles rest
  | [a] => [a]
  | [] => []

/-- A head record (R30) from FP32 values: bytes, and the blocks flushed; none when a value is not finite (R36). -/
def headRecord (code : Nat) (xs : List W32) : Option (List Byte × Nat) :=
  if !xs.all fFinite then none
  else if code = 0 then
    let bs := xs.map bfOf
    if bs.all bfFinite then some (bs.flatMap (leBytes 2), 0) else none
  else
    match allSome ((blocksOf (xs.length + 1) 32 xs).map (quantBlock code)) with
    | none => none
    | some bl =>
      let codes := bl.flatMap (·.1)
      let packed := if code = 3 then packNibbles codes else codes
      some (packed.map (BitVec.ofNat 8) ++ bl.flatMap (fun b => leBytes 2 b.2.1), (bl.filter (·.2.2)).length)

/-- BF16 patterns of a byte list, as FP32 (R26). -/
def bfVec (n : Nat) (bs : List Byte) : List W32 := (chunkLe 2 n bs).map fOfBf

/-- A token record (R30, R34) from its BF16 row at a position: bytes and flushed blocks; none when not finite (R36). -/
def Fmt.tokenRecord (f : Fmt) (angles : List (W32 × W32)) (row : List Byte) : Option (List Byte × Nat) :=
  let head (t h : Nat) : Option (List Byte × Nat) :=
    let x := bfVec f.d (row.drop (2 * f.d * (t * f.hkv + h)))
    let x := if t = 0 && f.rope != 0 then f.ropeApply angles x else x
    headRecord (if t = 0 then f.kfmt else f.vfmt) (f.rotate t h x)
  match allSome ((List.range f.hkv).map (head 0) ++ (List.range f.hkv).map (head 1)) with
  | none => none
  | some hs => some (hs.flatMap (·.1), (hs.map (·.2)).foldl (· + ·) 0)

-- Decoding (R28, R29, R45).

/-- A stored or query element: significand and exponent, or none when it is not finite (R29). -/
abbrev Elt := Option (Int × Int)

def eltOfF (x : W32) : Elt := if fFinite x then some (fSigned x, fUnit x) else none

def signExt (w n : Nat) : Int := if n.testBit (w - 1) then (n : Int) - 2 ^ w else (n : Int)

/-- The element a code of a format stands for, its block scale apart. -/
def eltOf (code n : Nat) : Elt :=
  if code = 0 then eltOfF (if bfFinite n then fOfBf n else fNaN)
  else if code = 1 then (e4m3Val n).map (fun v => (v, -9))
  else if code = 2 then some (signExt 8 n, 0)
  else some (signExt 4 n, 0)

/-- The element codes of a head record. -/
def headCodes (code d : Nat) (rec : List Byte) : List Nat :=
  if code = 0 then chunkLe 2 d rec
  else if code = 3 then ((chunkLe 1 (d / 2) rec).flatMap (fun b => [b % 16, b / 16])) ++ (if d % 2 = 1 then [leAt rec (d / 2) 1] else [])
  else chunkLe 1 d rec

/-- The block scales of a head record; 1 for KV16, which has none. -/
def headScales (code d : Nat) (rec : List Byte) : List W32 :=
  if code = 0 then (List.range (ceilDiv d 32)).map (fun _ => fOne)
  else (chunkLe 2 (ceilDiv d 32) (rec.drop (elemBytes code d))).map
    (fun b => if bfFinite b then fOfBf b else if b % 128 = 0 then fInf (b.testBit 15) else fNaN)

/-- FP32 of an element, exactly. -/
def fOfElt (e : Elt) : W32 :=
  match e with
  | none => fNaN
  | some (m, k) => fOfDyadic (decide (m < 0)) m.natAbs k

/-- A head record as FP32 values: code × scale (R45); a stored infinity stays one (R29). -/
def headValues (code d : Nat) (rec : List Byte) : List W32 :=
  let cs := headCodes code d rec
  if code = 0 then cs.map fOfBf
  else
    let bl := (blocksOf (d + 1) 32 cs).zip (headScales code d rec)
    bl.flatMap (fun b => b.1.map (fun c => fMul (fOfElt (eltOf code c)) b.2))

/-- The head record of head h of stream t (0 keys, 1 values) of the j-th token of a payload (R30, R59). -/
def Fmt.headAt (f : Fmt) (payload : List Byte) (j t h : Nat) : List Byte :=
  let kb := headBytes f.kfmt f.d
  let vb := headBytes f.vfmt f.d
  let off := j * f.tokenBytes + (if t = 0 then h * kb else f.hkv * kb + h * vb)
  sliceBytes payload off (if t = 0 then kb else vb)

-- Scores (R44).

/-- An exact sum of products of two lists of elements, as significand and exponent; none when one is not finite. -/
def dotExact (xs ys : List Elt) (acc : Int) (k : Int) : Elt :=
  match xs, ys with
  | some (a, i) :: xs, some (b, j) :: ys =>
    let p := a * b
    if p = 0 then dotExact xs ys acc k
    else if acc = 0 then dotExact xs ys p (i + j)
    else
      let m := min k (i + j)
      dotExact xs ys (acc * 2 ^ (k - m).toNat + p * 2 ^ (i + j - m).toNat) m
  | none :: _, _ :: _ => none
  | some _ :: _, none :: _ => none
  | _, _ => some (acc, k)

/-- The block terms t_b of R44, summed in block order; 0 blocks never occur. -/
def sumBlocks (ts : List W32) : W32 :=
  match ts with
  | [] => 0#32
  | t :: rest => rest.foldl fAdd t

/-- The dot product q·k of R44 from block lists: query elements, key elements, key scales and query scales. A block sum that is exactly 0 is
+0, whose sign R44 does not give (DESIGN CHOICE, log entry 75). -/
def dotBlocks (qs ks : List (List Elt)) (kScale qScale : List W32) (scaled fp8 : Bool) : W32 :=
  let term (b : (List Elt × List Elt) × (W32 × W32)) : W32 :=
    match dotExact b.1.1 b.1.2 0 0 with
    | none => fNaN
    | some (m, k) =>
      let t := fOfDyadic (decide (m < 0)) m.natAbs k
      let t := if scaled then fMul t b.2.1 else t
      if fp8 then fMul t b.2.2 else t
  sumBlocks (((qs.zip ks).zip (kScale.zip qScale)).map term)

/-- Prepared query elements: FP32 patterns of BF16 values, or FP8 codes. -/
def queryElts (fp8 : Bool) (q : List W32) : List (List Elt) :=
  blocksOf (q.length + 1) 32 (q.map (fun x => if fp8 then (e4m3Val x.toNat).map (fun v => (v, -9)) else eltOfF x))

/-- q·k for a prepared query and a key head record (R44). -/
def Fmt.dot (f : Fmt) (fp8 : Bool) (q qsc : List W32) (krec : List Byte) : W32 :=
  let n := ceilDiv f.d 32
  dotBlocks (queryElts fp8 q) (blocksOf (f.d + 1) 32 ((headCodes f.kfmt f.d krec).map (eltOf f.kfmt)))
    (headScales f.kfmt f.d krec) (if fp8 then qsc else (List.range n).map (fun _ => fOne)) (f.kfmt != 0) fp8

/-- The prepared form of one query head vector (R41, R42): elements and scales; none when not finite (R51, R96). -/
def Fmt.prepare (f : Fmt) (fp8 : Bool) (h : Nat) (x : List W32) : Option (List W32 × List W32) :=
  let y := f.rotate 0 h x
  if !x.all fFinite || !y.all fFinite then none
  else if fp8 then
    match allSome ((blocksOf (y.length + 1) 32 y).map (quantBlock 1)) with
    | none => none
    | some bl => some (bl.flatMap (fun b => b.1.map (BitVec.ofNat 32)), bl.map (fun b => fOfBf b.2.1))
  else
    let bs := y.map bfOf
    if bs.all bfFinite then some (bs.map fOfBf, []) else none

-- Page partials and merges (R47, R48).

/-- The partial of no attended position (R47). -/
def Partial.empty (d : Nat) : Partial := { m := fNegInf, l := 0#32, u := List.replicate d 0#32, count := 0 }

/-- The greatest score. R47 does not say which zero m is when the greatest scores are zeros of both signs: the first of them in position order
(DESIGN CHOICE, log entry 75). -/
def maxScore (l : List (W32 × List W32)) : W32 := l.foldl (fun m e => if fLt m e.1 then e.1 else m) fNegInf

/-- The running sums of R47 over (score, value vector) in ascending position order. -/
def partialFold (m : W32) (l : List (W32 × List W32)) (p : Partial) : Partial :=
  l.foldl (fun p e =>
    let w := fExp (fSub e.1 m)
    { p with l := fAdd p.l w, u := List.zipWith (fun u v => fAdd u (fMul w v)) p.u e.2 }) p

/-- The page partial of R47. -/
def pagePartial (d : Nat) (l : List (W32 × List W32)) : Partial :=
  if l.isEmpty then Partial.empty d
  else
    let m := maxScore l
    partialFold m l { Partial.empty d with m := m, count := l.length }

/-- Every number of a partial is finite; m may be −inf for the empty one (R51). -/
def Partial.finite (p : Partial) : Bool := (p.count == 0 || fFinite p.m) && fFinite p.l && p.u.all fFinite

/-- The merge step of R48: a then b. -/
def Partial.merge (a b : Partial) : Partial :=
  let m := fMax a.m b.m
  if m = fNegInf then { m := fNegInf, l := 0#32, u := a.u.map (fun _ => 0#32), count := a.count + b.count }
  else
    let wa := fExp (fSub a.m m)
    let wb := fExp (fSub b.m m)
    { m := m, l := fAdd (fMul a.l wa) (fMul b.l wb),
      u := List.zipWith (fun x y => fAdd (fMul x wa) (fMul y wb)) a.u b.u, count := a.count + b.count }

/-- The steps of exp stay finite for a difference (R46, R51). -/
def expOk (x : W32) : Bool := fFinite x && fFinite (fMul x expL2e)

/-- No difference of a merge is infinite (R51); a partial of no position takes no part. -/
def Partial.mergeOk (a b : Partial) : Bool :=
  let m := fMax a.m b.m
  a.count == 0 || b.count == 0 || (expOk (fSub a.m m) && expOk (fSub b.m m))

/-- No difference of a fold is infinite (R51). -/
def foldOk (a : Partial) (l : List Partial) : Bool :=
  match l with
  | [] => true
  | p :: rest => a.mergeOk p && foldOk (a.merge p) rest

/-- No difference of the page fold is infinite (R51). -/
def pageOk (l : List (W32 × List W32)) : Bool := l.all (fun e => expOk (fSub e.1 (maxScore l)))

/-- Fold partials in list order (R48). -/
def foldPartials (d : Nat) (l : List Partial) : Partial :=
  match l with
  | [] => Partial.empty d
  | p :: rest => rest.foldl Partial.merge p

/-- The output of R49 before rounding to the proof format: o = u / l, or 0, unrotated with the value signs (R41). -/
def Fmt.finishO (f : Fmt) (h : Nat) (p : Partial) : List W32 :=
  let o := if fLt 0#32 p.l then p.u.map (fun x => fDiv x p.l) else p.u.map (fun _ => 0#32)
  f.unrotate 1 h o

-- Microprograms (R102, R103).

/-- The fields of an instruction word. -/
def mpOp (w : W32) : Nat := w.toNat >>> 26
def mpD (w : W32) : Nat := (w.toNat >>> 22) % 16
def mpA (w : W32) : Nat := (w.toNat >>> 18) % 16
def mpB (w : W32) : Nat := (w.toNat >>> 14) % 16
def mpImm (w : W32) : Nat := w.toNat % 16384

/-- An instruction's fields are in range and its unused fields 0 (R102, R105). -/
def mpOk (consts : Nat) (w : W32) : Bool :=
  let op := mpOp w
  let d := mpD w; let a := mpA w; let b := mpB w; let i := mpImm w
  if op = 0x00 then d == 0 && a == 0 && b == 0 && i == 0
  else if op ≤ 0x06 then i == 0
  else if op ≤ 0x0B then b == 0 && i == 0
  else if op = 0x0C then a == 0 && b == 0 && decide (i ≤ 3)
  else if op = 0x0D then a == 0 && b == 0 && decide (i < consts)
  else if op ≤ 0x10 then i == 0
  else if op = 0x11 then b == 0 && i == 0
  else if op = 0x12 then d == 0 && b == 0 && i == 0
  else false

/-- MPROG_LOAD's checks of the list (R102, R105). -/
def mprogOk (words consts : List W32) : Bool :=
  decide (1 ≤ words.length) && decide (words.length ≤ 64) && decide (consts.length ≤ 64) &&
  words.any (fun w => mpOp w == 0) && words.all (mpOk consts.length)

def regAt (rs : List W32) (i : Nat) : W32 := rs.getD i 0#32

/-- A subnormal parameter or constant is read as a zero of its sign (R25). -/
def fFlush (x : W32) : W32 := if fIsZero x then x &&& 0x80000000#32 else x

/-- Run a microprogram: registers and the mask so far; the answer is f0 and the mask (R102, R103). -/
def mpRun (prog : List W32) (consts params : List W32) (rs : List W32) (masked : Bool) : W32 × Bool :=
  match prog with
  | [] => (regAt rs 0, masked)
  | w :: rest =>
    let op := mpOp w
    let a := regAt rs (mpA w)
    let b := regAt rs (mpB w)
    let put (v : W32) := rs.set (mpD w) v
    let one (c : Bool) : W32 := if c then fOne else 0#32
    if op = 0x00 then (regAt rs 0, masked)
    else if op = 0x12 then mpRun rest consts params rs (masked || fNonzero a)
    else
      let rs' :=
        if op = 0x01 then put (fAdd a b) else if op = 0x02 then put (fSub a b) else if op = 0x03 then put (fMul a b)
        else if op = 0x04 then put (fDiv a b) else if op = 0x05 then put (fMin a b) else if op = 0x06 then put (fMax a b)
        else if op = 0x07 then put (fAbs a) else if op = 0x08 then put (fNeg a) else if op = 0x09 then put (fFloor a)
        else if op = 0x0A then put (fExp a) else if op = 0x0B then put (fSoftcap fOne a)
        else if op = 0x0C then put (fFlush (params.getD (mpImm w) 0#32))
        else if op = 0x0D then put (fFlush (consts.getD (mpImm w) 0#32))
        else if op = 0x0E then put (one (fLt a b)) else if op = 0x0F then put (one (fEq a b))
        else if op = 0x10 then (if fNonzero b then put a else rs)
        else put a
      mpRun rest consts params rs' masked

end Sys2Proof.Machine
end

