-- ==== Sys2Proof/Machine/Codec.lean ====
section
/-! DEFINITION. The page codec (R242 to R255): classes and symbols, package-merge lengths, canonical codes, the 64 streams, the
code table, and the decoder with its checks.
Log entries 15. -/

namespace Sys2Proof.Machine

open Sys2Proof

/-- The payload area (R43), the segment size and the limit of R250. -/
def payloadBytes : Nat := 63488
def segBytes : Nat := 992
def encLimit : Nat := 62976

/-- The class of the coded byte at a payload offset (R244). -/
def Fmt.byteClass (f : Fmt) (o : Nat) : Nat :=
  let r := o % f.tokenBytes
  let kb := f.hkv * headBytes f.kfmt f.d
  if r < kb then (if r % headBytes f.kfmt f.d < elemBytes f.kfmt f.d then 0 else 1)
  else if (r - kb) % headBytes f.vfmt f.d < elemBytes f.vfmt f.d then 2 else 3

/-- An element byte of a KV4I class is two symbols, the low nibble first (R244). -/
def Fmt.nibbles (f : Fmt) (cls : Nat) : Bool := (cls == 0 && f.kfmt == 3) || (cls == 2 && f.vfmt == 3)

/-- The symbols of a run of payload bytes from an offset: class and value (R244). -/
def Fmt.symbols (f : Fmt) (o : Nat) (bs : List Byte) : List (Nat × Nat) :=
  (bs.zipIdx o).flatMap (fun e =>
    let c := f.byteClass e.2
    let v := e.1.toNat
    if f.nibbles c then [(c, v % 16), (c, v / 16)] else [(c, v)])

/-- Counts of the values of a class, by value (R246). -/
def countSyms (cls : Nat) (syms : List (Nat × Nat)) (m : FMap Nat) : FMap Nat :=
  match syms with
  | [] => m
  | (c, v) :: rest => countSyms cls rest (if c = cls then m.set v ((m.get? v).getD 0 + 1) else m)

/-- A package: its weight and the items in it, each as often as it was packed (log entry 15). -/
abbrev Pkg := Nat × List Nat

/-- Insert by (count, value). -/
def insItem (a : Nat × Nat) (l : List (Nat × Nat)) : List (Nat × Nat) :=
  match l with
  | [] => [a]
  | b :: rest => if a.1 < b.1 || (a.1 == b.1 && a.2 < b.2) then a :: b :: rest else b :: insItem a rest

/-- Pair consecutive entries; an odd last one is dropped (R246). -/
def pairUp (l : List Pkg) : List Pkg :=
  match l with
  | a :: b :: rest => (a.1 + b.1, a.2 ++ b.2) :: pairUp rest
  | _ => []

/-- Stable merge by weight: at equal weight an item precedes a package (R246). -/
def mergePkgs (fuel : Nat) (items pkgs : List Pkg) : List Pkg :=
  match fuel with
  | 0 => []
  | fuel + 1 =>
    match items, pkgs with
    | [], ps => ps
    | is, [] => is
    | i :: is, p :: ps => if i.1 ≤ p.1 then i :: mergePkgs fuel is (p :: ps) else p :: mergePkgs fuel (i :: is) ps

def pmRounds (n : Nat) (items l : List Pkg) : List Pkg :=
  match n with
  | 0 => l
  | n + 1 =>
    let pk := pairUp l
    pmRounds n items (mergePkgs (items.length + pk.length + 1) items pk)

/-- The code lengths of a class by value (R246): none for a value that does not occur. -/
def codeLengths (counts : FMap Nat) : FMap Nat :=
  let items := (counts.map (fun e => (e.2, e.1))).foldl (fun l a => insItem a l) []
  match items with
  | [] => []
  | [a] => [(a.2, 1)]
  | _ =>
    let base : List Pkg := items.map (fun a => (a.1, [a.2]))
    let taken := (pmRounds 11 base base).take (2 * (items.length - 1))
    let all := taken.flatMap (·.2)
    counts.map (fun e => (e.1, (all.filter (· == e.1)).length))

/-- Values in the order of canonical codes: by length, then value (R247). -/
def canonOrder (lens : FMap Nat) : List (Nat × Nat) :=
  (lens.filter (fun e => e.2 != 0)).foldl (fun l e => insItem (e.2, e.1) l) []

/-- Canonical codes from ordered (length, value): value, length and code (R247). -/
def canonFrom (l : List (Nat × Nat)) (code prev : Nat) (first : Bool) : List (Nat × Nat × Nat) :=
  match l with
  | [] => []
  | (len, v) :: rest =>
    let c := if first then 0 else (code + 1) <<< (len - prev)
    (v, len, c) :: canonFrom rest c len false

def canonCodes (lens : FMap Nat) : List (Nat × Nat × Nat) := canonFrom (canonOrder lens) 0 0 true

/-- The bits of a code, most significant first (R245). -/
def codeBits (len c : Nat) : List Bool := (List.range len).map (fun i => c.testBit (len - 1 - i))

/-- The bits of a symbol under its class's codes. -/
def symBits (codes : List (List (Nat × Nat × Nat))) (s : Nat × Nat) : List Bool :=
  match (codes.getD s.1 []).find? (fun e => e.1 == s.2) with
  | some e => codeBits e.2.1 e.2.2
  | none => []

/-- Pack bits to bytes, bit k of a stream at bit (k mod 8) of byte floor(k / 8), padded with 0 (R245). -/
def packBits (fuel : Nat) (bits : List Bool) : List Byte :=
  match fuel with
  | 0 => []
  | fuel + 1 =>
    if bits.isEmpty then []
    else
      let b := ((bits.take 8).zipIdx).foldl (fun n e => if e.1 then n + 2 ^ e.2 else n) 0
      BitVec.ofNat 8 b :: packBits fuel (bits.drop 8)

/-- The coded bytes of segment i of a coded length N (R245). -/
def segment (coded : List Byte) (i : Nat) : List Byte := (coded.drop (segBytes * i)).take segBytes

/-- End offsets of the streams. -/
def endsOf (streams : List (List Byte)) (o : Nat) : List Nat :=
  match streams with
  | [] => []
  | s :: rest => (o + s.length) :: endsOf rest (o + s.length)

/-- The LEN table of a class: 128 bytes, nibble v holding the length of value v (R248). -/
def lenTable (lens : FMap Nat) : List Byte :=
  (List.range 128).map (fun i => BitVec.ofNat 8 ((lens.get? (2 * i)).getD 0 + 16 * (lens.get? (2 * i + 1)).getD 0))

/-- The CODE_TABLE field (R248), 960 bytes. -/
def codeTable (n : Nat) (lens : List (FMap Nat)) (ends : List Nat) : List Byte :=
  let classes := (lens.zipIdx).foldl (fun m e => if e.1.isEmpty then m else m + 2 ^ e.2) 0
  leBytes 4 (1 + 256 * classes) ++ leBytes 4 n ++ ends.flatMap (leBytes 2) ++ lens.flatMap lenTable ++ List.replicate 312 0#8

/-- Encode the coded bytes of a page: the streams laid back to back and the code table (R245 to R248). -/
def Fmt.encode (f : Fmt) (coded : List Byte) : List Byte × List Byte :=
  let syms := f.symbols 0 coded
  let lens := (List.range 4).map (fun c => codeLengths (countSyms c syms []))
  let codes := lens.map canonCodes
  let streams := (List.range 64).map (fun i =>
    let bits := (f.symbols (segBytes * i) (segment coded i)).flatMap (symBits codes)
    packBits (bits.length + 1) bits)
  (streams.flatten, codeTable coded.length lens (endsOf streams 0))

-- The decoder (R252 to R254).

/-- Read one symbol: walk the codes of a class, shortest first; the rest of the bits. -/
def readSym (codes : List (Nat × Nat × Nat)) (bits : List Bool) : Option (Nat × List Bool) :=
  match codes.find? (fun e => bits.take e.2.1 == codeBits e.2.1 e.2.2) with
  | some e => some (e.1, bits.drop e.2.1)
  | none => none

/-- Decode the bytes of a segment from offset o on; what is left of the stream's bits. -/
def Fmt.decodeSeg (f : Fmt) (codes : List (List (Nat × Nat × Nat))) (n : Nat) (o : Nat) (bits : List Bool) :
    Option (List Byte × List Bool) :=
  match n with
  | 0 => some ([], bits)
  | n + 1 =>
    let c := f.byteClass o
    let tab := codes.getD c []
    match readSym tab bits with
    | none => none
    | some (v, rest) =>
      if f.nibbles c then
        match readSym tab rest with
        | none => none
        | some (w, rest) => (f.decodeSeg codes n (o + 1) rest).map (fun r => (BitVec.ofNat 8 (v + 16 * w) :: r.1, r.2))
      else (f.decodeSeg codes n (o + 1) rest).map (fun r => (BitVec.ofNat 8 v :: r.1, r.2))

/-- The bits of stream bytes (R245). -/
def unpackBits (bs : List Byte) : List Bool := bs.flatMap (fun b => (List.range 8).map (fun i => b.toNat.testBit i))

/-- Σ 2^(12 − length) of a class is 2^12, or the class has one value of length 1 (R254). -/
def kraftOk (lens : FMap Nat) : Bool :=
  let l := (lens.map (·.2)).filter (· != 0)
  l == [1] || (l.foldl (fun s n => s + 2 ^ (12 - n)) 0 == 4096 && l.all (fun n => decide (n ≤ 12)))

/-- The lengths of a class from the table. -/
def tableLens (table : List Byte) (c : Nat) : FMap Nat :=
  (((List.range 128).flatMap (fun i =>
    let b := (table.getD (0x88 + 128 * c + i) 0#8).toNat
    [(2 * i, b % 16), (2 * i + 1, b / 16)])).filter (fun e => e.2 != 0))

/-- The decoder: the coded bytes, or none for a codec fault (R254). -/
def Fmt.decode (f : Fmt) (tokens : Nat) (table stored : List Byte) (encBytes : Nat) : Option (List Byte) :=
  let n := tokens * f.tokenBytes
  let w0 := leAt table 0 4
  let ends := (List.range 64).map (fun i => leAt table (8 + 2 * i) 2)
  let lens := (List.range 4).map (tableLens table)
  let classes := (w0 / 256) % 16
  let used (c : Nat) : Bool := (List.range (min n f.tokenBytes)).any (fun o => f.byteClass o == c)
  let nib (c : Nat) : Bool := f.nibbles c
  let headOk := w0 % 256 == 1 && w0 / 4096 == 0 && leAt table 4 4 == n && (table.drop 0x288).all (· == 0#8) &&
    ((0 :: ends).zip ends).all (fun e => decide (e.1 ≤ e.2)) && ends.getD 63 0 == encBytes &&
    (List.range 4).all (fun c =>
      let l := lens.getD c []
      (if classes.testBit c then kraftOk l else l.isEmpty) && (!used c || classes.testBit c) &&
      (!nib c || l.all (fun e => decide (e.1 < 16))))
  if !headOk then none
  else
    let codes := lens.map canonCodes
    let seg (i : Nat) : Option (List Byte) :=
      let lo := if i = 0 then 0 else ends.getD (i - 1) 0
      let bits := unpackBits ((stored.drop lo).take (ends.getD i 0 - lo))
      let m := min segBytes (n - segBytes * i)
      match f.decodeSeg codes m (segBytes * i) bits with
      | some (bs, rest) => if rest.length < 8 && rest.all (! ·) then some bs else none
      | none => none
    (allSome ((List.range 64).map seg)).map List.flatten

/-- Granules of 256 payload bytes. -/
def granules (n : Nat) : Nat := ceilDiv n 256

end Sys2Proof.Machine
end

