-- ==== Sys2Proof/Machine/Ops.lean ====
section
/-! DEFINITION. The named operations every family shares: network time, counters, draws, interrupts, filmstrip records, error
records, ridges, and the service of a mailbox message.
Log entries 1, 2, 3, 4, 12, 13, 20, 27, 40, 46, 47, 50, 51, 53, 55, 56, 58, 61, 67, 69. -/

namespace Sys2Proof.Machine

open Sys2Proof

-- Network time and counters.

/-- Network time now (R7). -/
def State.now (s : State) : Nat := s.time.now

/-- 2^64 − 1, where a counter saturates (R407). -/
def ctrMax : Nat := 18446744073709551615

/-- Put a value at a counter's place in a counter list. -/
def ctrPut (l : List (Ctr × Nat)) (c : Ctr) (v : Nat) : List (Ctr × Nat) :=
  match l with
  | [] => [(c, v)]
  | (d, w) :: rest => if d = c then (c, v) :: rest else (d, w) :: ctrPut rest c v

/-- The value at a counter's place; 0 where nothing is held. -/
def ctrGet (l : List (Ctr × Nat)) (c : Ctr) : Nat :=
  match l with
  | [] => 0
  | (d, w) :: rest => if d = c then w else ctrGet rest c

/-- A counter's value. -/
def State.ctr (s : State) (c : Ctr) : Nat := ctrGet s.ctrs c

/-- Set a counter. -/
def State.setCtr (s : State) (c : Ctr) (v : Nat) : State := { s with ctrs := ctrPut s.ctrs c (min v ctrMax) }

/-- The counters of the filmstrip engine and of the stop itself run while a cut is held; every other one is frozen (R468, R474). -/
def Ctr.runsHeld (c : Ctr) : Bool :=
  match c with
  | .node i => decide (2304 ≤ i) && decide (i ≤ 2310)
  | .ridge _ _ => false
  | .cirque _ _ => false
  | .index _ _ _ => false
  | .bank _ _ => false

/-- CNT: add to a counter, saturating (R407). -/
def State.bumpBy (s : State) (c : Ctr) (n : Nat) : State :=
  if n = 0 || (s.trace.held && !c.runsHeld) then s else s.setCtr c (s.ctr c + n)

/-- CNT: count one event (R407). -/
def State.bump (s : State) (c : Ctr) : State := s.bumpBy c 1

/-- MAX: hold the highest value (R407). -/
def State.maxCtr (s : State) (c : Ctr) (v : Nat) : State := if s.ctr c < v && !s.trace.held then s.setCtr c v else s

/-- Zero the counters a test names (R407). -/
def State.clearCtrs (s : State) (p : Ctr → Bool) : State := { s with ctrs := s.ctrs.filter (fun e => !p e.1) }

/-- A counter of a ridge's own section, where there is a ridge of that number (R409). -/
def State.bumpR (s : State) (r i : Nat) : State := s.bump (.ridge r i)

/-- A counter of a cirque's section (R410). -/
def State.bumpC (s : State) (c i : Nat) : State := s.bump (.cirque c i)

/-- A counter of the node section (R413). -/
def State.bumpN (s : State) (i : Nat) : State := s.bump (.node i)

/-- Core-clock cycles of 1.1 GHz up to an instant (R455). -/
def cyclesAt (t : Nat) : Nat := t * 11 / 10

/-- Cycles between two instants. -/
def cyclesIn (t0 t1 : Nat) : Nat := cyclesAt t1 - cyclesAt t0

/-- The event a selector chooses after cold reset: cirque counter i selects i + 1 for i below 22, global i + 1 below 20;
levels in ACCUM mode (R456). -/
def evDefault (c : Option Nat) (i : Nat) : Nat × EvMode :=
  match c with
  | some _ => if i < 22 then (i + 1, if i + 1 = 0x0F || i + 1 = 0x14 then .accum else .count) else (0, .count)
  | none => if i < 20 then (i + 1, if i + 1 = 0x08 || i + 1 = 0x09 || i + 1 = 0x10 then .accum else .count) else (0, .count)

/-- The key of a selector's owner: the cirque, or 16 for a global counter. -/
def evKey (c : Option Nat) : Nat := c.getD 16

/-- The selector of a counter in force (R456). -/
def State.evSelOf (s : State) (c : Option Nat) (i : Nat) : Nat × EvMode :=
  match s.trace.evsel.find? (fun e => e.1 == evKey c && e.2.1 == i) with
  | some e => (e.2.2.1, e.2.2.2)
  | none => evDefault c i

/-- The counter that a selector drives: cirque index 64 + i, node index 256 + i (R456). -/
def evCtr (c : Option Nat) (i : Nat) : Ctr :=
  match c with
  | some k => .cirque k (64 + i)
  | none => .node (256 + i)

/-- The counters of an owner that select an event: the default one, unless rewritten, and those written (R456). -/
def State.evCounters (s : State) (c : Option Nat) (ev : Nat) : List (Nat × EvMode) :=
  let written := s.trace.evsel.filter (fun e => e.1 == evKey c && e.2.2.1 == ev)
  let w := written.map (fun e => (e.2.1, e.2.2.2))
  let i := ev - 1
  if ev = 0 then []
  else if (s.trace.evsel.any (fun e => e.1 == evKey c && e.2.1 == i)) || (evDefault c i).1 ≠ ev then w
  else (i, (evDefault c i).2) :: w

/-- An event of some quantity, counted by every counter in COUNT mode that selects it (R456, R457). -/
def State.event (s : State) (c : Option Nat) (ev qty : Nat) : State :=
  (s.evCounters c ev).foldl (fun s e => if e.2 = .count then s.bumpBy (evCtr c e.1) qty else s) s

/-- A level over a number of cycles: ACCUM adds it on every cycle, MAX holds the highest (R456). -/
def State.levelEvent (s : State) (c : Option Nat) (ev level cycles : Nat) : State :=
  if level = 0 then s
  else (s.evCounters c ev).foldl (fun s e =>
    match e.2 with
    | .accum => s.bumpBy (evCtr c e.1) (level * cycles)
    | .max => s.maxCtr (evCtr c e.1) level
    | .count => s) s

/-- Parked packets of every connection (R284). -/
def State.parkedCount (s : State) : Nat := s.conns.foldl (fun n e => n + e.2.parked.length) 0

/-- Ingress bytes held by every ridge (R298). -/
def State.ingressHeld (s : State) : Nat := s.ingress.foldl (fun n e => n + e.2) 0

/-- The level events over a stretch of cycles (R457): reorder slots and ready items by cirque; parked packets, ingress bytes
and request slots for the node. -/
def State.levels (s : State) (cycles : Nat) : State :=
  let s := s.cirques.foldl (fun s e =>
    (s.levelEvent (some e.1) 0x0F e.2.reorder.length cycles).levelEvent (some e.1) 0x14 e.2.ready.length cycles) s
  ((s.levelEvent none 0x08 s.parkedCount cycles).levelEvent none 0x09 s.ingressHeld cycles).levelEvent none 0x10
    s.reqs.length cycles

/-- Add a quantity of the spec's open ones to a counter. -/
def State.bumpOpen (s : State) (c : Ctr) (n : Nat) : State := if s.trace.held && !c.runsHeld then s else s.setCtr c (s.ctr c + n)

/-- An event of an open quantity, counted as `State.event` counts. -/
def State.eventOpen (s : State) (c : Option Nat) (ev qty : Nat) : State :=
  (s.evCounters c ev).foldl (fun s e => if e.2 = .count then s.bumpOpen (evCtr c e.1) qty else s) s

/-- Mesh flits each cirque sends and receives in a stretch of time (R457, log entry 27). -/
def State.flits (s : State) (t0 t1 : Nat) : State :=
  (List.range 16).foldl (fun s c => (s.eventOpen (some c) 0x10 (Config.openCount 0 c t0 t1)).eventOpen (some c) 0x11
    (Config.openCount 1 c t0 t1)) s

/-- Time passes up to a command's instant, a 64-bit count (R7): network time never runs back between commands (log entry 1), and the level
counters accumulate unless a cut is held or the cell clocks are off (R468, R475). -/
def State.advance (s : State) (t : Nat) : State :=
  let t := t % 2 ^ 64
  if t ≤ s.time.now then s
  else
    let c := cyclesIn s.time.now t
    let s := if s.trace.held || 2 ≤ s.power.state then s else (s.levels c).flits s.time.now t
    { s with time := { s.time with now := t } }

-- Free values.

/-- A 64-bit draw of the TRNG (log entry 3). -/
def State.draw (s : State) : BitVec 64 × State := (Config.trng s.draws, { s with draws := s.draws + 1 })

/-- A byte the spec leaves open (log entry 4). -/
def State.drawByte (s : State) : Byte × State := (Config.freeByte s.draws, { s with draws := s.draws + 1 })

/-- A number the spec leaves open (log entry 4). -/
def State.drawNat (s : State) : Nat × State := (Config.freeNat s.draws, { s with draws := s.draws + 1 })

-- Identity (R356).

/-- The bytes of an ASCII text. -/
def asciiBytes (t : String) : List Byte := t.toList.map (fun c => BitVec.ofNat 8 c.toNat)

/-- The DEVICE_ID that the identity keys give (R356). -/
def deviceIdOf : BitVec 128 :=
  let seed := Config.hkdf Config.uds (asciiBytes "calagon identity") 64
  BitVec.ofNat 128 ((Config.sha384 (Config.publicKeys seed)).toNat % 2 ^ 128)

/-- DEVICE_ID: none where the PUF gave no identity (R356). -/
def BootSt.deviceId (b : BootSt) : BitVec 128 := if b.identity then deviceIdOf else 0

-- What leaves the node, and interrupts.

/-- Put something on an interface (log entry 2). -/
def State.emit (s : State) (o : Out) : State := { s with out := s.out ++ [o] }

/-- The function of a key. -/
def fnOfKey (k : Nat) : Fn := if k = 0 then .pf else if k = 17 then .bmc else .vf k

/-- What a function holds. -/
def State.func (s : State) (k : Nat) : Func := (s.funcs.get? k).getD (Func.fresh false)

def State.modFunc (s : State) (k : Nat) (f : Func → Func) : State := { s with funcs := s.funcs.adjust k f }

/-- An MSI-X message; it stays pending while a cut is held (R468). -/
def State.msix (s : State) (k vector : Nat) : State :=
  if s.trace.held then { s with trace := { s.trace with heldMsix := s.trace.heldMsix ++ [(k, vector)] } }
  else s.emit (.msix (fnOfKey k) vector)

/-- A cause bit is set; the vector-0 message goes when it rises while enabled (R403). Undefined bits of the function never
set. -/
def State.raiseCause (s : State) (k bit : Nat) : State :=
  if (causeMask k).testBit bit && decide (k < 17) then
    let f := s.func k
    if f.cause.toNat.testBit bit then s
    else
      let s := s.modFunc k (fun f => { f with cause := BitVec.ofNat 32 (f.cause.toNat ||| 2 ^ bit) })
      if f.enable.toNat.testBit bit then s.msix k 0 else s
  else s

/-- A cause reported to a ridge's function and to the PF. -/
def State.raiseRidge (s : State) (r bit : Nat) : State :=
  if r = 0 then s.raiseCause 0 bit else (s.raiseCause r bit).raiseCause 0 bit

/-- A cause reported to every VF of a ridge that is not Absent, and to the PF. -/
def State.raiseAll (s : State) (bit : Nat) : State :=
  s.ridges.foldl (fun s e => if e.2.state ≠ .absent then s.raiseCause e.1 bit else s) s

-- Ridges.

/-- A ridge. -/
def State.ridge (s : State) (r : Nat) : Ridge := (s.ridges.get? r).getD (Ridge.fresh .absent)

def State.modRidge (s : State) (r : Nat) (f : Ridge → Ridge) : State := { s with ridges := s.ridges.adjust r f }

/-- A tenant ridge that is not Absent (R303). -/
def State.tenantExists (s : State) : Bool := s.ridges.any (fun e => e.1 != 0 && e.2.state != .absent)

/-- The ridge that owns a cirque (R14, R402). -/
def State.ownerOf (s : State) (c : Nat) : Option Nat :=
  (s.ridges.find? (fun e => e.2.p.cirques.contains c && e.2.state != .absent)).map (·.1)

/-- A cirque is being zeroed under step 7 of R347 (OWNER 30): its ridge is Closing and its key is gone. -/
def State.zeroing (s : State) (c : Nat) : Bool :=
  s.ridges.any (fun e => e.2.p.cirques.contains c && e.2.state == .closing && e.2.key.isNone)

/-- A cirque is unassigned (OWNER 31). -/
def State.unassigned (s : State) (c : Nat) : Bool := (s.ownerOf c).isNone

/-- The cirques of a ridge in ascending number: cirque index k is the k-th (R73). -/
def Ridge.cirques (r : Ridge) : List Nat := r.p.cirques

/-- The cirque of a home index k in a ridge (R73). -/
def State.cirqueAt (s : State) (r k : Nat) : Nat := ((s.ridge r).cirques)[k]?.getD 0

/-- A ridge is served: Open or Draining (R368). -/
def State.ridgeUp (s : State) (r : Nat) : Bool := (s.ridge r).state == .opened || (s.ridge r).state == .draining

/-- A component belongs to a ridge (R353): those of its cirques do. -/
def State.owns (s : State) (r : Nat) (c : Comp) : Bool :=
  r == 0 || (match c.cirqueOf with
    | some k => (s.ridge r).p.cirques.contains k
    | none => false)

/-- Change a ridge's state; its function and the PF are told (R369, R403). -/
def State.setRState (s : State) (r : Nat) (st : RState) : State :=
  (s.modRidge r (fun g => { g with state := st })).raiseRidge r causeRidgeState

-- Filmstrip (R458 to R463).

/-- Records the filmstrip buffer holds (R463). -/
def flmCap : Nat := 67108864

/-- A record of this type, ridge and source is chosen (R461). SYNC, GAP, LOSS and STOP always are. -/
def State.flmWants (s : State) (type ridge : Nat) (src : Comp) : Bool :=
  s.trace.mode != .off && (type == 0x01 || type == 0x0D || type == 0x0E || type == 0x0F ||
    (s.trace.sel.types.testBit type && (ridge == 31 || s.trace.sel.ridges.testBit ridge) && s.trace.sel.cirqueOk src))

/-- The node's number. -/
def State.nodeNo (s : State) : Nat :=
  match s.fab.cur with
  | some f => f.node
  | none => 0

/-- Where the numbers of a record's body lie, as offset and width in bytes, in the order they are held in (R459). -/
def flmLayout (type : Nat) : List (Nat × Nat) :=
  match type with
  | 0x01 => [(16, 6), (22, 1), (24, 2)]
  | 0x02 => [(16, 3), (19, 3), (22, 3), (25, 1), (26, 2), (28, 2)]
  | 0x03 => [(16, 3), (19, 3), (22, 3), (25, 1), (26, 2), (28, 2)]
  | 0x04 => [(16, 2), (18, 1), (20, 4), (24, 6)]
  | 0x05 => [(16, 2), (18, 1), (19, 1), (20, 4), (24, 4)]
  | 0x06 => [(16, 1), (20, 4), (24, 3), (27, 1)]
  | 0x07 => [(16, 1)]
  | 0x08 => [(16, 1), (20, 4), (24, 2)]
  | 0x09 => [(16, 1), (17, 1), (18, 1), (19, 1)]
  | 0x0A => [(16, 6), (22, 1), (23, 1)]
  | 0x0B => [(16, 1)]
  | 0x0C => [(16, 1), (20, 4), (24, 1)]
  | 0x0D => [(16, 8)]
  | 0x0E => [(16, 8), (24, 8)]
  | 0x0F => [(16, 1), (24, 8)]
  | 0x10 => [(16, 4)]
  | _ => []

/-- The 32 bytes of a record (R458). -/
def FlmRec.bytes (r : FlmRec) : List Byte :=
  let head := leBytes 8 r.stamp ++ leBytes 1 r.type ++ leBytes 1 r.src.kind ++ leBytes 2 r.src.id ++ leBytes 1 r.ridge
  (r.body.zip (flmLayout r.type)).foldl (fun bs e => putBytes bs e.2.1 (leBytes e.2.2 e.1)) (sliceBytes head 0 32)

/-- A filmstrip frame (R462): the 16-byte header, the records, and the CRC-32C over both. -/
def flmFrame (seq node : Nat) (rs : List FlmRec) : List Byte :=
  let b := leBytes 2 0x5CF1 ++ leBytes 2 1 ++ leBytes 4 seq ++ leBytes 2 node ++ leBytes 2 rs.length ++ leBytes 4 0 ++ rs.flatMap FlmRec.bytes
  b ++ beBytes 4 (crc32c b).toNat

/-- A record leaves by the trace port, in a frame of its own (R462, log entry 86). -/
def State.flmSend (s : State) (r : FlmRec) : State :=
  let node := if s.fab.cur.isSome then s.nodeNo else 0xFFFF
  { s with trace := { s.trace with frmSeq := (s.trace.frmSeq + 1) % 2 ^ 32 }, out := s.out ++ [.trace (flmFrame s.trace.frmSeq node [r])] }

/-- Put a record where the mode says: the port, or the buffer, or lost (R463). The buffer is held newest first. -/
def State.flmPut (s : State) (r : FlmRec) : State :=
  let s := (s.bumpN 2304).event none 0x12 1
  match s.trace.mode with
  | .off => s
  | .ring => { s with trace := { s.trace with buf := r :: s.trace.buf.take (flmCap - 1) } }
  | .stream =>
    if s.trace.portUp && s.trace.buf.isEmpty then s.flmSend r
    else if s.trace.buf.length < flmCap then { s with trace := { s.trace with buf := r :: s.trace.buf } }
    else
      let s := (s.bumpN 2305).event none 0x13 1
      { s with trace := { s.trace with loss := true, lostNow := s.trace.lostNow + 1,
                                       lostFirst := if s.trace.lostNow = 0 then r.stamp else s.trace.lostFirst } }

/-- Emit a filmstrip record (R458 to R463). -/
def State.film (s : State) (type : Nat) (src : Comp) (ridge : Nat) (body : List Nat) : State :=
  if s.flmWants type ridge src then
    s.flmPut { stamp := s.now, type := type, src := src, ridge := ridge, body := body }
  else s

-- Error records (R418 to R422).

/-- A record that names only its cause, ridge and component. -/
def ErrRec.of (cause : Cause) (ridge : Nat) (comp : Comp) : ErrRec :=
  { seq := 0, cause := cause, ridge := ridge, injected := false, comp := comp, count := 1, time := 0, tag := 0, opcode := 0,
    status := none, handle := 0, loc0 := 0, layer := 0, page := 0, head := 0, noPage := true, hidden := false, detail := [] }

/-- The DETAIL bytes of a record by its cause (R420, R425, R431, R466): the widths of its fields, the last one of the rest. -/
def Cause.detailWidths (c : Cause) : List Nat :=
  match c with
  | .advisory => [2, 1, 1]
  | .shadow => [2, 2, 2, 1, 1, 4, 4, 4, 2, 2, 2, 2, 1, 1, 2, 8]
  | .watchdog => [1, 1, 1, 1, 1, 1, 1, 1, 4]
  | .time => [8, 4, 4]
  | .uncorr | .misplaced | .codec | .codecSrc | .nonfinite | .queryFault | .outFault | .ringError | .connFail | .contrib | .loupe
  | .link | .key | .trng | .fw | .protocol | .mirror | .lease => []

/-- The 128 bytes of an error record (R420). -/
def ErrRec.bytes (e : ErrRec) : List Byte :=
  leBytes 4 e.seq ++
  leBytes 4 (1 + e.cause.code * 2 ^ 8 + e.ridge % 32 * 2 ^ 16 + flagBit e.injected 21 + e.comp.kind * 2 ^ 24) ++
  leBytes 4 ((if e.hidden then 0 else e.comp.id) + e.count * 2 ^ 16) ++ leBytes 4 0 ++ leBytes 8 e.time ++
  leBytes 4 (e.tag + e.opcode * 2 ^ 16 + (e.status.map Status.code).getD 0 * 2 ^ 24) ++ leBytes 4 e.handle ++
  leBytes 8 (if e.hidden then 0 else e.loc0) ++
  leBytes 8 (e.layer + (if e.noPage then 0 else e.page * 2 ^ 8) + e.head * 2 ^ 32 + flagBit e.noPage 42) ++ leBytes 16 0 ++
  sliceBytes ((e.cause.detailWidths.zip e.detail).flatMap (fun p => leBytes p.1 p.2)) 0 64

/-- The records a log holds: 262,144 for ridge 0, 16,384 for a tenant (R418). -/
def logCap (r : Nat) : Nat := if r = 0 then 262144 else 16384

/-- An earlier record within 1 ms, of one cause, component and location, that takes this event in its COUNT; a record that
names a command never folds (R422). -/
def ErrRec.folds (e old : ErrRec) (now : Nat) : Bool :=
  e.opcode == 0 && old.opcode == 0 && old.cause == e.cause && old.comp == e.comp && old.loc0 == e.loc0 &&
  old.ridge == e.ridge && decide (now ≤ old.time + 1000000)

/-- Fold an event into the first record that takes it. -/
def foldRec (l : List ErrRec) (e : ErrRec) (now : Nat) : Option (List ErrRec) :=
  match l with
  | [] => none
  | old :: rest =>
    if e.folds old now then some ({ old with count := min (old.count + 1) 65535 } :: rest)
    else if old.time + 1000000 < now then none
    else (foldRec rest e now).map (old :: ·)

/-- Write to one log: fold, or add with the next sequence number, losing the oldest when full (R418, R422). -/
def Log.add (l : Log) (r : Nat) (e : ErrRec) (now : Nat) : Log × Nat × Bool :=
  match foldRec l.recs e now with
  | some recs => ({ l with recs := recs }, l.next - 1, false)
  | none =>
    let full := logCap r ≤ l.recs.length
    ({ recs := { e with seq := l.next, time := now } :: l.recs.take (logCap r - 1), next := l.next + 1,
       lost := if full then l.lost + 1 else l.lost }, l.next, true)

/-- Write an error record to one ridge's log, with its interrupt and filmstrip record (R419, R459). -/
def State.logTo (s : State) (r : Nat) (e : ErrRec) : State × Nat :=
  let (log, seq, fresh) := (s.ridge r).log.add r e s.now
  let s := s.modRidge r (fun g => { g with log := log })
  if fresh then ((s.raiseCause r causeErrRecord).film 0x0C (if e.hidden then .none else e.comp) r [r, seq, e.cause.code], seq) else (s, seq)

/-- Write an error record (R418 to R420): to the log of its ridge, whose copy carries physical locations only for components
the ridge owns (R353), and to ridge 0's. The answer is its number in the ridge's own log (ERR_REF). -/
def State.logErr (s : State) (e : ErrRec) : State × Nat :=
  if e.ridge = 0 || e.ridge = 31 || (s.ridge e.ridge).state == .absent then s.logTo 0 e
  else
    let e' := if s.owns e.ridge e.comp then e else { e with hidden := true }
    let (s, seq) := s.logTo e.ridge e'
    ((s.logTo 0 e).1, seq)

/-- Write a record and drop its number. -/
def State.report (s : State) (e : ErrRec) : State := (s.logErr e).1

-- Health (R423).

/-- The accumulator's unit: 2^-32 (log entry 12). -/
def healthUnit : Nat := 4294967296

/-- Add an event's weight to a component's accumulator; injected events add nothing (R434). -/
def addScore (l : List Health) (c : Comp) (w : Nat) : List Health :=
  match l with
  | [] => [{ comp := c, acc := w * healthUnit, level := .normal, changedAt := 0, worseAt := 0 }]
  | h :: rest => if h.comp = c then { h with acc := h.acc + w * healthUnit } :: rest else h :: addScore rest c w

def State.weigh (s : State) (c : Comp) (w : Nat) (injected : Bool) : State :=
  if injected then s else { s with health := { s.health with scores := addScore s.health.scores c w } }

/-- Each lane of a breakout: the lanes of port p under its mode (R295): 8 lanes a port, dealt evenly to its breakouts. -/
def State.lanesOf (s : State) (x : Nat) : List Nat :=
  let mode := ((s.ports.get? (x / 4)).getD { mode := 0, mtu := 9000 }).mode
  let n := if mode = 0 then 8 else if mode = 1 then 4 else 2
  (List.range n).map (fun i => 8 * (x / 4) + n * (x % 4) + i)

/-- An event charged to each lane of a breakout (R423). -/
def State.weighLanes (s : State) (x w : Nat) (injected : Bool) : State :=
  (s.lanesOf x).foldl (fun s l => s.weigh (.lane l) w injected) s

-- Injections (R433).

/-- Fire an armed injection that a test picks: its count falls, and it is disarmed at 0 (R433, R436). -/
def State.fire (s : State) (pick : InjTarget → Bool) : Option State :=
  match s.health.injs.find? (fun i => pick i.target && decide (s.now < i.expiry)) with
  | none => none
  | some i =>
    let l := if i.left ≤ 1 then s.health.injs.filter (fun j => j.id != i.id)
      else s.health.injs.map (fun j => if j.id = i.id then { j with left := j.left - 1 } else j)
    some ({ s with health := { s.health with injs := l } }.bumpN 2059)

-- Power and stop.

/-- The node is outside A0 and A1, or in a transition between states (R479, R482). -/
def State.asleep (s : State) : Bool := s.power.state ≥ 2 || s.power.transit != .none

/-- Every clock but AON_CLK is stopped by THERMTRIP, or SYS_REFCLK is lost, until a cold reset (R504, R507). -/
def State.dead (s : State) : Bool := s.sns.tripped || s.sns.lost.contains .sys

/-- Engines of the core clock domain are stopped: a cut is held (R468), the node sleeps, or its clocks are stopped. -/
def State.frozen (s : State) : Bool := s.trace.held || s.asleep || s.dead

/-- Latch the first wake event, count the others (R483). During exit they are only counted. -/
def State.wakeLatch (s : State) (source breakout fn : Nat) : State :=
  if s.power.wake.isSome || s.power.transit == .exiting then s.bumpN 2339
  else { s with power := { s.power with wake := some (source, breakout, fn, s.now) } }

/-- Exit times (R484), in ns. -/
def exitNs (from_ : Nat) : Nat := if from_ = 3 then 45000000 else 2500000

/-- A wake begins the exit at once when the entry is complete (R480, R483). -/
def State.wakeUp (s : State) (source breakout fn : Nat) : State :=
  let s := s.wakeLatch source breakout fn
  if s.power.transit == .none && s.power.state ≥ 2 then
    { s with power := { s.power with transit := .exiting, fromState := s.power.state, replayed := false, target := 0,
                                     exitAt := s.now + exitNs s.power.state } }
  else s

-- Mailbox (R372 to R377, R510).

/-- Who may send a message (R378). -/
inductive Rights where
  | any
  | ridge0
  | tenant
  deriving DecidableEq, Repr

/-- How a message's own part ends: with a reply, or it goes on and replies later (the mailbox stays BUSY). -/
inductive MRes where
  | ans (s : State) (st : MStatus) (retry : Nat) (vals : List Nat)
  | wait (s : State)

/-- The fixed retry-after of a BUSY answer, in µs (R377). -/
def retryFixed : Nat := 1000

/-- The time from now to an instant in whole µs, rounded up, and never 0 (R377). -/
def State.retryTo (s : State) (at_ : Nat) : Nat := max 1 ((at_ - s.now + 999) / 1000)

/-- The same, rounded up to whole ms: the firmware switch's (R365). -/
def State.retryMs (s : State) (at_ : Nat) : Nat := 1000 * max 1 ((at_ - s.now + 999999) / 1000000)

/-- A plain answer. -/
def MRes.ok (s : State) (vals : List Nat) : MRes := .ans s .ok 0 vals

/-- A refusal that changes nothing. -/
def MRes.no (s : State) (st : MStatus) : MRes := .ans s st (if st = .busy then retryFixed else 0) []

/-- A hardware fault is answered, and an error record of ridge 0 written (R377). -/
def MRes.hw (s : State) (cause : Cause) (comp : Comp) : MRes := .ans (s.report (ErrRec.of cause 31 comp)) .hwFault 0 []

/-- Write the response, set DONE with its TAG and signal vector 0 (R373). -/
def State.answer (s : State) (k tag opcode : Nat) (st : MStatus) (retry : Nat) (vals : List Nat) : State :=
  let r : MReply := { tag := tag, opcode := opcode, status := st, retryUs := retry, vals := vals }
  let s := s.modFunc k (fun f => { f with busy := none, done := true, resp := some r })
  (s.emit (.mbox (fnOfKey k) r)).raiseCause k causeMboxDone

/-- Answer the message a mailbox has in service, if it has one (the completing rows of R344, R347, R365, R479, R488, R492). -/
def State.answerBusy (s : State) (fn : Option Fn) (st : MStatus) (retry : Nat) (vals : List Nat) : State :=
  match fn with
  | none => s
  | some f =>
    match (s.func f.key).busy with
    | none => s
    | some (op, tag) => s.answer f.key tag op st retry vals

/-- A firmware switch runs: its activation time has come (R365). -/
def State.switching (s : State) : Bool :=
  match s.boot.activation with
  | some (at_, _) => decide (at_ ≤ s.now)
  | none => false

/-- The messages that the mailboxes answer in recovery mode (R359, R361). -/
def State.inRecovery (s : State) (op : Nat) : Bool :=
  [0x0001, 0x0002, 0x0003, 0x0004, 0x0050, 0x0051].contains op || (op == 0x0052 && s.boot.floorBad)

/-- Checks 1 to 6 of R510, with the BUSY of a firmware switch or a warm reset between 3 and 4: none when all pass. -/
def State.mboxCheck (s : State) (h : MbxHdr) (op : Nat) (defined : Bool) (who : Rights) : Option (MStatus × Nat) :=
  let f := s.func h.fn.key
  let hello := defined && op == 0x0001
  if !h.framing then some (.malformed, 0)
  else if f.session.isNone && !hello then some (.noHello, 0)
  else if !((hello && h.proto == 0) || f.session == some h.proto) then some (.malformed, 0)
  else if s.switching then some (.busy, s.retryMs ((s.boot.activation.map (·.1)).getD s.now + 50000000))
  else if s.power.warmAt.isSome then some (.busy, s.retryTo (s.power.warmAt.getD 0 + 2000000000))
  else if !defined then some (.unsupported, 0)
  else if who = .ridge0 && h.fn.isVf then some (.accessDenied, 0)
  else if !h.framed || (h.fn.isVf && h.ridge.isSome) then some (.malformed, 0)
  else none

/-- The limit of a chunk series (R375). -/
def seriesCap (op : Nat) : Nat := if op = 0x0050 then 16777216 else 65536

/-- What a chunk does (R375): refused, acknowledged with more to come, or the series is whole. -/
inductive ChunkRes where
  | bad
  | more (se : Series)
  | whole
  deriving DecidableEq, Repr

/-- A chunk against the series in progress (R375). -/
def chunkStep (se : Option Series) (op tag : Nat) (c : Chunk) : ChunkRes :=
  let cur := match se with
    | some x => if x.opcode = op ∧ x.tag = tag then some x else none
    | none => none
  let next := (cur.map (·.next)).getD 0
  let totalOk := match cur with
    | some x => x.total == c.total
    | none => true
  if c.offset ≠ next || seriesCap op < c.total || !totalOk || c.total ≤ c.offset then .bad
  else if c.total < c.offset + c.bytes || (c.last && c.offset + c.bytes ≠ c.total) then .bad
  else if c.last then .whole
  else .more { opcode := op, tag := tag, total := c.total, next := c.offset + c.bytes }

/-- A VF's window is served: its ridge is Open or Draining and its number is within NumVFs (R368). -/
def State.fnServing (s : State) (f : Fn) : Bool :=
  match f with
  | .vf r => s.ridgeUp r && decide (1 ≤ r) && decide (r ≤ s.numVfs) && s.vfEnable && !s.boot.recovery
  | .pf => true
  | .bmc => true

/-- Messages whose effect needs an engine that a held cut stops (R470; the list is log entry 13). -/
def needsEngine (op : Nat) : Bool :=
  (0x0018 ≤ op && op ≤ 0x001C) || (0x0020 ≤ op && op ≤ 0x0022) || (0x0028 ≤ op && op ≤ 0x002A) ||
  (0x0034 ≤ op && op ≤ 0x0040) || (0x0048 ≤ op && op ≤ 0x004C && op != 0x0049) || (0x005A ≤ op && op ≤ 0x005C)

/-- The answer a message's own part gives reaches the mailbox. -/
def State.finishMsg (k tag op : Nat) (r : MRes) : State :=
  match r with
  | .ans s st retry vals => s.answer k tag op st retry vals
  | .wait s => s

/-- A mailbox message in service: R510, then the chunks of R375, then required TLVs (R374), then its own part. -/
def State.serve (s : State) (h : MbxHdr) (op : Nat) (defined : Bool) (who : Rights) (body : State → MRes) : State :=
  let k := h.fn.key
  let s := (s.event none 0x0F 1).modFunc k (fun f => { f with busy := some (op, h.tag), done := false })
  match s.mboxCheck h op defined who with
  | some (st, retry) => s.answer k h.tag op st retry []
  | none =>
    let run (s : State) : State :=
      if !h.complete then s.answer k h.tag op .invalidArg 0 []
      else if s.trace.held && needsEngine op then
        s.answer k h.tag op .busy (s.retryTo (s.trace.cutAt + s.trace.holdMaxS * 1000000000)) []
      else State.finishMsg k h.tag op (body s)
    match h.chunk with
    | none => run (s.modFunc k (fun f => { f with series := none }))
    | some c =>
      match chunkStep (s.func k).series op h.tag c with
      | .bad => (s.modFunc k (fun f => { f with series := none })).answer k h.tag op .invalidArg 0 []
      | .more se => (s.modFunc k (fun f => { f with series := some se })).answer k h.tag op .ok 0 []
      | .whole => run (s.modFunc k (fun f => { f with series := none }))

/-- A BAR write finds the posted-write queue of 64 entries full (R482); a SUBMIT takes one of them. -/
def State.writeQFull (s : State) : Bool := decide (64 ≤ s.power.writes.length + (s.power.msgs.filter (fun e => e.1 != .bmc)).length)

/-- A mailbox message in the request buffer (R372, R374): its header there. The body's bytes are what register writes left. -/
def State.fillRequest (s : State) (h : MbxHdr) (op : Nat) : State :=
  s.modFunc h.fn.key (fun f => { f with
    reqBuf := (chunkLe 4 4 (h.bytes op)).zipIdx.foldl (fun m e => m.put (4 * e.2) e.1) f.reqBuf })

/-- A mailbox message arrives (R373): outside A0 and A1 it wakes the node and waits (R393, R480); a SUBMIT that finds READY 0
or a window that is not served is ignored; one that finds BUSY sets OVERRUN; otherwise it is served. `i` is the command
itself. -/
def State.message (s : State) (t : Nat) (i : Instr) (h : MbxHdr) (op : Nat) (defined : Bool) (who : Rights) (body : State → MRes) :
    Host.Outcome State Fault Refusal :=
  let s := s.advance t
  if s.dead then .next s
  else if s.asleep then
    let s := if h.fn ≠ .bmc && s.writeQFull then s.bumpN 2341 else { s with power := { s.power with msgs := s.power.msgs ++ [(h.fn, i)] } }
    .next (s.wakeUp (if h.fn = .bmc then 3 else 1) 0 (if h.fn = .bmc then 0 else h.fn.key))
  else
  let s := s.fillRequest h op
  if !s.fnServing h.fn || !(s.func h.fn.key).ready || (s.boot.recovery && !s.inRecovery op) then .next s
  else if (s.func h.fn.key).busy.isSome then .next (s.modFunc h.fn.key (fun f => { f with overrun := true }))
  else .next (s.serve h op defined who body)

/-- A message of an opcode that R378 defines. -/
def State.mbox (s : State) (t : Nat) (i : Instr) (h : MbxHdr) (op : Nat) (who : Rights) (body : State → MRes) :
    Host.Outcome State Fault Refusal := s.message t i h op true who body

/-- A message about a ridge: the ridge it names, 1 to 16; without one, INVALID_ARG (R374, R378). -/
def withRidge (h : MbxHdr) (s : State) (body : Nat → MRes) : MRes :=
  match h.target with
  | none => .no s .invalidArg
  | some r => if 1 ≤ r ∧ r ≤ 16 then body r else .no s .invalidArg

-- Exposures (R142).

/-- The current exposure n_c, negative before T0 (R142). -/
def exposureAt (f : Fabric) (now : Nat) : Int := ((now : Int) - (f.t0 : Int)) / (f.period : Int)

/-- E_n (R142). -/
def openingOf (f : Fabric) (n : Nat) : Nat := f.t0 + n * f.period

/-- The deadline instant of a command (R142). -/
def deadlineOf (f : Fabric) (n us : Nat) : Nat := openingOf f n + (if us = 0 then f.deadlineUs else us) * 1000

/-- The map epoch in force; 0 without a description. -/
def State.epochNow (s : State) : Nat :=
  match s.fab.cur with
  | some f => f.epoch
  | none => 0

-- Keys of the keyed lists.

/-- A page slot's key: 450,560 slots to a cirque (R15). -/
def slotsPerCirque : Nat := 450560
def slotCirque (k : Nat) : Nat := k / slotsPerCirque
def ringKey (r i : Nat) : Nat := r * 8192 + i
def regionKey (r h : Nat) : Nat := r * 4294967296 + h
def indexKey (r x : Nat) : Nat := r * 16 + x
def groupKey (c g : Nat) : Nat := c * 64 + g
def bankKey (c j : Nat) : Nat := c * 256 + j

def State.cirque (s : State) (c : Nat) : Cirque := (s.cirques.get? c).getD Cirque.idle
def State.modCirque (s : State) (c : Nat) (f : Cirque → Cirque) : State := { s with cirques := s.cirques.set c (f (s.cirque c)) }
def Cirque.cell (c : Cirque) (e : Nat) : Cell := (c.cells.get? e).getD Cell.idle
def Cirque.modCell (c : Cirque) (e : Nat) (f : Cell → Cell) : Cirque := { c with cells := c.cells.set e (f (c.cell e)) }
def State.modCell (s : State) (c e : Nat) (f : Cell → Cell) : State := s.modCirque c (fun q => q.modCell e f)
def State.group (s : State) (k : Nat) : Group := (s.groups.get? k).getD Group.out
def State.modGroup (s : State) (k : Nat) (f : Group → Group) : State := { s with groups := s.groups.set k (f (s.group k)) }
def State.bank (s : State) (k : Nat) : Bank := (s.banks.get? k).getD Bank.idle
def State.modBank (s : State) (k : Nat) (f : Bank → Bank) : State := { s with banks := s.banks.set k (f (s.bank k)) }
def State.stack (s : State) (k : Nat) : Stack := (s.dramStacks.get? k).getD Stack.idle
def State.modStack (s : State) (k : Nat) (f : Stack → Stack) : State := { s with dramStacks := s.dramStacks.set k (f (s.stack k)) }
def State.modReq (s : State) (k : Nat) (f : Request → Request) : State := { s with reqs := s.reqs.adjust k f }
def State.modPage (s : State) (k : Nat) (f : Page → Page) : State := { s with pages := s.pages.adjust k f }
def State.modSeq (s : State) (k : Nat) (f : SeqD → SeqD) : State := { s with seqs := s.seqs.adjust k f }
def State.modRing (s : State) (k : Nat) (f : Ring → Ring) : State := { s with rings := s.rings.adjust k f }
def State.modConn (s : State) (k : Nat) (f : Conn → Conn) : State := { s with conns := s.conns.adjust k f }
def State.modIndex (s : State) (k : Nat) (f : Index → Index) : State := { s with indexes := s.indexes.adjust k f }
def State.modRegion (s : State) (k : Nat) (f : Region → Region) : State := { s with regions := s.regions.adjust k f }

/-- The BUSY retry-after of a ridge, and the CTX_RETRY one, in µs (R293). -/
def State.busyRa (s : State) (r : Nat) : Nat := ((s.kldRidge.get? r).getD 0).toNat % 65536
def State.ctxRa (s : State) (r : Nat) : Nat := ((s.kldRidge.get? r).getD 0).toNat / 65536

-- Addressed bytes of a region (canonical: bytes that are not 0, addresses rising).

/-- The form of a byte memory: addresses strictly rising, no entry 0. -/
def memWf (m : List Host.Cell) : Bool := FMap.wf m && m.all (fun e => e.2 != 0#8)

/-- The byte at an address; 0 where none is listed. -/
def memGet (m : List Host.Cell) (a : Nat) : Byte := (FMap.get? m a).getD 0#8

/-- Write one byte, keeping the form. -/
def memSet (m : List Host.Cell) (a : Nat) (b : Byte) : List Host.Cell := if b = 0#8 then FMap.erase m a else FMap.set m a b

/-- Write bytes from an address on. -/
def memPut (m : List Host.Cell) (a : Nat) (bs : List Byte) : List Host.Cell :=
  match bs with
  | [] => m
  | b :: rest => memPut (memSet m a b) (a + 1) rest

/-- Read n bytes from an address on. -/
def memSlice (m : List Host.Cell) (a n : Nat) : List Byte := (List.range n).map (fun i => memGet m (a + i))

end Sys2Proof.Machine
end

