-- ==== Sys2Proof/Machine/KTx.lean ====
section
/-! DEFINITION. Sending on Kalad (R259 to R264, R270, R276 to R278, R287): serial numbers, messages cut into packets, the window,
frames built and put in egress queues, contexts taken on die, and control packets.
Log entries 5, 38. -/

namespace Sys2Proof

/-- An address lies under a prefix. -/
def Prefix.covers (p : Prefix) (a : Nat) : Bool := a >>> (128 - min 128 p.len) == p.addr >>> (128 - min 128 p.len)

/-- An address is IPv4, held IPv4-mapped (R323). -/
def isV4 (a : Nat) : Bool := a >>> 32 == 0xFFFF

/-- The next hop to an address from a breakout (R18): the MAC address of the longest directly reachable prefix that covers it, else the
gateway's; none where the description lists no next hops for the breakout. -/
def Fabric.nextHop (f : Fabric) (x dst : Nat) : Option Nat :=
  (f.nextHops.find? (fun n => n.breakout == x)).map (fun n =>
    match (n.prefixes.filter (fun e => e.1.covers dst)).foldl (fun w e => match w with
      | none => some e
      | some v => if v.1.len < e.1.len then some e else some v) (none : Option (Prefix × Nat)) with
    | some e => e.2
    | none => n.gateway)

/-- The source address of a breakout toward an address of its family (R18). -/
def Fabric.source (f : Fabric) (x dst : Nat) : Option Nat :=
  match f.portAddrs.find? (fun a => a.breakout == x) with
  | none => none
  | some a => if isV4 dst then a.ipv4 else some a.ipv6

/-- The address is that of a node: one of the composition map's (R18, R259). -/
def Fabric.isNode (f : Fabric) (a : Nat) : Bool := f.map.any (fun e => e.addrs.contains a)

end Sys2Proof

namespace Sys2Proof.Machine

open Sys2Proof

-- 24-bit serial arithmetic (R261).

def serMod : Nat := 16777216
def serAdd (a n : Nat) : Nat := (a + n) % serMod
/-- (b − a) mod 2^24. -/
def serDist (a b : Nat) : Nat := (b + serMod - a % serMod) % serMod
/-- a is below b. -/
def serLt (a b : Nat) : Bool := let d := serDist a b; decide (1 ≤ d) && decide (d ≤ 8388607)
/-- a is at or below b. -/
def serLe (a b : Nat) : Bool := a % serMod == b % serMod || serLt a b

/-- The 40 bytes of a base header in network byte order. -/
def khdrBytes (h : KHdr) : List Byte := (List.range 40).map (fun i => BitVec.ofNat 8 (h.be i 1))

-- The KLD registers (R292).

def State.ackEvery (s : State) : Nat := s.kldCfg.toNat % 64
def State.ackDelay (s : State) : Nat := (s.kldCfg.toNat >>> 6) % 64
def State.reorderTh (s : State) : Nat := (s.kldCfg.toNat >>> 12) % 256
def State.retryMax (s : State) : Nat := (s.kldCfg.toNat >>> 20) % 8
def State.nackHoldUs (s : State) : Nat := (s.kldCfg.toNat >>> 23) % 32

/-- The wire payload that holds PLEN bytes (R263). -/
def wireSize (plen : Nat) : Nat :=
  if plen ≤ 1024 then 1024 else if plen ≤ 2048 then 2048 else if plen ≤ 4096 then 4096 else 8192

/-- Bytes of a tagged frame that carries a payload to a peer (R259, R307): Ethernet 22, IP, UDP 8, base header 40, the
extension and tag or the ICRC. -/
def kFrameBytes (peer : Nat) (cross : Bool) (payload : Nat) : Nat :=
  22 + (if isV4 peer then 20 else 40) + 8 + 40 + payload + (if cross then 24 else 4)

/-- Put a frame in a breakout's queue; a breakout without link discards it (R299). -/
def State.enqueue (s : State) (x : Nat) (f : TxFrame) : State :=
  match s.brks.get? x with
  | none => s
  | some b => if b.link then { s with brks := s.brks.set x { b with queue := b.queue ++ [f] } } else s

-- The bytes of a frame (R5, R18, R259 to R263, R287, R306).

/-- The 16-bit ones' complement sum of a byte list, big-endian. -/
def onesSum (acc : Nat) (bs : List Byte) : Nat :=
  match bs with
  | [] => acc
  | [a] => (acc + a.toNat * 256) % 65535
  | a :: b :: rest => onesSum ((acc + a.toNat * 256 + b.toNat) % 65535) rest

/-- A UDP checksum: the complement of the sum, sent as all ones where it is 0 (R259). -/
def udpChecksum (bs : List Byte) : Nat := 65535 - onesSum 0 bs

/-- The address bytes of a family: the 4 of an IPv4-mapped address, or 16. -/
def addrBytes (v4 : Bool) (a : Nat) : List Byte := if v4 then beBytes 4 (a % 4294967296) else beBytes 16 a

/-- The IP header of an outgoing datagram of `len` UDP bytes (R259): IPv4 with DF and no options, or IPv6 with no extension headers.
`k` is the running number of the fields no rule gives. -/
def ipHeader (src dst dscp ecn len k : Nat) : List Byte :=
  if isV4 dst then
    let pre := beBytes 1 0x45 ++ beBytes 1 (dscp % 64 * 4 + ecn % 4) ++ beBytes 2 (20 + len) ++ beBytes 2 (Config.ipOpen 2 k) ++
      beBytes 2 0x4000 ++ beBytes 1 (Config.ipOpen 1 k) ++ beBytes 1 17
    let post := addrBytes true src ++ addrBytes true dst
    pre ++ beBytes 2 ((65535 - onesSum 0 (pre ++ post)) % 65535) ++ post
  else
    beBytes 4 (6 * 2 ^ 28 + (dscp % 64 * 4 + ecn % 4) * 2 ^ 20 + Config.ipOpen 0 k % 2 ^ 20) ++ beBytes 2 len ++ beBytes 1 17 ++
    beBytes 1 (Config.ipOpen 1 k) ++ addrBytes false src ++ addrBytes false dst

/-- A UDP datagram: ports, length, the checksum over pseudo-header, header and data, and the data (R259). -/
def udpDatagram (src dst sport dport : Nat) (data : List Byte) : List Byte :=
  let len := 8 + data.length
  let v4 := isV4 dst
  let head := beBytes 2 sport ++ beBytes 2 dport ++ beBytes 2 len
  let pseudo := addrBytes v4 src ++ addrBytes v4 dst ++ (if v4 then beBytes 2 17 ++ beBytes 2 len else beBytes 4 len ++ beBytes 4 17)
  head ++ beBytes 2 (udpChecksum (pseudo ++ head ++ beBytes 2 0 ++ data)) ++ data

/-- The bytes of a datagram's frame from a breakout to a peer, from the destination MAC to the last byte before the FCS, with the DSCP,
priority and VLAN of its ridge and class (R259, R306); none where the description gives no source address or next hop. -/
def State.ipFrame (s : State) (x ridge cls peer port sport ecn : Nat) (data : List Byte) : Option (List Byte) :=
  match s.fab.cur with
  | none => none
  | some f =>
    match f.source x peer, f.nextHop x peer with
    | some src, some hop =>
      let (dscp, prio, vlan) := (s.classCfg.get? (ridge * 8 + cls)).getD (0, 0, 0)
      let mac := ((s.brks.get? x).map (·.mac)).getD 0
      let dport := if f.isNode peer then f.kaladPort else port
      let udp := udpDatagram src peer sport dport data
      some (beBytes 6 hop ++ beBytes 6 mac ++ beBytes 2 0x8100 ++ beBytes 2 (prio % 8 * 8192 + vlan % 4096) ++
        beBytes 2 (if isV4 peer then 0x0800 else 0x86DD) ++ ipHeader src peer dscp ecn udp.length s.draws ++ udp)
    | _, _ => none

/-- The fields of a base header that differ from packet to packet (R261). -/
structure KOut where
  op : Nat
  first : Bool
  last : Bool
  sec : Bool
  ridge : Nat
  psize : Nat
  conn : Nat
  psn : Nat
  msn : Nat
  offset : Nat
  addr : Nat
  region : Nat
  epoch : Nat
  plen : Nat
  imm : Nat
  deriving DecidableEq, Repr

/-- The 40 bytes of a base header the node sends (R261): VER 1, every reserved bit 0, and AR 0, which no rule has the node set (log entry
72). -/
def KOut.bytes (h : KOut) : List Byte :=
  beBytes 1 (16 + h.op % 16) ++ beBytes 1 (flagBit h.last 7 + flagBit h.first 6 + flagBit h.sec 5) ++
  beBytes 2 (h.ridge % 32 * 2048 + h.psize % 4 * 512) ++ beBytes 3 h.conn ++ beBytes 1 0 ++ beBytes 3 h.psn ++ beBytes 1 0 ++
  beBytes 3 h.msn ++ beBytes 1 0 ++ beBytes 4 h.offset ++ beBytes 8 h.addr ++ beBytes 4 h.region ++ beBytes 2 h.epoch ++
  beBytes 2 (h.plen % 16384) ++ beBytes 4 h.imm

/-- PSIZE of a wire payload (R261). -/
def psizeOf (wire : Nat) : Nat := if wire ≤ 1024 then 0 else if wire ≤ 2048 then 1 else if wire ≤ 4096 then 2 else 3

/-- The security extension: KEY_PHASE, then the 56-bit TXC (R287). -/
def secExt (phase : Bool) (txc : Nat) : List Byte := beBytes 1 (flagBit phase 7) ++ beBytes 7 txc

/-- The next phase's key (R288). -/
def rekey (k : List Byte) : List Byte := Config.hkdf k (asciiBytes "kalad rekey") 32

/-- The next TXC of a cross-rack direction; at 2^31 the sender switches to the next key phase (R287, R288). `keys` holds the
sending key, the receiving key and the two salts. -/
def Conn.nextTxc (c : Conn) : Conn :=
  if !c.crossRack then c
  else if c.txc + 1 = 2147483648 then
    { c with txc := 0, keyPhase := !c.keyPhase, keys := rekey (c.keys.take 32) ++ c.keys.drop 32 }
  else { c with txc := c.txc + 1 }

/-- The extension, payload and trailer after a base header (R259, R287): the ICRC in-rack; cross-rack the extension, and the payload sealed
under the sending key with the nonce of salt, zero byte and TXC. -/
def Conn.sealed (c : Conn) (hdr wire : List Byte) : List Byte :=
  if c.crossRack then
    let ext := secExt c.keyPhase c.txc
    ext ++ Config.gcmSeal (c.keys.take 32) (sliceBytes c.keys 64 4 ++ [0#8] ++ beBytes 7 c.txc) (hdr ++ ext) wire
  else wire ++ beBytes 4 (crc32c (hdr ++ wire)).toNat

/-- Put a datagram of a connection in its breakout's queue, counted; it has no way out where the description gives no source address or
next hop (R18). -/
def State.kLaunch (s : State) (c : Conn) (port ecn : Nat) (data : List Byte) (f : TxFrame) : State :=
  match s.ipFrame c.p.breakout c.ridge c.p.cls c.p.peerAddr c.p.peerPort port ecn data with
  | none => s
  | some bytes =>
    let s := ((s.bumpR c.ridge 80).event none 0x02 1).event none 0x04 f.plen
    s.enqueue c.p.breakout { f with data := bytes }

/-- Send one packet of a connection: the r-th transmission of its PSN (R260), with its header, padded payload and trailer built (R259 to
R263, R287), counted and queued to the breakout. Data packets are ECT(0). -/
def State.kEmit (s : State) (n : Nat) (op psn msn offset region addr imm : Nat) (bytes : List Byte) (payload retx ent : Nat)
    (first last : Bool) : State :=
  match s.conns.get? n with
  | none => s
  | some c =>
    let data := op == 0 || op == 1 || op == 3 || op == 4
    let port := c.p.entBase + (if c.p.e = 0 then 0 else ent % c.p.e)
    let hdr := KOut.bytes { op := op, first := first, last := last, sec := c.crossRack, ridge := c.ridge,
                            psize := if data then psizeOf payload else 0, conn := c.peerConn, psn := psn, msn := msn, offset := offset,
                            addr := addr, region := region, epoch := s.epochNow, plen := bytes.length, imm := imm }
    (s.modConn n Conn.nextTxc).kLaunch c port (if data then 2 else Config.ipOpen 3 s.draws)
      (hdr ++ c.sealed hdr (sliceBytes bytes 0 payload))
      { ridge := c.ridge, cls := c.p.cls, queue := n, bytes := kFrameBytes c.p.peerAddr c.crossRack payload, conn := c.peerConn,
        psn := psn, msn := msn, op := op, plen := bytes.length, retx := retx, srcPort := port, queuedAt := s.now, data := [] }

-- Contexts on die (R282, R283).

def State.onDieOf (s : State) (r : Nat) : FMap Conn := s.conns.keep (fun _ c => c.ridge == r && c.onDie)

/-- A context with nothing unacknowledged and no incomplete message (R283). -/
def Conn.idle (c : Conn) : Bool :=
  c.unacked.isEmpty && c.waiting.isEmpty && c.rxMsgs.all (fun e => e.2.mark == .complete || e.2.mark == .refused)

/-- The least recently used of some contexts, the lowest number among equals. -/
def lruOf (l : FMap Conn) : Option Nat :=
  (l.foldl (fun w e => match w with
    | none => some e
    | some v => if e.2.lru < v.2.lru then some e else some v) none).map (·.1)

/-- Make room for a context in a ridge's share (R283). -/
def State.makeRoom (s : State) (r : Nat) : State :=
  let l := s.onDieOf r
  if l.length < (s.ridge r).p.ctxShare then s
  else
    let idle := l.filter (fun e => e.2.idle)
    match lruOf (if idle.isEmpty then l else idle) with
    | none => s
    | some k => s.modConn k (fun c => { c with onDie := false })

/-- A send or a timer uses a context: it becomes the most recently used, and an evicted one is fetched (R283). A context that is being
fetched for parked packets comes with that fetch. -/
def State.fetchFor (s : State) (n : Nat) : State :=
  match s.conns.get? n with
  | none => s
  | some c =>
    if c.onDie then s.modConn n (fun c => { c with lru := s.now })
    else if !c.parked.isEmpty then s
    else (((s.bumpR c.ridge 85).event none 0x07 1).makeRoom c.ridge).modConn n (fun c => { c with onDie := true, lru := s.now })

/-- A packet of an unacknowledged PSN leaves again, with the same PSN, MSN, OFFSET and bytes (R278). -/
def State.kResend (s : State) (n : Nat) (p : TxPkt) : State :=
  let r := p.retx + 1
  let s := (s.fetchFor n).modConn n (fun c => { c with unacked := c.unacked.map (fun q =>
    if q.psn = p.psn then { q with retx := r, resentAt := s.now } else q) })
  match s.conns.get? n with
  | none => s
  | some c =>
    (s.bumpR c.ridge 82).kEmit n p.op p.psn p.msn p.offset p.region p.addr p.imm p.bytes
      (if p.op = 2 then 16 else wireSize p.bytes.length) r (p.psn + r) p.first p.last

/-- Bytes unacknowledged in a direction (R279). -/
def Conn.inFlight (c : Conn) : Nat := c.unacked.foldl (fun n p => n + p.bytes.length) 0

/-- May the next packet leave (R277, R279)? The PSNs in flight and the MSNs above the peer's watermark stay within 1,024, and the bytes in
flight within the window. -/
def Conn.mayLeave (c : Conn) (p : TxPkt) : Bool :=
  decide (c.unacked.length < 1024) && decide (serDist c.peerMark p.msn ≤ 1024) && decide (c.inFlight + p.bytes.length ≤ c.cwnd)

/-- smoothed RTO (R278), in ns. -/
def Conn.rto (c : Conn) : Nat := min 8192000 (max 32000 (c.srtt + 4 * c.rttvar) * 2 ^ c.backoff)

/-- Send what the window lets leave, in order (R277, R279). Nothing new leaves from the entry of a power state on (R479), or
while a cut is held (R468). -/
def State.kPump (s : State) (n : Nat) (fuel : Nat) : State :=
  match fuel with
  | 0 => s
  | fuel + 1 =>
    match s.conns.get? n with
    | none => s
    | some c =>
      match c.waiting with
      | [] => s
      | p :: rest =>
        if c.state ≠ .opened || s.frozen || !c.mayLeave p then s
        else
          let q := { p with psn := c.txPsn, sentAt := s.now }
          let s := (s.fetchFor n).modConn n (fun c => { c with
            waiting := rest, unacked := c.unacked ++ [q], txPsn := serAdd c.txPsn 1, rtoAt := some (s.now + c.rto) })
          let s := s.kEmit n q.op q.psn q.msn q.offset q.region q.addr q.imm q.bytes
            (if q.op = 2 then 16 else wireSize q.bytes.length) 0 q.psn q.first q.last
          s.kPump n fuel

/-- Every connection sends what its window lets leave. -/
def State.pumpAll (s : State) : State := s.conns.foldl (fun s e => s.kPump e.1 e.2.waiting.length) s

/-- Cut a data message into packets of S bytes (R263). -/
def cutMsg (fuel sz off msn op region addr imm : Nat) (bs : List Byte) : List TxPkt :=
  match fuel with
  | 0 => []
  | fuel + 1 =>
    let last := decide (bs.length ≤ sz)
    { psn := 0, msn := msn, op := op, offset := off, first := off == 0, last := last, region := region, addr := addr,
      imm := imm, bytes := bs.take sz, sentAt := 0, retx := 0, resentAt := 0, tries := 0, retryAt := none } ::
    (if last then [] else cutMsg fuel sz (off + sz) msn op region addr imm (bs.drop sz))

/-- Start a message on a connection: it takes the next MSN, is cut and joins the packets that wait. None on a connection that
is not Open or closes (R268). -/
def State.kSend (s : State) (n op region addr imm : Nat) (bytes : List Byte) (owner : MsgOwner) : Option (State × Nat) :=
  match s.conns.get? n with
  | none => none
  | some c =>
    if c.state ≠ .opened || c.closingAt.isSome then none
    else
      let m : TxMsg := { msn := c.txMsn, op := op, region := region, addr := addr, imm := imm, bytes := bytes, owner := owner,
                         tries := 0, retryAt := none, done := false }
      let sz := if op = 2 then 16 else c.seg
      let pk := cutMsg (bytes.length / (max 1 sz) + 1) sz 0 c.txMsn op region addr imm bytes
      let s := s.modConn n (fun c => { c with txMsn := serAdd c.txMsn 1, msgs := c.msgs ++ [m], waiting := c.waiting ++ pk })
      some (s.kPump n pk.length, c.txMsn)

/-- Fill the window of a connection. -/
def State.kFill (s : State) (n : Nat) : State :=
  match s.conns.get? n with
  | none => s
  | some c => s.kPump n c.waiting.length

/-- A control packet (R262): no PSN or MSN of its own, not limited by the window (R279). -/
def State.kControl (s : State) (n op psn msn offset imm : Nat) (bytes : List Byte) (ent : Nat) : State :=
  if s.frozen then s else s.kEmit n op psn msn offset 0 0 imm bytes bytes.length 0 ent true true

/-- The bitmap of a SACK (R264). -/
def sackBody (c : Conn) : List Byte :=
  (List.range 128).map (fun i => BitVec.ofNat 8 ((List.range 8).foldl (fun n j =>
    if c.rxBits.contains (serAdd c.rxCum (1 + 8 * i + j)) then n + 2 ^ j else n) 0))

/-- An acknowledgement: ACK, or SACK when the bitmap is nonzero (R276). -/
def State.kAck (s : State) (n ent : Nat) : State :=
  match s.conns.get? n with
  | none => s
  | some c =>
    let s := s.modConn n (fun c => { c with sinceAck := 0, oldestUnacked := none })
    let s := s.fetchFor n
    if c.rxBits.isEmpty then s.kControl n 5 c.rxCum c.watermark 0 (c.ceCount % 4294967296) [] ent
    else s.kControl n 6 c.rxCum c.watermark 0 (c.ceCount % 4294967296) (sackBody c) ent

/-- The first violation of a kind on a connection writes a record that names the connection, the code and the header (R270). Kind 0 is a
completion for no command of the node (R267). -/
def State.kViolation (s : State) (n kind : Nat) (h : KHdr) : State :=
  match s.conns.get? n with
  | none => s
  | some c =>
    if c.nackSeen.contains kind then s
    else (s.modConn n (fun c => { c with nackSeen := c.nackSeen ++ [kind] })).report
      { ErrRec.of .protocol c.ridge .none with handle := n, detail := [kind, h.toNat] }

/-- A refused packet is answered with a NACK of its code from the packet's entropy value (R260), at most one per NACK_HOLD and
connection; further causes within that time are only counted (R270, log entry 73). The retry-after is in µs; `expect` is the expected PSN
of SEQ. -/
def State.kNack (s : State) (n : Nat) (code : NackCode) (psn msn expect ent : Nat) (h : KHdr) : State :=
  match s.conns.get? n with
  | none => s
  | some c =>
    let k := code.code
    let held := match c.nackHold.get? k with
      | some t => decide (s.now < t + s.nackHoldUs * 1000)
      | none => false
    let retry := if code = .ctxRetry then s.ctxRa c.ridge else if code = .busy then s.busyRa c.ridge else 0
    let s := (if code = .ctxRetry || code = .busy then s else s.kViolation n k h).bumpR c.ridge (96 + k)
    if held then s
    else
      (s.modConn n (fun c => { c with nackHold := c.nackHold.set k s.now })).kControl n 7 psn msn expect
        (k * 16777216 + (retry % 65536) * 256) [] ent

end Sys2Proof.Machine
end

