-- ==== Sys2Proof/Machine/LoupeBank.lean ====
section
/-! DEFINITION. The banks of Loupe (R320 to R325): their geometry, the tables they hold, and how an entry leaves them.
Log entries 19, 45. -/

namespace Sys2Proof.Machine

open Sys2Proof

-- Geometry and tables (R320 to R323).

/-- Units of an entry by the width code of LUP_BANK_CFG (R339). -/
def lUnits (code : Nat) : Nat := if code = 0 then 1 else if code = 1 then 2 else 4
def lEntries (code : Nat) : Nat := 2048 / lUnits code
def lKeyBits (code : Nat) : Nat := if code = 0 then 24 else if code = 1 then 64 else 160

/-- Bits of RESULT by the width code (R321). -/
def lResultBits (code : Nat) : Nat := if code = 0 then 16 else 32

/-- The 96n bits of an entry, from bit 0 of its first unit (R321). -/
def LEntry.bits (e : LEntry) (code : Nat) : Nat :=
  let k := lKeyBits code
  flagBit e.valid 0 + flagBit e.crit 1 + e.prio % 2 ^ 16 * 2 ^ 16 + e.key % 2 ^ k * 2 ^ 32 + e.mask % 2 ^ k * 2 ^ (32 + k) +
  e.result % 2 ^ lResultBits code * 2 ^ (32 + 2 * k)

/-- The units of an entry of a bank's array or shadow; an index that holds none has VALID clear (R321). -/
def lUnitsOf (code : Nat) (e : Option LEntry) : List Nat :=
  let v := (e.map (·.bits code)).getD 0
  (List.range (lUnits code)).map (fun u => v / 2 ^ (96 * u) % 2 ^ 96)

/-- Units of an entry that differ from the bank's shadow (R331, R334). -/
def LBank.wrongUnits (q : LBank) (i : Nat) : Nat :=
  (((lUnitsOf q.width (q.entries.get? i)).zip (lUnitsOf q.width (q.shadow.get? i))).filter (fun p => p.1 != p.2)).length

/-- Width codes a table may lie in (R323). -/
def lAccepts (t : LoupeTable) (code : Nat) : Bool :=
  match t with
  | .ofs => code == 0
  | .ofl => code == 2
  | .cls4 => code == 1 || code == 2
  | .cls6 => code == 2
  | .reg => code == 1 || code == 2
  | .rfl => code == 2

def lTid (t : LoupeTable) : Nat :=
  match t with
  | .ofs => 2
  | .ofl => 1
  | .cls4 => 3
  | .cls6 => 4
  | .reg => 5
  | .rfl => 6

/-- A bank is privileged (R325). -/
def State.privBank (s : State) (b : Nat) : Bool :=
  (decide (1 ≤ s.loupe.privBanks) && b == 15) || (decide (2 ≤ s.loupe.privBanks) && b == 14)

/-- The banks a table of an owner lies in: the owner's banks that accept its width; the privileged ones for OFS and OFL. -/
def State.lBanks (s : State) (owner : Nat) (t : LoupeTable) : List Nat :=
  (s.loupe.banks.filter (fun e => lAccepts t e.2.width &&
    (if t = .ofs || t = .ofl then s.privBank e.1 else e.2.owner == owner))).map (·.1)

def State.lBank (s : State) (b : Nat) : LBank :=
  (s.loupe.banks.get? b).getD { owner := 31, width := 2, entries := [], shadow := [] }

def State.modBankL (s : State) (b : Nat) (f : LBank → LBank) : State :=
  { s with loupe := { s.loupe with banks := s.loupe.banks.adjust b f } }

/-- Update slots of a bank are counted (R332, R412, R457). -/
def State.lSlots (s : State) (b n : Nat) : State := (s.bumpBy (.bank b 1) n).event none 0x06 n

/-- Delete an entry: one slot. -/
def State.lDel (s : State) (b i : Nat) : State :=
  (s.modBankL b (fun q => { q with entries := q.entries.erase i, shadow := q.shadow.erase i })).lSlots b 1

/-- Delete the node-written entry of a key. -/
def State.lRemove (s : State) (owner : Nat) (t : LoupeTable) (key : Nat) : State :=
  (s.lBanks owner t).foldl (fun s b =>
    match (s.lBank b).entries.find? (fun e => e.2.table == t && e.2.key == key) with
    | some (i, _) => s.lDel b i
    | none => s) s

/-- The key of a region handle (R323). -/
def regKey (r h : Nat) : Nat := 5 + r * 256 + h * 4294967296

/-- Remove a region: the REG entry first (R324). -/
def State.endRegion (s : State) (r h : Nat) : State :=
  let s := s.lRemove r .reg (regKey r h)
  { s with regions := s.regions.erase (regionKey r h) }

end Sys2Proof.Machine
end

