-- ==== Sys2Proof/Machine/Complete.lean ====
section
/-! DEFINITION. Commands: taken from a ring or a connection, checked in the order of R390 and R92, admitted to a request slot,
completed (R381, R384, R388), and the work of a request given up.
Log entries 16, 36, 48, 50, 69, 70. -/

namespace Sys2Proof.Machine

open Sys2Proof

/-- What a completion entry carries beside what the command gave it (R388). -/
structure Cpl where
  tag : Nat
  opcode : Nat
  status : Status
  sqHead : Nat
  exposure : Nat
  flags : Nat
  r0 : Nat
  r1 : Nat
  errRef : Nat
  deriving DecidableEq, Repr

/-- The 128 bytes of a completion entry (R388); SQ_HEAD and PHASE are 0 on network rings. -/
def Cpl.bytes (c : Cpl) (sqHead phase now : Nat) : List Byte :=
  leBytes 4 (c.tag + c.opcode * 65536 + c.status.code * 16777216) ++ leBytes 4 (sqHead + phase * 4096) ++
  leBytes 8 (c.exposure + c.flags * 17592186044416) ++ leBytes 8 now ++ leBytes 8 c.r0 ++ leBytes 8 c.r1 ++
  leBytes 4 c.errRef ++ List.replicate 84 0#8

-- Rings (R381, R382).

/-- Send the completion interrupt of a ring and clear what waited for it (R381). -/
def State.ringMsix (s : State) (key : Nat) (g : Ring) : State :=
  (s.modRing key (fun g => { g with coalPend := 0, coalSince := none })).msix g.creator.key g.vector

/-- Write a completion entry of a host ring (R381): at CQ_TAIL, with PHASE inverted on each wrap, and the interrupt once
COAL_COUNT entries are pending, or at once with COAL_US 0. A Stopped ring's completions are discarded (R371). -/
def State.ringPost (s : State) (key : Nat) (c : Cpl) : State :=
  match s.rings.get? key with
  | none => s
  | some g =>
    let s := s.modRing key (fun g => { g with outstanding := g.outstanding - 1 })
    if g.state = .stopped then s
    else
      let wrap := g.cqTail + 1 = g.entries
      let s := s.emit (.completion g.creator (g.cqAddr + 128 * g.cqTail) c.tag c.opcode c.status c.sqHead g.phase c.exposure
        c.flags s.now c.r0 c.r1 c.errRef)
      let s := s.event none 0x0C 1
      let s := s.modRing key (fun g => { g with
        cqTail := if wrap then 0 else g.cqTail + 1
        phase := if wrap then 1 - g.phase else g.phase
        unread := g.unread + 1
        coalPend := g.coalPend + 1
        coalSince := some (g.coalSince.getD s.now) })
      if g.coalCount ≤ g.coalPend + 1 || g.coalUs = 0 then s.ringMsix key g else s

/-- A connection's command is no longer admitted (R285). -/
def State.unadmit (s : State) (n : Nat) : State := s.modConn n (fun c => { c with cmdAdmitted := c.cmdAdmitted - 1 })

/-- Free the request slot a posted completion still held (R285). -/
def State.freeSlot (s : State) (slot : Option Nat) : State :=
  match slot with
  | none => s
  | some k => { s with reqs := s.reqs.erase k }

/-- Write a completion: to the host ring, or by WRITE_IMM to the connection's completion target (R384). Where the connection is
not Open it fails with the output, as an OUT_FAULT on a Failed one (R280), and nothing more is held. -/
def State.post (s : State) (src : Src) (slot : Option Nat) (c : Cpl) : State :=
  match src with
  | .ring r i => (s.freeSlot slot).ringPost (ringKey r i) c
  | .conn n =>
    match s.conns.get? n with
    | none => s.freeSlot slot
    | some k =>
      match k.target with
      | none => (s.freeSlot slot).unadmit n
      | some (region, addr, entries) =>
        let idx := k.targetIdx
        match s.kSend n 1 region (addr + 128 * idx) idx (c.bytes 0 0 s.now) (.completion slot) with
        | none =>
          let s := (s.freeSlot slot).unadmit n
          if k.state = .failed then s.report { ErrRec.of .outFault k.ridge .none with handle := n } else s
        | some (s, _) => s.modConn n (fun k => { k with targetIdx := if idx + 1 < entries then idx + 1 else 0 })

/-- The function whose requester ID the requests of a ring's commands carry; none once the ring is Stopped, whose outputs and
completions are discarded (R370, R371). -/
def State.creatorOf (s : State) (src : Src) : Option Fn :=
  match src with
  | .ring r i =>
    (match s.rings.get? (ringKey r i) with
      | some g => if g.state = .stopped then none else some g.creator
      | none => none)
  | .conn _ => none

/-- A PCIe read of operands for a command (R370). -/
def State.readHost (s : State) (src : Src) (addr len : Nat) : State :=
  match s.creatorOf src with
  | some f => (s.emit (.hostRead f addr len)).event none 0x0C 1
  | none => s

/-- The PCIe writes of a command's output (R113, R370). -/
def State.writeHost (s : State) (src : Src) (addr : Nat) (bs : List Byte) : State :=
  match s.creatorOf src with
  | some f => (s.emit (.hostWrite f addr bs)).event none 0x0C 1
  | none => s

-- Taking a command.

/-- The commands notified on connections and not yet started hold request slots too (R285). -/
def State.slotsHeld (s : State) : Nat := s.reqs.length + s.conns.foldl (fun n e => n + e.2.cmdQ.length) 0
def State.slotsHeldBy (s : State) (r : Nat) : Nat :=
  (s.reqs.filter (fun e => e.2.ridge == r)).length +
    s.conns.foldl (fun n e => if e.2.ridge = r then n + e.2.cmdQ.length else n) 0

/-- A request slot is free for a ridge: the node's 262,144 and the ridge's SLOT_ALLOW (R285, R383). -/
def State.slotFree (s : State) (r : Nat) : Bool :=
  decide (s.slotsHeld < 262144) && decide (s.slotsHeldBy r < (s.ridge r).p.slotAllow)

/-- A command that is being started: where it came from, its ridge, descriptor, inline bytes and the submission head after it. -/
structure Cmd where
  src : Src
  ridge : Nat
  d : Desc
  inl : List Byte
  sqHead : Nat
  deriving DecidableEq, Repr

/-- The oldest COMMAND of a connection's network ring is its own (R64, R274). -/
def State.ringTurn (s : State) (c : Conn) (n : Nat) : Bool :=
  match c.p.cmdRing with
  | none => true
  | some i => (match s.rings.get? (ringKey c.ridge i) with
    | some g => !g.order.contains n || g.order.head? == some n
    | none => true)

/-- The oldest entry of a connection's network ring is consumed. -/
def State.leaveRing (s : State) (c : Conn) : State :=
  match c.p.cmdRing with
  | none => s
  | some i => s.modRing (ringKey c.ridge i) (fun g => { g with order := g.order.drop 1, sqHead := (g.sqHead + 1) % g.entries })

/-- The bytes a command carries inline after its descriptor (R94, R202); none where its handle names nothing that says how many. -/
def State.inlineBytes (s : State) (r : Nat) (d : Desc) : Option Nat :=
  if d.opcode = 0x30 then some (if d.fld 0x14 9 4 = 8 ∨ d.fld 0x14 9 4 = 9 then 128 else 0)
  else if !([0x02, 0x20, 0x21, 0x28, 0x29, 0x2A].contains d.opcode) || d.srcOf.qsrc ≠ 0 then some 0
  else if d.opcode = 0x28 then (s.indexes.get? (indexKey r (d.index % 16))).map (fun x => d.queryBytes x.p)
  else if d.opcode = 0x29 ∨ d.opcode = 0x2A then (s.indexes.get? (indexKey r (d.index % 16))).map (fun x => d.itemBytes x.p)
  else (s.seqs.get? (d.handle % 262144)).map (fun q => if d.opcode = 0x02 then d.count * q.fmt.rowBytes else d.inputBytes q.fmt.d)

/-- The entries of a fetched span that a command consumes (R94, R383): its descriptor and ceil(inline bytes / 128) more, as far as the span
goes. -/
def State.spanUsed (s : State) (r : Nat) (d : Desc) (span : Nat) : Nat :=
  match s.inlineBytes r d with
  | some n => min span (1 + (n + 127) / 128)
  | none => span

/-- Take the next command of a source. A ring gives the next span it has fetched whole (R383); with no slot free the span stays
unconsumed and is fetched again later; the command's inline bytes are those of its span (R94). A connection gives its oldest notified COMMAND, which must hold this descriptor, when it is the
oldest of its network ring (R64). -/
def State.take (s : State) (src : Src) (d : Desc) (inl : List Byte) : State × Option Cmd :=
  match src with
  | .ring r i =>
    match s.rings.get? (ringKey r i) with
    | none => (s, none)
    | some g =>
      match g.fetched with
      | [] => (s, none)
      | span :: rest =>
        if !g.host || g.state ≠ .active || !s.ridgeUp r then (s, none)
        else if !s.slotFree r then
          ((s.modRing (ringKey r i) (fun g => { g with fetched := [], slotWait := true })).bumpR r 19, none)
        else
          let n := s.spanUsed r d span
          let head := (g.sqHead + n) % g.entries
          let left := if n < span then (span - n) :: rest else rest
          (s.modRing (ringKey r i) (fun g => { g with fetched := left, sqHead := head, outstanding := g.outstanding + 1 }),
           some { src := src, ridge := r, d := d, inl := inl.take (128 * (n - 1)), sqHead := head })
  | .conn n =>
    match s.conns.get? n with
    | none => (s, none)
    | some c =>
      match c.cmdQ with
      | [] => (s, none)
      | m :: rest =>
        if m.take 128 = d.bytes && s.ringTurn c n then
          ((s.modConn n (fun c => { c with cmdQ := rest })).leaveRing c,
           some { src := src, ridge := c.ridge, d := d, inl := m.drop 128, sqHead := 0 })
        else (s, none)

-- Conditions and checks (R390, R92).

/-- The first check that fails. -/
def firstFail (l : List (Bool × Status)) : Option Status :=
  match l with
  | [] => none
  | (ok, st) :: rest => if ok then firstFail rest else some st

/-- Commands that Draining admits (R346) and that a ridge not holding its role still serves (R448). -/
def drainOps : List Nat := [0x05, 0x08, 0x24, 0x25]

/-- A lease is held, or there is none (R447, R448). -/
def Ridge.holds (r : Ridge) : Bool :=
  match r.lease with
  | none => true
  | some l => l.holding

/-- Condition 3 of R390 for a tag n: the time state, the window of R143, and R22 before a pending activation. -/
def State.tagOk (s : State) (f : Fabric) (n : Nat) : Bool :=
  let nc := exposureAt f s.now
  s.time.st != .unset && s.time.st != .acquiring && decide (nc - 16 ≤ (n : Int)) && decide ((n : Int) ≤ nc + 4) &&
  (match s.fab.pend with
    | some p => decide (openingOf f n < p.actTime)
    | none => true)

/-- MAP_EPOCH is current, or the previous epoch strictly before the drain deadline (R23, R92). -/
def State.epochOk (s : State) (e : Nat) : Bool :=
  match s.fab.cur with
  | none => false
  | some f => e == f.epoch || (s.fab.prevEpoch == some e && decide (s.now < s.fab.drainAt))

/-- Conditions 1 to 3 of R390 with the lease of R448. A ridge whose key store failed answers HW_FAULT (R417). -/
def State.conditions (s : State) (c : Cmd) : List (Bool × Status) :=
  let g := s.ridge c.ridge
  let op := c.d.opcode
  let ridgeOk := g.state == .opened || (g.state == .draining && drainOps.contains op)
  let tagOk := match s.fab.cur with
    | some f => !c.d.tagged || s.tagOk f c.d.exposure
    | none => false
  [(s.fab.cur.isSome, .stateConflict), (ridgeOk && (g.holds || drainOps.contains op), .stateConflict), (tagOk, .stateConflict),
    (!g.halted, .hwFault)]

/-- The conditions of R390, then checks 1 to 3 of R92. -/
def State.preCheck (s : State) (c : Cmd) (layout : List (Nat × Nat × Nat)) : Option Status :=
  firstFail (s.conditions c ++ [(c.d.reservedOk layout, .malformed), (c.d.ridge == c.ridge, .ridgeMismatch),
    (s.epochOk c.d.mapEpoch, .staleEpoch)])

/-- Check 8's part on the tag (R92, R385): an untagged command has no deadline fields, a required tag is present, DEADLINE_US is
below P. -/
def State.tagParams (s : State) (d : Desc) (required : Bool) : Bool :=
  if d.tagged then
    match s.fab.cur with
    | some f => decide (d.deadlineUs < f.periodUs)
    | none => false
  else !required && !d.lateDiscard && d.deadlineUs == 0

/-- A connection of the ridge (R92). -/
def State.connOf (s : State) (r n : Nat) : Bool :=
  match s.conns.get? n with
  | some c => c.ridge == r
  | none => false

/-- The composite buffers of a ridge. -/
def State.isCbuf (s : State) (r h : Nat) : Bool :=
  match s.regions.get? (regionKey r h) with
  | some g => (match g.kind with
    | .composite _ _ _ _ => true
    | .scratch _ _ _ => false
    | .lease => false
    | .completion _ => false
    | .query => false)
  | none => false

def Src.isRing (s : Src) : Bool :=
  match s with
  | .ring _ _ => true
  | .conn _ => false

/-- Check 8's part on the source (R92): QSRC 3 only from a ring, QSRC 1 only from Kalad, Q_CONN a connection of the ridge. -/
def State.srcParams (s : State) (c : Cmd) : Bool :=
  let q := c.d.srcOf
  (q.qsrc != 3 || Src.isRing c.src) && (q.qsrc != 1 || !Src.isRing c.src) && (q.qsrc != 2 || s.connOf c.ridge q.conn)

/-- The connection number of OUT_CONN that names this node itself (R92, R124). -/
def selfConn : Nat := 0xFFFFFF

/-- Check 8's part on the output (R92): no reserved OUT, OUT 2 only from a ring, OUT 0 only from Kalad, OUT_CONN a connection of
the ridge or, for DEVELOP, REVERSE and COMPOSITE alone, the node's own composite buffer (R124). -/
def State.outParams (s : State) (c : Cmd) : Bool :=
  let o := c.d.outOf
  o.out != 3 && (o.out != 2 || Src.isRing c.src) && (o.out != 0 || !Src.isRing c.src) &&
  (o.out != 1 || s.connOf c.ridge o.conn || (o.conn == selfConn && s.isCbuf c.ridge o.region && [0x20, 0x21, 0x22].contains c.d.opcode))

/-- A command that fails on state is counted (R391). -/
def State.countSC (s : State) (r op : Nat) : State := (s.bumpR r 20).bumpR r (256 + op % 64)

/-- A command is turned away with a status: its span is consumed, nothing changes but the counters of R391 and, for DEVELOP, the
status counter of R116. -/
def State.reject (s : State) (c : Cmd) (st : Status) (r0 r1 : Nat) : State :=
  let s := if st = .stateConflict then s.countSC c.ridge c.d.opcode else s
  let s := if c.d.opcode = 0x20 then s.bumpR c.ridge (32 + st.code) else s
  s.post c.src none { tag := c.d.tag, opcode := c.d.opcode, status := st, sqHead := c.sqHead, exposure := c.d.exposure,
                      flags := 0, r0 := r0, r1 := r1, errRef := 0 }

/-- A command that R346 does not admit is refused while its ridge drains: a later OPEN_AGAIN finds it so (R344). -/
def State.noteDrained (s : State) (c : Cmd) : State :=
  if (s.ridge c.ridge).state = .draining && s.fab.cur.isSome && !drainOps.contains c.d.opcode then
    s.modRidge c.ridge (fun g => { g with refused := true })
  else s

/-- A data-path command (R390, R391): taken from its source, checked, and run. Nothing is taken while the node sleeps or holds a
cut (R393, R468). -/
def State.command (s : State) (t : Nat) (src : Src) (d : Desc) (inl : List Byte) (layout : List (Nat × Nat × Nat))
    (checks : State → Cmd → List (Bool × Status)) (run : State → Cmd → State) : Host.Outcome State Fault Refusal :=
  let s := s.advance t
  if s.frozen then .next s
  else
    match s.take src d inl with
    | (s, none) => .next s
    | (s, some c) =>
      match s.preCheck c layout with
      | some st => .next ((s.reject c st 0 0).noteDrained c)
      | none =>
        match firstFail (checks s c) with
        | some st => .next (s.reject c st 0 0)
        | none => .next (run s c)

-- Admission and completion.

/-- A request that has just been admitted. -/
def Request.of (c : Cmd) (phase : RPhase) (now order deadline : Nat) : Request :=
  { ridge := c.ridge, opcode := c.d.opcode, tag := c.d.tag, prio := c.d.prio, src := c.src, sqHead := c.sqHead,
    exposure := c.d.exposure, tagged := c.d.tagged, lateDiscard := c.d.lateDiscard, deadline := deadline, order := order,
    desc := c.d, phase := phase, startedAt := none, admittedAt := now, snap := 0, pages := [], openPage := none, awaiting := [],
    prog := none, query := [], qscales := [], slopes := [], dout := [], bigL := [], bigD := [], chosen := [], approx := false, todo := [],
    parts := [], contribs := [], runs := [], shadowed := [], committed := false, fail := none, nonfin := [],
    errRef := 0, flags := 0, bytes := 0, result0 := 0, pagesRead := [], list := [], recs := [], items := [], data := c.inl,
    watchFired := false, heldNs := 0, reuseHeld := false, region := 0, placed := false, outDone := none, nack := 0, final := .ok }

/-- The deadline instant of a tagged command; an untagged one has none, held as the greatest instant (R142, R385). -/
def State.deadlineFor (s : State) (d : Desc) : Nat :=
  match s.fab.cur with
  | some f => if d.tagged then deadlineOf f d.exposure d.deadlineUs else ctrMax
  | none => ctrMax

/-- Admit a command to the lowest free request slot (log entry 16); a CMD_ADMIT record is emitted (R459). -/
def State.admitReq (s : State) (c : Cmd) (phase : RPhase) (f : Request → Request) : State × Nat :=
  let slot := (s.reqs.fresh 0 262144).getD 0
  let q := f (Request.of c phase s.now s.nextOrder (s.deadlineFor c.d))
  let s := { s with reqs := s.reqs.set slot q, nextOrder := s.nextOrder + 1 }
  let s := if c.d.opcode = 0x20 then s.bumpR c.ridge 8 else s
  ((s.event none 0x11 1).film 0x04 .none c.ridge [c.d.tag, c.d.opcode, slot, c.d.exposure], slot)

/-- An item belongs to a request. -/
def Item.of (slot : Nat) (i : Item) : Bool := i.req == slot

/-- A cell runs a strand of a request: its item, or the partial it holds. -/
def Cell.runs (c : Cell) (slot : Nat) : Bool := c.item.any (Item.of slot) || c.held.any (fun h => Item.of slot h.1)

/-- The item that waits for a cell whose strand is given up there: it is ready again, unless a spill still runs (R160). -/
def Cell.handBack (c : Cell) (slot : Nat) : List Item :=
  if c.runs slot && !c.spilling then c.mark.toList.filter (fun i => !Item.of slot i) else []

/-- A cell lets go of a request's work. -/
def Cell.drop (c : Cell) (slot now : Nat) : Cell :=
  let mine := c.item.any (Item.of slot)
  { c with item := if mine then none else c.item
           held := if c.held.any (fun h => Item.of slot h.1) then none else c.held
           mark := if c.mark.any (Item.of slot) || (c.runs slot && !c.spilling) then none else c.mark
           spilling := c.spilling && !mine
           since := if mine then now else c.since
           spills := c.spills.filter (fun p => !Item.of slot p.item) }

/-- Give up a request's unfinished work (R145): ready items, running and spilled strands, waiting partials. -/
def State.dropWork (s : State) (slot : Nat) : State :=
  { s with cirques := s.cirques.mapVals (fun _ q =>
      { q with ready := q.ready.filter (fun i => !Item.of slot i) ++ q.cells.flatMap (fun e => e.2.handBack slot)
               idleSince := if q.ready.any (Item.of slot) then s.now else q.idleSince
               reorder := q.reorder.filter (fun e => e.1 != slot)
               withheld := q.withheld.filter (fun i => !Item.of slot i)
               cells := q.cells.mapVals (fun _ c => c.drop slot s.now) }) }

/-- The region a remote query was placed in ends with its request. -/
def State.dropQuery (s : State) (q : Request) : State :=
  match s.regions.get? (regionKey q.ridge q.region) with
  | some g => if g.kind = .query then s.endRegion q.ridge q.region else s
  | none => s

/-- The number that stands for no request. -/
def noReq : Nat := 262144

/-- Cairn segments of a request (R145, R203): those queued leave the banks; one that runs goes on, for no request. -/
def State.dropSegments (s : State) (slot : Nat) : State :=
  { s with banks := s.banks.mapVals (fun _ b => { b with
      queue := b.queue.filter (fun g => g.req != slot)
      running := b.running.map (fun g => if g.req = slot then { g with req := noReq } else g) }) }

/-- The linger of a bank group, by its key, in ns (R173): its stack's. -/
def State.lingerNs (s : State) (k : Nat) : Nat := (s.stack (k / 32)).linger * 10000

/-- A holder lets go: a group whose last hold goes lingers (R173). -/
def State.releaseHolder (s : State) (holder : Nat) : State :=
  { s with groups := s.groups.mapVals (fun k x =>
      if x.holders.contains holder then
        let l := x.holders.filter (· != holder)
        { x with holders := l, lingerAt := if l.isEmpty then some (s.now + s.lingerNs k) else none }
      else x) }

/-- An admitted request completes (R388): CMD_DONE is emitted, DEVELOP's status counted (R116), its work and query region are
released, and the entry is written. A slot whose completion travels by Kalad stays held until the entry is acknowledged
(R285). -/
def State.complete (s : State) (slot : Nat) (st : Status) (flags r0 r1 : Nat) : State :=
  match s.reqs.get? slot with
  | none => s
  | some q =>
    let s := if q.opcode = 0x20 then s.bumpR q.ridge (32 + st.code) else s
    let s := s.film 0x05 .none q.ridge [q.tag, q.opcode, st.code, slot, q.errRef]
    let s := (((s.dropWork slot).dropSegments slot).releaseHolder slot).dropQuery q
    let s := s.modReq slot (fun q => { q with phase := .posted, data := [], query := [], parts := [], contribs := [], todo := [],
                                              items := [], recs := [] })
    s.post q.src (some slot) { tag := q.tag, opcode := q.opcode, status := st, sqHead := q.sqHead, exposure := q.exposure,
                               flags := flags, r0 := r0, r1 := r1, errRef := q.errRef }

/-- A command that is done as soon as it is admitted. -/
def State.quick (s : State) (c : Cmd) (st : Status) (r0 r1 : Nat) : State :=
  let (s, slot) := s.admitReq c .engine id
  s.complete slot st 0 r0 r1

/-- Write an error record that concerns a request: it names the command, and the first one is its ERR_REF (R388, R420). -/
def State.noteReq (s : State) (slot : Nat) (e : ErrRec) : State :=
  match s.reqs.get? slot with
  | none => s.report e
  | some q =>
    let (s, seq) := s.logErr { e with ridge := q.ridge, tag := q.tag, opcode := q.opcode, handle := q.desc.handle }
    s.modReq slot (fun q => { q with errRef := if q.errRef = 0 then seq else q.errRef })

/-- Record a runtime cause of a request and its error record (R51, R115). The first cause decides the status; later causes write
their records. -/
def State.failReq (s : State) (slot : Nat) (st : Status) (e : ErrRec) : State :=
  (s.noteReq slot { e with status := some st }).modReq slot (fun q => if q.fail.isSome then q else { q with fail := some st })

/-- A request ends at once with a runtime status. -/
def State.failNow (s : State) (slot : Nat) (st : Status) (e : ErrRec) : State :=
  let s := s.failReq slot st e
  match s.reqs.get? slot with
  | none => s
  | some q => s.complete slot (q.fail.getD st) 0 0 0

end Sys2Proof.Machine
end

