-- ==== Sys2Proof/Machine/Store.lean ====
section
/-! DEFINITION. The page store: handles (R52 to R54), homes (R73), slots and pools (R80, R81), page headers (R58), pages given
back (R72, R76, R89), what readers hold, and reads of stored pages (R74, R252, R415).
Log entries 4, 16, 20, 29, 53, 65, 68. -/

namespace Sys2Proof.Machine

open Sys2Proof

-- Homes (R73).

/-- The finalizer of R73. -/
def mix73 (x : Nat) : Nat :=
  let z := (x + 0x9E3779B97F4A7C15) &&& mask64
  let z := ((z ^^^ (z >>> 30)) * 0xBF58476D1CE4E5B9) &&& mask64
  let z := ((z ^^^ (z >>> 27)) * 0x94D049BB133111EB) &&& mask64
  z ^^^ (z >>> 31)

/-- k of R73 among n for an input x. -/
def index73 (x n : Nat) : Nat := (mix73 x >>> 32) * n / 4294967296

/-- The home index k of a page among n cirques (R73). -/
def homeIndex (salt layer pageNo n : Nat) : Nat := index73 (salt * 4294967296 + layer * 16777216 + pageNo) n

/-- The home index of a page in a ridge. -/
def State.homeK (s : State) (r salt layer pageNo : Nat) : Nat := homeIndex salt layer pageNo (s.ridge r).p.cirques.length

-- Slots (R15, R80, R170).

/-- Row groups of a cirque that regions hold: page-sketch, scratch and index regions. -/
def State.groupsTaken (s : State) (c : Nat) : List Nat :=
  s.ridges.flatMap (fun e => match e.2.pskr with
    | some p => (p.rowGroups.get? c).getD []
    | none => []) ++
  s.regions.flatMap (fun e => match e.2.kind with
    | .scratch q gs _ => if q = c then gs else []
    | .composite _ _ _ _ => []
    | .lease => []
    | .completion _ => []
    | .query => []) ++
  s.indexes.flatMap (fun e => (e.2.groups.get? c).getD [])

/-- Slots of a cirque that indexes hold beside row groups (R215). -/
def State.extraTaken (s : State) (c : Nat) : List Nat := s.indexes.flatMap (fun e => (e.2.extra.get? c).getD [])

/-- Pages held in a cirque. -/
def State.pagesIn (s : State) (c : Nat) : Nat := (s.pages.filter (fun e => slotCirque e.1 == c)).length

/-- Free slots of a cirque (R80). -/
def State.freeSlots (s : State) (c : Nat) : Nat :=
  slotsPerCirque - (7 * (s.groupsTaken c).length + (s.extraTaken c).length + s.pagesIn c)

/-- A ridge's free slots (R81, R82). -/
def State.freeOfRidge (s : State) (r : Nat) : Nat := (s.ridge r).p.cirques.foldl (fun n c => n + s.freeSlots c) 0

/-- A slot of a cirque is free: no page, region or index holds it. -/
def State.slotIsFree (s : State) (c x : Nat) (gs ex : List Nat) : Bool :=
  (s.pages.get? (c * slotsPerCirque + x)).isNone && !(decide (5 ≤ x) && gs.contains ((x - 5) / 7)) && !ex.contains x

/-- The lowest free slot from one on (log entry 16). -/
def State.slotFrom (s : State) (c : Nat) (gs ex : List Nat) (x n : Nat) : Option Nat :=
  match n with
  | 0 => none
  | n + 1 => if s.slotIsFree c x gs ex then some x else s.slotFrom c gs ex (x + 1) n

/-- The lowest free slot of a cirque, as a key. -/
def State.findSlot (s : State) (c : Nat) : Option Nat :=
  (s.slotFrom c (s.groupsTaken c) (s.extraTaken c) 0 slotsPerCirque).map (c * slotsPerCirque + ·)

/-- A row group of a cirque has all its seven slots free (R170). -/
def State.groupIsFree (s : State) (c i : Nat) (gs ex : List Nat) : Bool :=
  !gs.contains i && (List.range 7).all (fun j => s.slotIsFree c (7 * i + 5 + j) [] ex)

/-- The lowest n free row groups of a cirque, or none when it lacks them (log entry 16). -/
def State.groupsFrom (s : State) (c : Nat) (gs ex : List Nat) (i fuel n : Nat) : Option (List Nat) :=
  match fuel with
  | 0 => if n = 0 then some [] else none
  | fuel + 1 =>
    if n = 0 then some []
    else if s.groupIsFree c i gs ex then (s.groupsFrom c gs ex (i + 1) fuel (n - 1)).map (i :: ·)
    else s.groupsFrom c gs ex (i + 1) fuel n

def State.findGroups (s : State) (c n : Nat) : Option (List Nat) :=
  s.groupsFrom c (s.groupsTaken c) (s.extraTaken c) 0 64365 n

/-- The lowest n free slots of a cirque, the row groups given apart (R215). -/
def State.slotsFrom (s : State) (c : Nat) (gs ex : List Nat) (x fuel n : Nat) : Option (List Nat) :=
  match fuel with
  | 0 => if n = 0 then some [] else none
  | fuel + 1 =>
    if n = 0 then some []
    else if s.slotIsFree c x gs ex then (s.slotsFrom c gs ex (x + 1) fuel (n - 1)).map (x :: ·)
    else s.slotsFrom c gs ex (x + 1) fuel n

def State.findSlots (s : State) (c n : Nat) (gs : List Nat) : Option (List Nat) :=
  s.slotsFrom c (gs ++ s.groupsTaken c) (s.extraTaken c) 0 slotsPerCirque n

/-- The write generation of a slot, and its increment at an allocation or ring reuse (R76). -/
def State.nextWgen (s : State) (key : Nat) : Nat × State :=
  let g := (s.wgens.get? key).getD 0 + 1
  (g, { s with wgens := s.wgens.set key g })

-- Handles (R52, R53).

def handleIdx (h : Nat) : Nat := h % 262144
def handleGen (h : Nat) : Nat := h / 262144
def handleOf (idx gen : Nat) : Nat := gen * 262144 + idx

/-- The sequence a handle names, unless the handle is stale for the ridge (R53). -/
def State.seqOf (s : State) (r h : Nat) : Option SeqD :=
  match s.seqs.get? (handleIdx h) with
  | none => none
  | some q => if handleGen h ≠ 0 ∧ q.gen = handleGen h ∧ q.ridge = r then some q else none

/-- Check 4 (R92): the handle is not stale. -/
def State.handleOk (s : State) (r h : Nat) : Bool := (s.seqOf r h).isSome

/-- The sequence is in one of the states given. -/
def State.seqIn (s : State) (r h : Nat) (l : List SState) : Bool :=
  match s.seqOf r h with
  | some q => l.contains q.state
  | none => false

/-- The sequence holds a layer. -/
def SeqD.hasLayer (q : SeqD) (l : Nat) : Bool := (q.layers.get? l).isSome

def State.layerOk (s : State) (r h l : Nat) : Bool :=
  match s.seqOf r h with
  | some q => q.hasLayer l
  | none => false

/-- A layer with nothing in it: the next position is START_POS. -/
def Layer.empty (start : Nat) : Layer := { next := start, pages := [], grads := [], dirty := false }

def SeqD.layer (q : SeqD) (l : Nat) : Layer := (q.layers.get? l).getD (Layer.empty q.start)

def State.modLayer (s : State) (idx l : Nat) (f : Layer → Layer) : State :=
  s.modSeq idx (fun q => { q with layers := q.layers.adjust l f })

/-- Sequences of a ridge (R54). -/
def State.seqCount (s : State) (r : Nat) : Nat := (s.seqs.filter (fun e => e.2.ridge == r)).length

/-- A descriptor can be taken: the allowance is not exhausted (R54). -/
def State.seqFree (s : State) (r : Nat) : Bool :=
  decide (s.seqCount r < (s.ridge r).p.descAllow) && (s.seqs.fresh 0 262144).isSome

/-- Take the lowest free descriptor (log entry 16): its index, with the sequence put in it under its next generation. -/
def State.putSeq (s : State) (q : SeqD) : Nat × State :=
  let idx := (s.seqs.fresh 0 262144).getD 0
  (idx, { s with seqs := s.seqs.set idx { q with gen := (s.gens.get? idx).getD 1 } })

/-- The handle of a sequence. -/
def State.handleAt (s : State) (idx : Nat) : Nat :=
  match s.seqs.get? idx with
  | some q => handleOf idx q.gen
  | none => 0

/-- The lead cirque's index k of a request on a sequence (R96). -/
def State.leadK (s : State) (r h : Nat) : Nat := handleIdx h % max 1 (s.ridge r).p.cirques.length

-- Pages.

/-- PSTATE (R58). -/
def PSt.code (p : PSt) : Nat :=
  match p with
  | .opened => 0
  | .sealed => 1
  | .ring => 2
  | .pinned => 3

/-- Bytes of a gradient token record, and how many a page holds (R135). -/
def Fmt.gradBytes (f : Fmt) : Nat := 8 * f.hkv * f.d
def Fmt.gtpp (f : Fmt) : Nat := min 256 (63488 / f.gradBytes)

/-- What PLACE_SALT is xored with for the home of a gradient page (R135). -/
def gradSalt : Nat := 0x47524144

/-- A new page: an open page (R58, R61), or a gradient page, sealed, raw and zero (R135, R136). -/
def Page.fresh (q : SeqD) (r wgen layer pageNo homeK : Nat) (grad : Bool) : Page :=
  { ridge := r, refs := 1, wgen := wgen, pstate := if grad then .sealed else .opened, want := none, raw := grad,
    partl := false, grad := grad, pageNo := pageNo, layer := layer, tokens := if grad then q.fmt.gtpp else 0,
    tpp := q.fmt.tpp, homeK := homeK, salt := q.salt,
    firstPos := q.start + pageNo * (if grad then q.fmt.gtpp else q.fmt.tpp), fmt := q.fmt.bits, encBytes := 63488,
    table := [], sketch := [], payload := [], bad := [], injected := [] }

/-- N of R244: the coded length of a page; of a gradient page, the length of its records. -/
def Page.coded (p : Page) : Nat :=
  p.tokens * (if p.grad then (Fmt.parse p.fmt).gradBytes else (Fmt.parse p.fmt).tokenBytes)

/-- The 2,048 bytes of a page header (R58). -/
def Page.header (p : Page) : List Byte :=
  leBytes 4 (1 + p.pstate.code * 256 + flagBit p.raw 11 + flagBit p.partl 12 + flagBit p.grad 13) ++
  leBytes 4 (p.pageNo + p.layer * 16777216) ++ leBytes 4 (p.tokens + p.tpp * 512 + p.homeK * 262144) ++ leBytes 4 p.salt ++
  leBytes 8 p.firstPos ++ leBytes 24 p.fmt.toNat ++ leBytes 4 p.encBytes ++ List.replicate 12 0#8 ++
  sliceBytes p.table 0 960 ++
  (List.range 16).flatMap (fun h => leBytes 64 (p.sketch.getD h 0))

/-- Stored payload bytes a read of the page needs (R252). -/
def Page.stored (p : Page) : Nat := if p.raw || p.pstate == .opened then p.coded else p.encBytes

/-- A granule that a read of the page meets is uncorrectable (R252, R415). -/
def Page.badRead (p : Page) : Option Nat := p.bad.find? (fun g => decide (g < 8 + granules p.stored))

/-- The tag of a granule (R76): its ridge and the low 11 bits of the write generation. -/
def granuleTag (ridge wgen : Nat) : Nat := ridge % 32 + wgen % 2048 * 32

/-- The first granule that a read of a page delivers nothing of, with its cause: every granule carries the tag of the write that made the
page, which is compared with the slot's own (R76); then the granules known to be uncorrectable. -/
def State.badGranule (s : State) (key : Nat) (p : Page) : Option (Nat × Cause) :=
  if granuleTag p.ridge p.wgen ≠ granuleTag p.ridge ((s.wgens.get? key).getD 0) then some (0, .misplaced)
  else p.badRead.map (fun g => (g, .uncorr))

-- The tile layout (R84).

/-- The places of the positions that tile i of a head covers. -/
def tilePlaces (tokens i : Nat) : List Nat := (List.range (min 16 (tokens - 16 * i))).map (16 * i + ·)

/-- Tile i of head h: key elements, key scales, value elements and value scales, each in position order. -/
def Fmt.tile (f : Fmt) (recs : List Byte) (tokens h i : Nat) : List Byte :=
  let js := tilePlaces tokens i
  let runs (t code : Nat) : List Byte :=
    js.flatMap (fun j => sliceBytes (f.headAt recs j t h) 0 (elemBytes code f.d)) ++
    js.flatMap (fun j => sliceBytes (f.headAt recs j t h) (elemBytes code f.d) (scaleBytes code f.d))
  runs 0 f.kfmt ++ runs 1 f.vfmt

/-- The tiles of one head: those a stream fill delivers to an item (R253). -/
def Fmt.headTiles (f : Fmt) (recs : List Byte) (tokens h : Nat) : List Byte :=
  (List.range (ceilDiv tokens 16)).flatMap (f.tile recs tokens h)

/-- The tiles of a page, head by head: TOKENS × bytes_per_token bytes, the rest of the frame being 0. -/
def Fmt.tiles (f : Fmt) (recs : List Byte) (tokens : Nat) : List Byte := (List.range f.hkv).flatMap (f.headTiles recs tokens)

/-- The frame byte at which the tiles of head h start: h × TOKENS × b_h. -/
def Fmt.tileBase (f : Fmt) (tokens h : Nat) : Nat := h * tokens * (f.tokenBytes / f.hkv)

/-- The head record of stream t of the j-th token, read out of the tiles of its head. -/
def Fmt.tileHead (f : Fmt) (tiles : List Byte) (tokens j t : Nat) : List Byte :=
  let i := j / 16
  let n := min 16 (tokens - 16 * i)
  let code := if t = 0 then f.kfmt else f.vfmt
  let at_ := 16 * i * (f.tokenBytes / f.hkv) + (if t = 0 then 0 else n * headBytes f.kfmt f.d)
  sliceBytes tiles (at_ + j % 16 * elemBytes code f.d) (elemBytes code f.d) ++
  sliceBytes tiles (at_ + n * elemBytes code f.d + j % 16 * scaleBytes code f.d) (scaleBytes code f.d)

/-- Token records that hold head h as its tiles give it, and 0 for the other heads. -/
def Fmt.untile (f : Fmt) (tiles : List Byte) (tokens h : Nat) : List Byte :=
  (List.range tokens).flatMap (fun j =>
    (List.range f.hkv).flatMap (fun x => sliceBytes (if x = h then f.tileHead tiles tokens j 0 else []) 0 (headBytes f.kfmt f.d)) ++
    (List.range f.hkv).flatMap (fun x => sliceBytes (if x = h then f.tileHead tiles tokens j 1 else []) 0 (headBytes f.vfmt f.d)))

/-- The token records of a page: none for a codec fault (R252 to R254). -/
def Page.records (p : Page) : Option (List Byte) :=
  if p.raw || p.pstate = .opened then some (sliceBytes p.payload 0 p.coded)
  else (Fmt.parse p.fmt).decode p.tokens p.table p.payload p.encBytes

/-- The image READ delivers (R255). -/
def Page.image (p : Page) (recs : List Byte) : List Byte := p.header ++ sliceBytes recs 0 payloadBytes

-- Where a granule lies (R74), as LOC0 of R420.

/-- LOC0 of a word of granule j of a page slot. -/
def locOf (key j word : Nat) : Nat :=
  let c := slotCirque key
  let p := 8192 + key % slotsPerCirque
  c + (8 * c + j % 8) * 16 + ((j / 8) % 2) * 2048 + (j / 16) * 4096 + (p / 7) * 65536 + (p % 7) * 4294967296 +
    word * 34359738368

/-- The stack of granule j in a cirque (R74). -/
def stackOf (c j : Nat) : Nat := (8 * c + j % 8) / 4

-- Events of pages.

/-- An access to the first n granules of a slot of cirque c is held in every bank that runs a segment (R195). -/
def State.holdBanks (s : State) (c n : Nat) : State :=
  { s with
    banks := s.banks.mapVals (fun k b =>
      if k / 256 = c ∧ k % 256 < n ∧ b.running.isSome then
        { b with held := b.held + 1, heldAt := if b.held = 0 then s.now else b.heldAt }
      else b)
    ctrs := (s.banks.filter (fun e => e.1 / 256 == c && decide (e.1 % 256 < n) && e.2.running.isSome)).foldl
      (fun l _ => ctrPut l (.cirque c 20) (min ctrMax (ctrGet l (.cirque c 20) + 1))) s.ctrs }

/-- Cirque event 0x0A: DRAM granules read (R457), held where a segment runs. -/
def State.dramRead (s : State) (c n : Nat) : State := (s.event (some c) 0x0A n).holdBanks c n

/-- Cirque event 0x0B: DRAM granules written (R457), held where a segment runs. -/
def State.dramWrite (s : State) (c n : Nat) : State := (s.event (some c) 0x0B n).holdBanks c n

/-- Row operations that units of a cirque have completed (R208). -/
def State.countRows (s : State) (c n : Nat) : State := (s.bumpBy (.cirque c 16) n).event (some c) 0x0C n

/-- Cairn COPY of n granules from one on, each in its own bank (R68, R190): two row operations a granule, charged to its stack (R179,
R196). -/
def State.cairnCopy (s : State) (c first n : Nat) : State :=
  let charge (s : State) (k : Nat) : State :=
    let m : Nat := 2 * ((List.range n).filter (fun i => stackOf c (first + i) == k)).length
    s.modStack k (fun x => { x with grant := x.grant - (m : Int), charged := x.charged + m })
  if n = 0 then s else (charge (charge s (2 * c)) (2 * c + 1)).countRows c (2 * n)

/-- Pinned frames of a set of slice d, one of its frames apart (R88). -/
def State.pinsIn (s : State) (d set but : Nat) : Nat :=
  (s.frames.filter (fun e => e.1 != but && e.1 / 16 == d * 60 + set && (match e.2.pinTo with
    | some t => decide (s.now ≤ t)
    | none => false))).length

/-- Pin the frame of slice d that holds a page, unless eight others of its set are pinned (R87, R88): true when it is pinned. A pin lasts
to the latest of the deadlines it was asked for. -/
def State.pinFrame (s : State) (d key to_ r : Nat) : State × Bool :=
  match s.frames.find? (fun e => e.1 / 960 == d && e.2.slot == key) with
  | none => (s, false)
  | some (k, _) =>
    if 8 ≤ s.pinsIn d (k / 16 % 60) k then (s.bumpR r 6, false)
    else ({ s with frames := s.frames.adjust k (fun f => { f with pinTo := some (max to_ (f.pinTo.getD 0)) }) }, true)

/-- One page of a PREFETCH is warm, or its fill has ended without: the last one completes the command with its counts (R87,
R388). -/
def State.prefetchOne (s : State) (slot d key : Nat) (warm : Bool) : State :=
  match s.reqs.get? slot with
  | none => s
  | some q =>
    let pin := warm && q.desc.pin && q.tagged
    let (s, pinned) := if pin then s.pinFrame d key q.deadline q.ridge else (s, false)
    let s := s.modReq slot (fun q => { q with
      list := q.list.filter (fun e => e != (d, key))
      result0 := q.result0 + (if warm then 1 else 0) + (if pinned then 4294967296 else 0) })
    match s.reqs.get? slot with
    | none => s
    | some q => if q.list.isEmpty then s.complete slot .ok 0 q.result0 0 else s

/-- A frame fill of a page in slice d has ended: every PREFETCH that waits for it goes on. -/
def State.prefetchEnd (s : State) (d key : Nat) (warm : Bool) : State :=
  (s.reqs.filter (fun e => e.2.opcode == 0x10 && e.2.phase == .engine && e.2.list.contains (d, key))).foldl
    (fun s e => s.prefetchOne e.1 d key warm) s

/-- Frames of a slot leave the cache, and its prefetch fills are cancelled (R89). -/
def State.invalidate (s : State) (key : Nat) : State :=
  let ds := (s.cirques.filter (fun e => e.2.fills.any (fun f => f.1 == key))).map (·.1)
  let s := { s with frames := s.frames.keep (fun _ f => f.slot != key),
                    cirques := s.cirques.mapVals (fun _ q => { q with fills := q.fills.filter (fun e => e.1 != key) }) }
  ds.foldl (fun s d => s.prefetchEnd d key false) s

/-- A page awaiting seal leaves the queue: its seal is cancelled (R256). -/
def State.cancelSeal (s : State) (key r : Nat) : State :=
  let c := slotCirque key
  if (s.cirque c).sealQ.contains key then
    (s.modCirque c (fun q => { q with sealQ := q.sealQ.filter (· != key) })).bumpR r 70
  else s

/-- The positions a page holds in the page-sketch region are freed; an empty row returns to the region (R239). -/
def State.freeSketch (s : State) (key r : Nat) : State :=
  s.modRidge r (fun g => { g with pskr := g.pskr.map (fun p => { p with
    rows := p.rows.mapVals (fun _ rows =>
      (rows.map (fun w => { w with used := w.used.filter (fun u => u.2 != key) })).filter (fun w => !w.used.isEmpty)) }) })

/-- A remembered CHECK2 injection ends when its granule is rewritten (R435). -/
def State.rewritten (s : State) (key : Nat) (gs : Nat → Bool) : State :=
  { s with health := { s.health with check2 := s.health.check2.filter (fun e => !(e.2.1 == key && gs e.2.2)) } }

/-- A page returns to free (R61, R72, R89, R239, R256). -/
def State.freePage (s : State) (key : Nat) : State :=
  match s.pages.get? key with
  | none => s
  | some p =>
    let s := ((s.cancelSeal key p.ridge).invalidate key).freeSketch key p.ridge
    { s with pages := s.pages.erase key }

/-- One reference of a page is dropped (R72). -/
def State.dropRef (s : State) (key : Nat) : State :=
  match s.pages.get? key with
  | none => s
  | some p => if p.refs ≤ 1 then s.freePage key else s.modPage key (fun p => { p with refs := p.refs - 1 })

/-- A page joins its cirque's seal queue to enter a state (R249). -/
def State.queueSeal (s : State) (key : Nat) (want : PSt) : State :=
  (s.modPage key (fun p => { p with want := some want })).modCirque (slotCirque key) (fun q => { q with sealQ := q.sealQ ++ [key] })

/-- Errors of a page read are counted, weighed and recorded (R415, R417, R423): the record's cause, location and page. -/
def State.pageErr (s : State) (key j : Nat) (p : Page) (cause : Cause) : State × ErrRec :=
  let inj := p.injected.contains j
  let s := if cause = .codec then s.bumpR p.ridge 73 else s.bumpN 2049
  let comp : Comp := if cause = .codec then .cirque (slotCirque key) else .stack (stackOf (slotCirque key) j)
  let s := s.weigh comp (if cause = .codec then 300 else 200) inj
  (s, { ErrRec.of cause p.ridge comp with
        injected := inj, loc0 := if cause = .codec then 0 else locOf key j 0, layer := p.layer, page := p.pageNo,
        noPage := false })

/-- A corrected word of a page (R415, R416, R423). -/
def State.pageCorr (s : State) (key j : Nat) : State := (s.bumpN 2048).weigh (.stack (stackOf (slotCirque key) j)) 1 false

-- Readers.

/-- Every item of a request that is not yet finished: not created, ready, running, or waiting for a marked cell. The pages that are left
of a spilled strand are among the ready items (R163). -/
def State.itemsOf (s : State) (slot : Nat) : List Item :=
  (match s.reqs.get? slot with
    | some q => q.todo
    | none => []) ++
  s.cirques.flatMap (fun e =>
    e.2.ready.filter (Item.of slot) ++
    e.2.cells.flatMap (fun f =>
      (f.2.item.toList ++ f.2.mark.toList).filter (Item.of slot)))

/-- A DEVELOP or REVERSE still reads a page (R71, R72). -/
def State.readsPage (s : State) (slot : Nat) (q : Request) (pageNo key : Nat) : Bool :=
  q.pages.contains (pageNo, key) &&
  (match q.phase with
    | .waiting => true
    | .fetching => true
    | .thin => true
    | .dense => (s.itemsOf slot).any (fun i => i.page == pageNo)
    | .output => false
    | .armed => false
    | .held => false
    | .forkWait => true
    | .engine => true
    | .posted => false)

/-- Some reader holds a slot. -/
def State.readers (s : State) (key : Nat) : Bool :=
  s.reqs.any (fun e => e.2.pages.any (fun p => p.2 == key && s.readsPage e.1 e.2 p.1 key))

/-- Some DEVELOP or REVERSE reads a slot, which ring reuse waits for (R71, R112). One that is admitted while the write is held reads the
page too, and is waited for: R112 lets no request lose a page it reads (log entry 77). -/
def State.ringReaders (s : State) (key : Nat) : Bool :=
  s.reqs.any (fun e => (e.2.opcode == 0x20 || e.2.opcode == 0x21) &&
    e.2.pages.any (fun p => p.2 == key && s.readsPage e.1 e.2 p.1 key))

-- The source of a command that is one step (R95 for APPEND, INGEST, INSERT, DELETE).

/-- The bytes at the command's source: inline after the descriptor, or what the fetch placed; none when the fetch failed. A
fetch from host memory is a PCIe read (R370). -/
def State.source (s : State) (c : Cmd) (len : Nat) (data : Option (List Byte)) : State × Option (List Byte) :=
  if c.d.srcOf.qsrc = 0 then (s, some c.inl)
  else
    let s := if c.d.srcOf.qsrc = 3 then
        (s.readHost c.src c.d.srcOf.addr len).event none 0x0D len
      else s
    match data with
    | none => (s, none)
    | some bs => (s, if bs.length < len then none else some (bs.take len))

/-- Check 7 on an inline source: at most 4,096 bytes, all of them present (R92, R94). -/
def Cmd.inlineOk (c : Cmd) (len : Nat) : Bool :=
  c.d.srcOf.qsrc != 0 || (decide (len ≤ 4096) && decide (len ≤ c.inl.length))

/-- What `take` is given as inline bytes. -/
def inlineOf (d : Desc) (data : Option (List Byte)) : List Byte := if d.srcOf.qsrc = 0 then data.getD [] else []

end Sys2Proof.Machine
end

