-- ==== Sys2Proof/Machine/Mirror.lean ====
section
/-! DEFINITION. The belay mirror (R437 to R440): the node's own commands to the buddy, what waits for the buddy, and breaks.
Log entries 17, 33, 34. -/

namespace Sys2Proof.Machine

open Sys2Proof

/-- A descriptor from fields: offset in bytes, lowest bit, value. -/
def descOf (l : List (Nat × Nat × Nat)) : Desc :=
  BitVec.ofNat 1024 (l.foldl (fun n f => n + f.2.2 * 2 ^ (8 * f.1 + f.2.1)) 0)

/-- The common header of a mirrored command: untagged, under the current epoch (R438). -/
def mirHeader (op ridge prio : Nat) : List (Nat × Nat × Nat) :=
  [(0, 0, op), (0, 8, ridge), (0, 13, prio), (8, 0, 0xFFFFFFFFFFF)]

/-- The sequence a handle names, whatever its ridge. -/
def State.seqAt (s : State) (h : Nat) : Option SeqD :=
  match s.seqs.get? (handleIdx h) with
  | some q => if q.gen = handleGen h then some q else none
  | none => none

def State.modMirror (s : State) (h : Nat) (f : MirrorSeq → MirrorSeq) : State :=
  match s.seqAt h with
  | some _ => s.modSeq (handleIdx h) (fun q => { q with mirror := q.mirror.map f })
  | none => s

/-- A SYNC APPEND stops waiting (R439). -/
def State.mirRelease (s : State) (slot : Option Nat) (st : Status) : State :=
  match slot with
  | none => s
  | some k =>
    match s.reqs.get? k with
    | none => s
    | some q => if q.phase = .engine then s.complete k st 0 q.result0 0 else s

/-- What waits for a buddy that will never name a sequence: APPENDs complete without it, and a child whose FORK waits is not mirrored
(log entry 34). The fuel counts the generations of children. -/
def State.mirForget (fuel : Nat) (s : State) (h : Nat) (l : List (Nat × Nat × List Byte × Option Nat)) : State :=
  match fuel with
  | 0 => s
  | fuel + 1 =>
    l.foldl (fun s e =>
      if e.1 = h then s.mirRelease e.2.2.2 .ok
      else
        match (s.seqAt e.1).bind (·.mirror) with
        | some m => mirForget fuel (s.modSeq (handleIdx e.1) (fun q => { q with mirror := none })) e.1 m.held
        | none => s) s

/-- The other commands of an APPEND that has failed no longer answer for it. -/
def State.mirUnhook (s : State) (slot : Option Nat) : State :=
  if slot.isNone then s
  else { s with conns := s.conns.mapVals (fun _ c => { c with mirOut := c.mirOut.map (fun e =>
    if e.2.2.2 = slot then (e.1, e.2.1, e.2.2.1, none) else e) }) }

/-- The mirror of a sequence breaks at its first failed command (R440); APPENDs that were never sent complete without it. -/
def State.mirBreak (s : State) (h : Nat) (r : Nat) (slot : Option Nat) : State :=
  let s := (s.mirUnhook slot).mirRelease slot .outFault
  match s.seqAt h with
  | none => s
  | some q =>
    match q.mirror with
    | none => s
    | some m =>
      if m.broken then s
      else
        let s := (s.modMirror h (fun m => { m with broken := true, held := [] })).bumpN 2061
        let s := s.report { ErrRec.of .mirror r .none with handle := h }
        s.mirForget (s.seqs.length + 1) h m.held

/-- Put the tag, epoch and buddy handle into a message, and send it (R438). -/
def State.mirSend (s : State) (n h op : Nat) (msg : List Byte) (buddy : Option Nat) (slot : Option Nat) : State :=
  match s.conns.get? n with
  | none => s.mirBreak h 31 slot
  | some c =>
    let msg := putBytes msg 2 (leBytes 2 c.mirTag)
    let msg := putBytes msg 4 (leBytes 2 s.epochNow)
    let msg := match buddy with
      | some b => putBytes msg 0x10 (leBytes 4 b)
      | none => msg
    if 8192 < msg.length then s.mirBreak h c.ridge slot
    else
      match s.kSend n 4 0 0 0 msg (.mirror h c.mirTag slot) with
      | none => s.mirBreak h c.ridge slot
      | some (s, _) =>
        (s.modConn n (fun c => { c with mirOut := c.mirOut ++ [(c.mirTag, op, h, slot)],
                                        mirTag := (c.mirTag + 1) % 65536 })).bumpN 2060

/-- A mirror of a sequence takes its commands. -/
def SeqD.mirrored (q : SeqD) : Bool :=
  match q.mirror with
  | some m => !m.broken
  | none => false

def State.mirUp (s : State) (h : Nat) : Bool := (s.seqAt h).any SeqD.mirrored

/-- Mirror a command of a sequence: `via` is the sequence whose buddy handle it names. It waits until that handle is known. -/
def State.mirror (s : State) (via h op : Nat) (msg : List Byte) (slot : Option Nat) : State :=
  match s.seqAt via with
  | none => s
  | some q =>
    match q.mirror with
    | none => s
    | some m =>
      if m.broken then s
      else
        match m.buddy with
        | none => s.modMirror via (fun m => { m with held := m.held ++ [(h, op, msg, slot)] })
        | some b => s.mirSend m.conn h op msg (some b) slot

/-- The buddy's completion of a mirrored command (R438 to R440). -/
def State.mirDone (s : State) (n tag status result : Nat) : State :=
  match s.conns.get? n with
  | none => s
  | some c =>
    match c.mirOut.find? (fun e => e.1 == tag) with
    | none => s
    | some (_, op, h, slot) =>
      let s := s.modConn n (fun c => { c with mirOut := c.mirOut.filter (fun e => e.1 != tag) })
      if status ≠ 0 then s.mirBreak h c.ridge slot
      else
        let more := slot.isSome && s.conns.any (fun e => e.2.mirOut.any (fun m => m.2.2.2 == slot))
        let s := if more then s else s.mirRelease slot .ok
        if op = 0x01 || op = 0x04 then
          match s.seqAt h with
          | none => s
          | some q =>
            match q.mirror with
            | none => s
            | some m =>
              let s := s.modMirror h (fun m => { m with buddy := some (result % 4294967296), held := [] })
              m.held.foldl (fun s e => if s.mirUp h then s.mirror h e.1 e.2.1 e.2.2.1 e.2.2.2 else s.mirForget (s.seqs.length + 1) h [e]) s
        else s

/-- The transport failed a mirrored command (R439, R440). -/
def State.mirFail (s : State) (n h tag : Nat) (slot : Option Nat) : State :=
  let r := match s.conns.get? n with
    | some c => c.ridge
    | none => 31
  (s.modConn n (fun c => { c with mirOut := c.mirOut.filter (fun e => e.1 != tag) })).mirBreak h r slot

/-- The mirror a ridge gives a new sequence (R437). -/
def State.mirrorFor (s : State) (r : Nat) : Option MirrorSeq :=
  (s.ridge r).mirror.map (fun m => { conn := m.1, sync := m.2, buddy := none, broken := false, held := [] })

/-- The mirror of a child of FORK: under the settings in force, on the connection whose buddy holds its parent (R437, R438). -/
def State.mirrorFork (s : State) (r : Nat) (parent : SeqD) : Option MirrorSeq :=
  match s.mirrorFor r, parent.mirror with
  | some m, some p => some { m with conn := p.conn }
  | _, _ => none

/-- The rows an APPEND's mirrored parts carry: at most 4,096 bytes each, whole tokens (log entry 17). -/
def mirParts (fuel row first count : Nat) (data : List Byte) : List (Nat × Nat × List Byte) :=
  match fuel with
  | 0 => []
  | fuel + 1 =>
    if count = 0 then []
    else
      let n := min count (max 1 (4096 / row))
      (first, n, data.take (n * row)) :: mirParts fuel row (first + n) (count - n) (data.drop (n * row))

/-- Mirror an APPEND: under SYNC its request waits for every part (R439). -/
def State.mirAppend (s : State) (h ridge prio layer first count row : Nat) (data : List Byte) (slot : Option Nat) : State :=
  (mirParts (count + 1) row first count data).foldl (fun s e =>
    let d := descOf (mirHeader 0x02 ridge prio ++ [(0x14, 0, layer), (0x14, 8, e.2.1), (0x18, 0, e.1)])
    s.mirror h h 0x02 (d.bytes ++ e.2.2) slot) s

end Sys2Proof.Machine
end

