-- ==== Sys2Proof/Machine/Loupe.lean ====
section
/-! DEFINITION. Loupe (R320 to R340): entries, searches, critical entries, updates, LOUPE_SET, the scrub; and regions with their
handles (R324).
Log entries 3, 16, 19, 45. -/

namespace Sys2Proof.Machine

open Sys2Proof

-- Searches (R322, R329).

/-- Bits set in a mask. -/
def popCount (fuel n : Nat) : Nat :=
  match fuel with
  | 0 => 0
  | fuel + 1 => n % 2 + popCount fuel (n / 2)

/-- An entry matches a key of its table. -/
def LEntry.matches (e : LEntry) (t : LoupeTable) (k : Nat) : Bool := e.valid && e.table == t && (k ^^^ e.key) &&& e.mask == 0

/-- The first entry ranks above the second: for OFS and OFL more MASK bits, then PRIO; else PRIO (R329). Ties keep the
earlier, since banks and indices are met in ascending order. -/
def LEntry.above (t : LoupeTable) (a b : LEntry) : Bool :=
  if t = .ofs || t = .ofl then
    let x := popCount 160 a.mask
    let y := popCount 160 b.mask
    decide (y < x) || (x == y && decide (b.prio < a.prio))
  else decide (b.prio < a.prio)

/-- The winner among the banks: bank, index and entry. -/
def State.lWinner (s : State) (banks : List Nat) (t : LoupeTable) (k : Nat) : Option (Nat × Nat × LEntry) :=
  (banks.flatMap (fun b => ((s.lBank b).entries.filter (fun e => e.2.matches t k)).map (fun e => (b, e.1, e.2)))).foldl
    (fun w e => match w with
      | none => some e
      | some v => if e.2.2.above t v.2.2 then some e else some v) none

/-- What a search reports. -/
inductive LRes where
  | miss
  | hit (e : LEntry)
  /-- A critical winner that differs from its shadow twice (R331). -/
  | bad
  deriving DecidableEq, Repr

/-- Rewrite an entry from its bank's shadow. -/
def LBank.restore (b : LBank) (i : Nat) : LBank :=
  { b with entries := match b.shadow.get? i with
      | some e => b.entries.set i e
      | none => b.entries.erase i }

/-- A search counted in every bank it uses. -/
def State.lCount (s : State) (banks : List Nat) : State := (banks.foldl (fun s b => s.bump (.bank b 0)) s).event none 0x05 1

/-- One search of a table of an owner (R329), with the comparison of critical winners (R331). -/
def State.lSearch (s : State) (owner : Nat) (t : LoupeTable) (k : Nat) : State × LRes :=
  let banks := s.lBanks owner t
  let s := s.lCount banks
  match s.lWinner banks t k with
  | none => (s, .miss)
  | some (b, i, e) =>
    if !e.crit || (s.lBank b).wrongUnits i = 0 then (s, .hit e)
    else
      let s := (((s.modBankL b (·.restore i)).bumpN (48 + b)).weigh .ioRing 20 false).lCount banks
      match s.lWinner banks t k with
      | none => (s, .miss)
      | some (b, i, e) =>
        if !e.crit || (s.lBank b).wrongUnits i = 0 then (s, .hit e)
        else
          let s := ((s.modBankL b (·.restore i)).bumpN (48 + b)).weigh .ioRing 20 false
          (s.report (ErrRec.of .loupe 31 .ioRing), .bad)

-- Updates (R333).

/-- Where a new entry goes: the lowest bank of the table with a free index, and its lowest one (log entry 16). -/
def State.lFree (s : State) (owner : Nat) (t : LoupeTable) : Option (Nat × Nat) :=
  (s.lBanks owner t).foldl (fun w b => match w with
    | some x => some x
    | none => ((s.lBank b).entries.fresh 0 (lEntries (s.lBank b).width)).map (b, ·)) none

/-- Write an entry: the shadow first, then n slots (R333). -/
def State.lPut (s : State) (b i : Nat) (e : LEntry) : State :=
  (s.modBankL b (fun q => { q with entries := q.entries.set i e, shadow := q.shadow.set i e })).lSlots b (lUnits (s.lBank b).width)

/-- Add a node-written entry, every key bit compared (R324); none when the table is full (R327). -/
def State.lAdd (s : State) (owner : Nat) (t : LoupeTable) (key result : Nat) (crit : Bool) : Option State :=
  match s.lFree owner t with
  | none => none
  | some (b, i) =>
    some (s.lPut b i { valid := true, crit := crit, prio := 0, table := t, key := key,
                       mask := 2 ^ lKeyBits (s.lBank b).width - 1, result := result })

/-- The table and key of a peer address (R323). -/
def clsKey (r addr : Nat) : LoupeTable × Nat :=
  if isV4 addr then (.cls4, 3 + r * 256 + (addr % 4294967296) * 65536) else (.cls6, 4 + r * 256 + addr * 4294967296)

-- Regions (R324).

/-- What a region accepts: WRITE, WRITE_IMM, READ_REQ, and whether it is a composite buffer, as bits 18 to 21 of a REG result. -/
def RegionKind.flags (k : RegionKind) : Nat :=
  match k with
  | .composite _ _ _ _ => 0x3C0000
  | .scratch _ _ _ => 0
  | .lease => 0x080000
  | .completion _ => 0x080000
  | .query => 0

/-- The region descriptor indices in use. -/
def State.regIndexes (s : State) : List Nat :=
  s.loupe.banks.flatMap (fun b => (b.2.entries.filter (fun e => e.2.table == .reg)).map (fun e => e.2.result % 262144))

/-- The lowest number that is not in a list, within a count of tries. -/
def lowestNot (l : List Nat) (n i : Nat) : Nat :=
  match n with
  | 0 => i
  | n + 1 => if l.contains i then lowestNot l n (i + 1) else i

/-- A handle from the TRNG, nonzero and unique in the ridge (R324): the drawn one, or the next free one after it. -/
def State.drawHandle (s : State) (r : Nat) : Nat × State :=
  let (v, s) := s.draw
  let used := (s.regions.filter (fun e => e.2.ridge == r)).map (fun e => e.2.handle - 1)
  let base := v.toNat % 4294967295
  ((lowestNot (used.map (fun h => (h + 4294967295 - base) % 4294967295)) used.length 0 + base) % 4294967295 + 1, s)

/-- Create a region with its REG entry; none when the table is full (R324, R327). -/
def State.newRegion (s : State) (r : Nat) (kind : RegionKind) (size : Nat) : Option (State × Nat) :=
  let (h, s) := s.drawHandle r
  let idx := lowestNot s.regIndexes s.regIndexes.length 0
  match s.lAdd r .reg (regKey r h) (idx + kind.flags) false with
  | none => none
  | some s =>
    some ({ s with regions := s.regions.set (regionKey r h)
                     { ridge := r, handle := h, kind := kind, size := size, mem := [], rows := [], wgen := 0 } }, h)

-- LOUPE_SET (R333).

/-- The fields of an entry are in range: the key and mask fit the table's width, RESULT's reserved bits are 0. -/
def loupeOk (e : LoupeBody) (t : LoupeTable) : Bool :=
  let kb := if t = .ofs then 24 else 160
  !e.crit && e.reserved == 0 && decide (e.prio < 65536) && decide (e.key < 2 ^ kb) && decide (e.mask < 2 ^ kb) &&
  (if t = .rfl then decide (e.result < 256) else decide (e.result < 4096))

/-- The entry a LOUPE_SET writes: the table identifier is always compared (R323, log entry 19). -/
def loupeEntry (e : LoupeBody) (t : LoupeTable) : LEntry :=
  let tb := if t = .ofs then 4 else 8
  { valid := true, crit := false, prio := e.prio, table := t, key := (e.key >>> tb) <<< tb + lTid t,
    mask := (e.mask >>> tb) <<< tb + (2 ^ tb - 1), result := e.result }

/-- The rights a LOUPE_SET needs by its table. -/
def lRights (t : LoupeTable) : Rights := if t = .ofs || t = .ofl then .ridge0 else .any

/-- A LOUPE_SET on a table its sender may write: the owner it names. -/
def lOwner (h : MbxHdr) (s : State) (t : LoupeTable) (body : Nat → MRes) : MRes :=
  match t with
  | .ofs => body 0
  | .ofl => body 0
  | .rfl => withRidge h s body
  | .cls4 => .no s .accessDenied
  | .cls6 => .no s .accessDenied
  | .reg => .no s .accessDenied

/-- Where the index of a LOUPE_SET lies: a bank and entry as index 2,048 × bank + entry. -/
def State.lNamed (s : State) (owner : Nat) (t : LoupeTable) (index : Nat) : Option (Nat × Nat) :=
  let b := index / 2048
  let i := index % 2048
  if (s.lBanks owner t).contains b then
    match (s.lBank b).entries.get? i with
    | some e => if e.table = t ∧ e.valid then some (b, i) else none
    | none => none
  else none

/-- Firmware's copies of accepted LOUPE_SETs (R335). -/
def State.keepCopy (s : State) (b i : Nat) (e : Option LEntry) : State :=
  let rest := s.loupe.copies.filter (fun c => !(c.1 == b && c.2.1 == i))
  { s with loupe := { s.loupe with copies := match e with
      | some e => rest ++ [(b, i, e)]
      | none => rest } }

/-- LOUPE_SET ADD (R333). -/
def execLoupeSetAdd (t : Nat) (h : MbxHdr) (table : LoupeTable) (e : LoupeBody) (s : State) : Host.Outcome State Fault Refusal :=
  s.mbox t (.loupeSetAdd t h table e) h 0x0040 (lRights table) (fun s => lOwner h s table (fun r =>
    if !loupeOk e table then .no s .invalidArg
    else
      match s.lFree r table with
      | none => .no s .noSpace
      | some (b, i) => .ok ((s.lPut b i (loupeEntry e table)).keepCopy b i (some (loupeEntry e table))) [2048 * b + i]))

/-- LOUPE_SET DELETE (R333). -/
def execLoupeSetDelete (t : Nat) (h : MbxHdr) (table : LoupeTable) (index : Nat) (s : State) : Host.Outcome State Fault Refusal :=
  s.mbox t (.loupeSetDelete t h table index) h 0x0040 (lRights table) (fun s => lOwner h s table (fun r =>
    match s.lNamed r table index with
    | none => .no s .invalidArg
    | some (b, i) => .ok ((s.lDel b i).keepCopy b i none) []))

/-- LOUPE_SET REPLACE: a delete then an add at the same index (R333). -/
def execLoupeSetReplace (t : Nat) (h : MbxHdr) (table : LoupeTable) (index : Nat) (e : LoupeBody) (s : State) :
    Host.Outcome State Fault Refusal :=
  s.mbox t (.loupeSetReplace t h table index e) h 0x0040 (lRights table) (fun s => lOwner h s table (fun r =>
    match s.lNamed r table index with
    | none => .no s .invalidArg
    | some (b, i) =>
      if !loupeOk e table then .no s .invalidArg
      else .ok (((s.lDel b i).lPut b i (loupeEntry e table)).keepCopy b i (some (loupeEntry e table))) []))

-- The scrub (R334, R335).

/-- The scrubber rewrites n units of an entry from the shadow, each in a slot of its own, and counts each (R334, R423). -/
def State.fixUnits (s : State) (b i n : Nat) : State :=
  (((s.modBankL b (·.restore i)).lSlots b n).bumpBy (.node (32 + b)) n).weigh .ioRing (2 * n) false

/-- Units of a bank that differ from their shadow are rewritten and counted (R334). -/
def State.scrubBank (s : State) (b : Nat) : State :=
  let q := s.lBank b
  ((q.entries ++ q.shadow).map (·.1)).foldl (fun s i =>
    let n := (s.lBank b).wrongUnits i
    if n = 0 then s else s.fixUnits b i n) s

/-- Firmware rebuilds the entry an uncorrectable shadow word took (R335): a filter from its copy, any other from its source. -/
def State.rebuild (s : State) (b i : Nat) (old : LEntry) : State :=
  match s.loupe.copies.find? (fun c => c.1 == b && c.2.1 == i) with
  | some c => s.lPut b i c.2.2
  | none =>
    if old.table = .ofs || old.table = .ofl || old.table = .rfl then s else s.lPut b i old

/-- A Loupe scrub pass (R334): `upset` names a bank and entry with a unit that the pass finds wrong, or whose shadow word is
uncorrectable (R335). -/
def execScrubPass (t : Nat) (upset : Option (Nat × Nat)) (shadowBad : Bool) (s : State) : Host.Outcome State Fault Refusal :=
  let s := s.advance t
  if s.frozen || s.now % 2000000 ≠ 0 then .next s
  else
    let s := (s.loupe.banks.map (·.1)).foldl State.scrubBank s
    match upset with
    | none => .next s
    | some (b, i) =>
      match (s.lBank b).shadow.get? i with
      | none => .next s
      | some e =>
        if shadowBad then
          let s := s.modBankL b (fun q => { q with entries := q.entries.erase i, shadow := q.shadow.erase i })
          let s := (((s.bumpN 14).bumpN 2051).weigh .ioRing 200 false).report (ErrRec.of .loupe 31 .ioRing)
          .next (s.rebuild b i e)
        else
          .next (s.fixUnits b i 1)

end Sys2Proof.Machine
end

