-- ==== Sys2Proof/Machine/Composite.lean ====
section
/-! DEFINITION. Records (R117 to R119), output delivery (R113, R124), COMPOSITE (R121 to R128) and composite buffers (R123).
Log entries 32, 70. -/

namespace Sys2Proof.Machine

open Sys2Proof

-- Records (R117 to R119).

/-- One entry and its tally: o, m, l, count and flags (APPROX, SHORT, TRUNC, LATE from bit 0). -/
structure REntry where
  o : List W32
  m : W32
  l : W32
  count : Nat
  flags : Nat
  deriving DecidableEq, Repr

/-- What a record's header carries beside its entries (R118). -/
structure RHead where
  kind : Nat
  fp32 : Bool
  tag : Nat
  d : Nat
  pairs : Nat
  contrib : Nat
  missing : Nat
  bytes : Nat
  exposure : Nat
  flags : Nat
  imm : Nat
  deriving DecidableEq, Repr

/-- Bytes of one entry. -/
def entryBytes (fp32 : Bool) (d : Nat) : Nat := (if fp32 then 4 * d else 2 * d) + 8

/-- Bytes of a record (R117). -/
def recordBytes (fp32 : Bool) (d pairs : Nat) : Nat := 64 + pairs * (entryBytes fp32 d + 8)

/-- The largest count (R119). -/
def countMax : Nat := 1099511627775

/-- A record from its entries (R117 to R119). -/
def buildRecord (h : RHead) (es : List REntry) : List Byte :=
  let flags := es.foldl (fun n e => n ||| e.flags) 0
  leBytes 4 (1 + h.kind * 256 + flagBit h.fp32 9 + h.tag * 65536) ++ leBytes 4 (h.d + h.pairs * 65536) ++
  leBytes 4 (h.contrib + h.missing * 65536) ++ leBytes 4 (recordBytes h.fp32 h.d h.pairs) ++
  leBytes 8 (h.exposure + flags * 17592186044416) ++ leBytes 4 h.imm ++ List.replicate 36 0#8 ++
  es.flatMap (fun e => (e.o.flatMap (fun x => if h.fp32 then leBytes 4 x.toNat else leBytes 2 (bfOf x))) ++
    leBytes 4 e.m.toNat ++ leBytes 4 e.l.toNat) ++
  es.flatMap (fun e => leBytes 8 (min e.count countMax + e.flags * 1099511627776))

/-- OR of the flags of entries. -/
def orFlags (es : List REntry) : Nat := es.foldl (fun n e => n ||| e.flags) 0

/-- The header of a record in a slot, none when the version or a reserved field is wrong (R126). -/
def parseHead (bs : List Byte) : Option RHead :=
  let a := leAt bs 0 4
  let b := leAt bs 4 4
  let c := leAt bs 8 4
  let x := leAt bs 16 8
  if a % 256 ≠ 1 || (a / 1024) % 64 ≠ 0 || b / 134217728 ≠ 0 || (c / 512) % 128 ≠ 0 || c / 67108864 ≠ 0 ||
     x / 281474976710656 ≠ 0 || (sliceBytes bs 28 36).any (· != 0#8) then none
  else
    some { kind := (a / 256) % 2, fp32 := (a / 512) % 2 == 1, tag := a / 65536, d := b % 65536, pairs := (b / 65536) % 2048,
           contrib := c % 512, missing := (c / 65536) % 1024, bytes := leAt bs 12 4, exposure := x % 17592186044416,
           flags := (x / 17592186044416) % 16, imm := leAt bs 24 4 }

/-- The entries of a record of a known size; a subnormal value is a zero of its sign (R25). -/
def parseEntries (h : RHead) (bs : List Byte) : List REntry :=
  let eb := entryBytes h.fp32 h.d
  (List.range h.pairs).map (fun i =>
    let at_ := 64 + i * eb
    let ob := if h.fp32 then 4 else 2
    let o := (chunkLe ob h.d (sliceBytes bs at_ (ob * h.d))).map (fun v => fFlush (if h.fp32 then BitVec.ofNat 32 v else fOfBf v))
    let t := leAt bs (64 + h.pairs * eb + 8 * i) 8
    { o := o, m := fFlush (BitVec.ofNat 32 (leAt bs (at_ + ob * h.d) 4)), l := fFlush (BitVec.ofNat 32 (leAt bs (at_ + ob * h.d + 4) 4)),
      count := t % 1099511627776, flags := t / 1099511627776 })

/-- An entry has no reserved tally bit and no non-finite value; m may be −inf (R126). -/
def REntry.ok (e : REntry) : Bool :=
  decide (e.flags < 16) && e.o.all fFinite && fFinite e.l && (fFinite e.m || e.m == fNegInf)

-- Merging (R121, R127).

/-- One pair merged by R121, contributions in CONTRIB order. -/
def mergePair (d : Nat) (es : List REntry) : REntry :=
  let m := es.foldl (fun m e => fMax m e.m) fNegInf
  let count := min countMax (es.foldl (fun n e => n + e.count) 0)
  let flags := orFlags es
  if m = fNegInf then { o := List.replicate d 0#32, m := fNegInf, l := 0#32, count := count, flags := flags }
  else
    let r := es.foldl (fun (p : W32 × List W32) e =>
      if e.m = fNegInf then p
      else
        let w := fMul e.l (fExp (fSub e.m m))
        (fAdd p.1 w, List.zipWith (fun u o => fAdd u (fMul w o)) p.2 e.o)) (0#32, List.replicate d 0#32)
    { o := r.2.map (fun u => fDiv u r.1), m := m, l := r.1, count := count, flags := flags }

/-- One pair of dQ records summed (R127). -/
def sumPair (es : List REntry) : REntry :=
  match es with
  | [] => { o := [], m := fNegInf, l := 0#32, count := 0, flags := 0 }
  | e :: rest =>
    { o := rest.foldl (fun o x => List.zipWith fAdd o x.o) e.o, m := e.m, l := rest.foldl (fun l x => fAdd l x.l) e.l,
      count := min countMax (es.foldl (fun n x => n + x.count) 0), flags := orFlags es }

-- Output (R113, R124).

/-- Bytes are placed in a region as a WRITE_IMM would be (R124): none when the region or its bounds refuse them. -/
def State.placeLocal (s : State) (r h addr : Nat) (bs : List Byte) : Option State :=
  match s.regions.get? (regionKey r h) with
  | none => none
  | some g => if g.size < addr + bs.length then none else some (s.modRegion (regionKey r h) (fun g => { g with mem := memPut g.mem addr bs }))

/-- Send a request's output on its way (R113): by WRITE_IMM, to host memory, or to a buffer of this node, which is then to be
notified. -/
def State.sendOut (s : State) (slot : Nat) (bs : List Byte) : State × Option (Nat × Nat × Nat × Nat) :=
  match s.reqs.get? slot with
  | none => (s, none)
  | some q =>
    let o := q.desc.outOf
    let s := s.modReq slot (fun q => { q with phase := .output, bytes := bs.length, outDone := none })
    let done (s : State) (b : Bool) : State := s.modReq slot (fun q => { q with outDone := some b })
    if o.out = 2 then (s.writeHost q.src o.addr bs, none)
    else if o.out = 1 && o.conn = selfConn then
      match s.placeLocal q.ridge o.region o.addr bs with
      | none => (done s false, none)
      | some s => (done s true, some (q.ridge, o.region, o.addr, o.imm))
    else
      let n := match q.src with
        | .conn n => if o.out = 0 then n else o.conn
        | .ring _ _ => o.conn
      match s.kSend n 1 o.region o.addr o.imm bs (.output slot) with
      | none => (done s false, none)
      | some (s, _) => (s, none)

/-- The entries that carry SHORT after a partial merge (R126). -/
def REntry.short (e : REntry) : REntry := { e with flags := e.flags ||| 2 }

/-- Merge what a COMPOSITE has accepted, in CONTRIB order, into its output record (R121, R127): the records as they were accepted, whatever
their slots hold since. -/
def State.mergeComposite (s : State) (slot : Nat) (missing : Nat) : State × List Byte :=
  match s.reqs.get? slot with
  | none => (s, [])
  | some q =>
    let recs := q.recs.map (fun e => match parseHead e.2 with
      | some h => parseEntries h e.2
      | none => [])
    let d := q.desc.cD
    let es := (List.range q.desc.cPairs).map (fun i =>
      let l := recs.filterMap (fun r => r[i]?)
      let e := if q.desc.cKind = 0 then mergePair d l else sumPair l
      if missing = 0 then e else e.short)
    let o := q.desc.outOf
    let h : RHead := { kind := q.desc.cKind, fp32 := q.desc.cFmt, tag := q.tag, d := d, pairs := q.desc.cPairs,
                       contrib := s.nodeNo, missing := missing, bytes := 0, exposure := q.exposure, flags := 0,
                       imm := if o.out = 2 then 0 else o.imm }
    let s := s.modReq slot (fun q => { q with
      flags := orFlags es, result0 := missing, final := if missing = 0 then .ok else .partial_ })
    (s, buildRecord h es)

/-- Disarm the buffer of a COMPOSITE (R128). -/
def State.disarm (s : State) (r h : Nat) : State :=
  s.modRegion (regionKey r h) (fun g => { g with kind := match g.kind with
    | .composite a b c _ => .composite a b c none
    | .scratch a b c => .scratch a b c
    | .lease => .lease
    | .completion k => .completion k
    | .query => .query })

/-- The request whose COMPOSITE arms a buffer and still waits. -/
def State.armedOf (s : State) (r h : Nat) : Option (Nat × Request × Nat × Nat) :=
  match s.regions.get? (regionKey r h) with
  | none => none
  | some g =>
    match g.kind with
    | .composite slots size _ (some k) =>
      match s.reqs.get? k with
      | some q => if q.phase = .armed then some (k, q, slots, size) else none
      | none => none
    | .composite _ _ _ none => none
    | .scratch _ _ _ => none
    | .lease => none
    | .completion _ => none
    | .query => none

/-- The record of a slot agrees with the COMPOSITE (R126). -/
def contribOk (q : Request) (size : Nat) (bs : List Byte) : Option RHead :=
  match parseHead bs with
  | none => none
  | some h =>
    if h.kind = q.desc.cKind ∧ h.d = q.desc.cD ∧ h.pairs = q.desc.cPairs ∧ h.bytes = recordBytes h.fp32 h.d h.pairs ∧
       h.bytes ≤ size ∧ (parseEntries h bs).all REntry.ok = true then some h else none

/-- A notification at an address of a composite buffer (R124, R126): the answer is the output to deliver when the accepted count
reaches EXPECT. After the deadline instant the COMPOSITE has stopped waiting, and a notification is stray. -/
def State.examine (s : State) (r h addr imm : Nat) : State × Option (Nat × List Byte) :=
  match s.armedOf r h with
  | none => (s.bumpR r 16, none)
  | some (k, q, _, size) =>
    let n := addr / size
    let bs := match s.regions.get? (regionKey r h) with
      | some g => memSlice g.mem (n * size) size
      | none => []
    if q.deadline < s.now || imm ≠ q.desc.matchImm || leAt bs 16 8 % 17592186044416 ≠ q.exposure then (s.bumpR r 16, none)
    else
      match contribOk q size bs with
      | none => ((s.bumpR r 17).noteReq k (ErrRec.of .contrib r .none), none)
      | some hd =>
        if q.list.any (fun e => e.1 == n || e.2 == hd.contrib) then
          let s := s.failReq k .contribConflict { ErrRec.of .contrib r .none with detail := [n, hd.contrib] }
          ((s.complete k .contribConflict 0 0 0).disarm r h, none)
        else
          let s := s.modReq k (fun q => { q with list := q.list ++ [(n, hd.contrib)], recs := q.recs.set hd.contrib bs })
          if q.list.length + 1 = q.desc.expect then
            let (s, out) := s.mergeComposite k 0
            (s, some (k, out))
          else (s, none)

/-- Deliver a request's output, and every output that the delivery completes on this node (R113, R124). -/
def State.deliver (fuel : Nat) (s : State) (slot : Nat) (bs : List Byte) : State :=
  match fuel with
  | 0 => s
  | fuel + 1 =>
    match s.sendOut slot bs with
    | (s, none) => s
    | (s, some (r, h, addr, imm)) =>
      match s.examine r h addr imm with
      | (s, none) => s
      | (s, some (k, out)) => State.deliver fuel s k out

/-- Deliver with as many turns as there can be buffers waiting. -/
def State.deliverOut (s : State) (slot : Nat) (bs : List Byte) : State := s.deliver (s.reqs.length + 1) slot bs

/-- A notified WRITE_IMM to a composite buffer (R124, R126). -/
def State.contribution (s : State) (r h addr imm : Nat) : State :=
  match s.examine r h addr imm with
  | (s, none) => s
  | (s, some (k, out)) => s.deliverOut k out

/-- A COMPOSITE stops waiting after its deadline (R126). -/
def State.stopWaiting (s : State) (slot : Nat) : State :=
  match s.reqs.get? slot with
  | none => s
  | some q =>
    if !q.desc.missingDiscard && !q.list.isEmpty then
      let (s, out) := s.mergeComposite slot (q.desc.expect - q.list.length)
      s.deliverOut slot out
    else (s.complete slot .incomplete 0 0 0).disarm q.ridge q.desc.handle

/-- The completion once the output is acknowledged or written, or has failed (R113, R128, R388). -/
def State.outputDone (s : State) (slot : Nat) (ok : Bool) : State :=
  match s.reqs.get? slot with
  | none => s
  | some q =>
    let s := if ok then s.complete slot q.final q.flags q.result0 q.bytes
      else
        let s := s.failReq slot .outFault (ErrRec.of .outFault q.ridge .none)
        s.complete slot .outFault 0 0 0
    if q.opcode = 0x22 then s.disarm q.ridge q.desc.handle else s

-- COMPOSITE (R125).

/-- The slot count and size of a buffer of the ridge that is not armed. -/
def State.freeBuf (s : State) (r h : Nat) : Option (Nat × Nat) :=
  match s.regions.get? (regionKey r h) with
  | none => none
  | some g =>
    match g.kind with
    | .composite slots size _ none => some (slots, size)
    | .composite _ _ _ (some _) => none
    | .scratch _ _ _ => none
    | .lease => none
    | .completion _ => none
    | .query => none

def compositeChecks (s : State) (c : Cmd) : List (Bool × Status) :=
  let b := s.freeBuf c.ridge c.d.handle
  let slots := (b.getD (0, 0)).1
  let size := (b.getD (0, 0)).2
  [(b.isSome, .stateConflict),
   (decide (c.d.expect ≤ slots) && decide (recordBytes c.d.cFmt c.d.cD c.d.cPairs ≤ size), .badLength),
   (!c.d.lateDiscard && s.tagParams c.d true && s.outParams c, .badParam)]

/-- COMPOSITE: the buffer is armed at admission; past its deadline instant it stops waiting at once (R125, R126). -/
def execComposite (t : Nat) (src : Src) (d : Desc) (s : State) : Host.Outcome State Fault Refusal :=
  s.command t src d [] compositeLayout compositeChecks (fun s c =>
    let (s, slot) := s.admitReq c .armed (fun q => { q with region := c.d.handle })
    let s := s.modRegion (regionKey c.ridge c.d.handle) (fun g => { g with kind := match g.kind with
      | .composite a b e _ => .composite a b e (some slot)
      | .scratch a b e => .scratch a b e
      | .lease => .lease
      | .completion k => .completion k
      | .query => .query })
    if s.deadlineFor c.d < s.now then s.stopWaiting slot else s)

-- Composite buffers (R123).

/-- Bytes of composite buffers in a cirque's slice. -/
def State.cbufBytes (s : State) (c : Nat) : Nat :=
  s.regions.foldl (fun n e => match e.2.kind with
    | .composite _ _ q _ => if q = c then n + e.2.size else n
    | .scratch _ _ _ => n
    | .lease => n
    | .completion _ => n
    | .query => n) 0

/-- Composite buffers of a ridge. -/
def State.cbufCount (s : State) (r : Nat) : Nat :=
  (s.regions.filter (fun e => e.2.ridge == r && s.isCbuf r e.2.handle)).length

/-- CBUF_CREATE (R123). -/
def execCbufCreate (t : Nat) (h : MbxHdr) (slots slotSize cirque : Nat) (s : State) : Host.Outcome State Fault Refusal :=
  s.mbox t (.cbufCreate t h slots slotSize cirque) h 0x0034 .any (fun s => withRidge h s (fun r =>
    if slots < 1 || 512 < slots || slotSize % 1024 ≠ 0 || slotSize < 1024 || 1048576 < slotSize ||
       !(s.ridge r).p.cirques.contains cirque then .no s .invalidArg
    else if (s.ridge r).state ≠ .opened then .no s .stateConflict
    else if 1048576 < s.cbufBytes cirque + slots * slotSize || 64 ≤ s.cbufCount r then .no s .noSpace
    else
      match s.newRegion r (.composite slots slotSize cirque none) (slots * slotSize) with
      | none => .no s .noSpace
      | some (s, g) => .ok s [g]))

/-- CBUF_DESTROY (R123). -/
def execCbufDestroy (t : Nat) (h : MbxHdr) (region : Nat) (s : State) : Host.Outcome State Fault Refusal :=
  s.mbox t (.cbufDestroy t h region) h 0x0035 .any (fun s => withRidge h s (fun r =>
    if !s.isCbuf r region then .no s .invalidArg
    else if (s.freeBuf r region).isNone then .no s .busy
    else .ok (s.endRegion r region) []))

end Sys2Proof.Machine
end

