-- ==== Sys2Proof/Machine/Sketch.lean ====
section
/-! DEFINITION. Sketches (R209 to R214, R237 to R240) and the sealing of pages (R249 to R251). -/

namespace Sys2Proof.Machine

open Sys2Proof

-- Arithmetic (R211, R214).

/-- The integer square root, bit by bit. -/
def isqrt (bits n r : Nat) : Nat :=
  match bits with
  | 0 => r
  | b + 1 =>
    let c := r + 2 ^ b
    isqrt b n (if c * c ≤ n then c else r)

/-- RNE(sqrt(x)); NaN below 0 (R25). -/
def fSqrt (x : W32) : W32 :=
  if fIsNaN x then fNaN
  else if fIsZero x then x
  else if fSign x then fNaN
  else if !fFinite x then x
  else
    let k := fUnit x
    let odd : Nat := (k % 2).toNat
    let n := fMant x * 2 ^ (odd + 40)
    let r := isqrt 34 n 0
    fOfDyadic false (2 * r + (if r * r = n then 0 else 1)) ((k - (odd : Int) - 40) / 2 - 1)

/-- The dot product of R214. -/
def dot214 (xs ys : List W32) : W32 :=
  let n := xs.length
  let ones := (List.range (ceilDiv n 32)).map (fun _ => fOne)
  dotBlocks (queryElts false xs) (queryElts false ys) ones ones false false

/-- The sketch of a vector of hyperplanes 0 to w − 1 (R209, R210). -/
def sketchOf (seed : BitVec 64) (w : Nat) (xs : List W32) : Nat :=
  (List.range w).foldl (fun n b =>
    let acc := (xs.zipIdx).foldl (fun a e => fAdd a (if rotNeg seed 2 b e.2 then fNeg e.1 else e.1)) 0#32
    if fLt 0#32 acc then n + 2 ^ b else n) 0

/-- Bits that differ between two sketches of width w. -/
def hamming (w a b : Nat) : Nat := popCount w (a ^^^ b)

-- Page sketches (R237, R238).

/-- Element-wise RNE sum of vectors in order. -/
def sumVecs (d : Nat) (vs : List (List W32)) : List W32 :=
  match vs with
  | [] => List.replicate d 0#32
  | v :: rest => rest.foldl (List.zipWith fAdd) v

/-- The vector of the largest squared norm; ties go to the earlier. -/
def largestOf (vs : List (List W32)) : List W32 :=
  match vs with
  | [] => []
  | v :: rest =>
    (rest.foldl (fun (b : W32 × List W32) x =>
      let n := dot214 x x
      if fLt b.1 n then (n, x) else b) (dot214 v v, v)).2

/-- The sketch of KV head h of a page's records (R237). -/
def Fmt.pageSketch (f : Fmt) (seed : BitVec 64) (w tokens h : Nat) (recs : List Byte) : Nat :=
  let ks := (List.range tokens).map (fun j => headValues f.kfmt f.d (f.headAt recs j 0 h))
  sketchOf seed (w / 2) (sumVecs f.d ks) + sketchOf seed (w / 2) (largestOf ks) * 2 ^ (w / 2)

/-- Sketches of a width in one row (R181). -/
def sketchesPerRow (w : Nat) : Nat := 14336 / w

-- Positions of the region (R239, R240).

/-- The stack of bank j of a cirque (R169). -/
def bankStack (c j : Nat) : Nat := 2 * c + (j % 8) / 4

/-- The lowest position of a row that is not used. -/
def PskRow.free (w : PskRow) (n : Nat) : Option Nat :=
  let p := lowestNot (w.used.map (·.1)) w.used.length 0
  if p < n then some p else none

/-- A row of the owner with a free position: the lowest bank, then the lowest row (R239). -/
def ownerRow (rows : List PskRow) (n seq layer head : Nat) : Option PskRow :=
  (rows.filter (fun w => w.seq == seq && w.layer == layer && w.head == head && (w.free n).isSome)).foldl
    (fun b w => match b with
      | none => some w
      | some v => if w.bank < v.bank || (w.bank == v.bank && w.row < v.row) then some w else some v) none

/-- A bank with a row of the region to give, from the round robin's bank on (R239). -/
def freeRow (rows : List PskRow) (region : List Nat) (bank n : Nat) : Option (Nat × Nat) :=
  match n with
  | 0 => none
  | n + 1 =>
    match region.find? (fun g => !rows.any (fun w => w.bank == bank && w.row == 1171 + g)) with
    | some g => some (bank, 1171 + g)
    | none => freeRow rows region ((bank + 1) % 256) n

/-- Give one page head a position; none when the region has no row to give, or the stack is at budget factor 0 (R239, R240). -/
def Pskr.place (s : State) (p : Pskr) (c seq layer head slot : Nat) : Option Pskr :=
  let rows := (p.rows.get? c).getD []
  let n := sketchesPerRow p.width
  match ownerRow rows n seq layer head with
  | some w =>
    if (s.stack (bankStack c w.bank)).hot then none
    else
      let pos := (w.free n).getD 0
      some { p with rows := p.rows.set c (rows.map (fun v =>
        if v.bank = w.bank ∧ v.row = w.row then { v with used := v.used ++ [(pos, slot)] } else v)) }
  | none =>
    match freeRow rows ((p.rowGroups.get? c).getD []) ((p.nextBank.get? c).getD 0) 256 with
    | none => none
    | some (b, row) =>
      if (s.stack (bankStack c b)).hot then none
      else
        some { p with
          nextBank := p.nextBank.set c ((b + 1) % 256)
          rows := p.rows.set c (rows ++ [{ bank := b, row := row, seq := seq, layer := layer, head := head,
                                           used := [(0, slot)] }]) }

/-- Give every head of a page a position, or none at all. -/
def Pskr.placeAll (s : State) (p : Pskr) (c seq layer slot : Nat) (heads : List Nat) : Option Pskr :=
  match heads with
  | [] => some p
  | h :: rest =>
    match p.place s c seq layer h slot with
    | none => none
    | some p => p.placeAll s c seq layer slot rest

/-- The handle of the sequence that holds a slot in one of its layers (R239). -/
def State.holderOf (s : State) (key : Nat) : Nat :=
  ((s.seqs.find? (fun e => e.2.layers.any (fun l => l.2.pages.any (fun p => p.2 == key)))).map (fun e => handleOf e.1 e.2.gen)).getD 0

/-- Write a sealed page's sketches to the region (R237, R240): the positions given name its slot, and the rows hold the sketches xor the
region's pattern (`State.pskRow`). -/
def State.placeSketch (s : State) (key : Nat) (p : Page) : State :=
  match (s.ridge p.ridge).pskr with
  | none => s
  | some g =>
    match g.placeAll s (slotCirque key) (s.holderOf key) p.layer key (List.range (Fmt.parse p.fmt).hkv) with
    | none => s.bumpR p.ridge 18
    | some g => s.modRidge p.ridge (fun r => { r with pskr := some g })

-- Sealing (R250, R251).

/-- The sketches a page's seal writes to its header; empty without a region (R237). -/
def State.sketchesFor (s : State) (p : Page) (recs : List Byte) : List Nat :=
  match (s.ridge p.ridge).pskr with
  | none => []
  | some g =>
    let f := Fmt.parse p.fmt
    (List.range f.hkv).map (fun h => f.pageSketch g.seed g.width p.tokens h recs)

/-- Seal a page whose coded bytes were read (R250). -/
def State.sealGood (s : State) (key : Nat) (p : Page) : State :=
  let f := Fmt.parse p.fmt
  let recs := sliceBytes p.payload 0 p.coded
  let (streams, table) := f.encode recs
  let enc := decide (streams.length ≤ encLimit)
  let bytes := if enc then streams.length else payloadBytes
  let wrote := if enc then granules streams.length else 248
  let c := slotCirque key
  let s := ((s.dramRead c (granules p.coded)).dramWrite c (8 + wrote)).rewritten key (fun g => decide (g < 8 + wrote))
  let s := (((s.bumpR p.ridge 64).bumpBy (.ridge p.ridge 66) p.coded).bumpBy (.ridge p.ridge 67) bytes).event (some c) 0x15 1
  let s := if enc then s else s.bumpR p.ridge 65
  let sk := s.sketchesFor p recs
  let s := s.modPage key (fun p => { p with
    pstate := p.want.getD .sealed
    want := none
    raw := !enc
    partl := decide (p.tokens < p.tpp)
    encBytes := bytes
    table := if enc then table else []
    sketch := sk
    payload := if enc then streams else recs
    bad := p.bad.filter (fun g => decide (8 + wrote ≤ g))
    injected := p.injected.filter (fun g => decide (8 + wrote ≤ g)) })
  s.placeSketch key p

/-- Seal a page raw after an uncorrectable granule at step 1 (R251). -/
def State.sealRaw (s : State) (key j : Nat) (p : Page) : State :=
  let (s, e) := s.pageErr key j p .codecSrc
  let s := ((s.report e).dramWrite (slotCirque key) 8).rewritten key (fun g => decide (g < 8))
  let s := (((s.bumpR p.ridge 64).bumpR p.ridge 72).bumpBy (.ridge p.ridge 66) p.coded).bumpBy (.ridge p.ridge 67) payloadBytes
  let s := s.event (some (slotCirque key)) 0x15 1
  let s := s.modPage key (fun p => { p with
    pstate := p.want.getD .sealed
    want := none
    raw := true
    partl := decide (p.tokens < p.tpp)
    encBytes := payloadBytes
    table := []
    sketch := (s.sketchesFor p []).map (fun _ => 0)
    bad := p.bad.filter (fun g => decide (8 ≤ g))
    injected := p.injected.filter (fun g => decide (8 ≤ g)) })
  s.placeSketch key p

/-- The encoder seals the next page of a cirque's queue (R249 to R251): `err` is what its read met. The queues drain during the
entry of a power state (R479). -/
def execPageSeal (t : Nat) (cirque : Nat) (err : MemErr) (s : State) : Host.Outcome State Fault Refusal :=
  let s := s.advance t
  if s.trace.held || s.dead || (s.asleep && s.power.transit ≠ .entering) then .next s
  else
    match (s.cirque cirque).sealQ with
    | [] => .next s
    | key :: rest =>
      let s := s.modCirque cirque (fun q => { q with sealQ := rest })
      match s.pages.get? key with
      | none => .next s
      | some p =>
        match p.bad.find? (fun g => decide (8 ≤ g) && decide (g < 8 + granules p.coded)) with
        | some g => .next (s.sealRaw key g p)
        | none =>
          match err with
          | .none => .next (s.sealGood key p)
          | .corrected =>
            let (g, s) := s.drawNat
            .next ((s.pageCorr key (8 + g % max 1 (granules p.coded))).sealGood key p)
          | .uncorrectable =>
            let (g, s) := s.drawNat
            let j := 8 + g % max 1 (granules p.coded)
            .next ((s.modPage key (fun p => { p with bad := p.bad ++ [j] })).sealRaw key j p)
          | .misplaced =>
            let (g, s) := s.drawNat
            let j := 8 + g % max 1 (granules p.coded)
            .next ((s.modPage key (fun p => { p with bad := p.bad ++ [j] })).sealRaw key j p)

end Sys2Proof.Machine
end

