-- ==== Sys2Proof/Machine/Pages.lean ====
section
/-! DEFINITION. Sequences and pages (R52 to R90, R387, R442 to R444): OPEN, APPEND, SEAL, FORK, FREE, INGEST, READ, ring reuse
and the release of a sequence.
Log entries 33, 41, 68, 70. -/

namespace Sys2Proof.Machine

open Sys2Proof

/-- The largest position count and page number (R56). -/
def posMax : Nat := 1099511627775
def pageMax : Nat := 16777215

/-- Pinned and ring pages of a layer in ring mode (R70). -/
def SeqD.pinnedPages (q : SeqD) : Nat := ceilDiv q.sink q.fmt.tpp
def SeqD.ringPages (q : SeqD) : Nat := ceilDiv q.ringW q.fmt.tpp + 1

/-- The state a full page enters (R61). -/
def SeqD.fullState (q : SeqD) (pageNo : Nat) : PSt :=
  if q.ringW = 0 then .sealed else if pageNo < q.pinnedPages then .pinned else .ring

/-- The page of a position (R59). -/
def SeqD.pageOf (q : SeqD) (p : Nat) : Nat := (p - q.start) / q.fmt.tpp

-- OPEN (R52, R54, R55).

/-- The format block of an OPEN. -/
def formatOf (d : Desc) : BitVec 192 := BitVec.ofNat 192 (d.toNat >>> 128)

/-- Every parameter lies in its range (R32, R55). -/
def openShape (d : Desc) : Bool :=
  let f := Fmt.parse (formatOf d)
  let layers := d.fld 0x28 8 9
  let ringW := d.fld 0x30 0 25
  let sink := d.fld 0x34 0 11
  let tpp := f.tpp
  f.shapeOk && decide (1 ≤ tpp) && decide (1 ≤ layers) && decide (d.fld 0x28 0 8 + layers ≤ 256) &&
  (ringW == 0 || (decide (tpp ≤ ringW) && decide (ringW ≤ 16777216))) &&
  decide (sink ≤ 4 * tpp) && (ringW != 0 || sink == 0)

/-- The sequence an OPEN creates. -/
def openSeqOf (d : Desc) (r : Nat) (mirror : Option MirrorSeq) : SeqD :=
  let start := d.fld 0x38 0 40
  { state := .opened, ridge := r, gen := 0, fmt := Fmt.parse (formatOf d),
    layers := (List.range (d.fld 0x28 8 9)).map (fun i => (d.fld 0x28 0 8 + i, Layer.empty start)),
    salt := d.fld 0x2C 0 32, ringW := d.fld 0x30 0 25, sink := d.fld 0x34 0 11, start := start, mirror := mirror }

/-- OPEN: check 5 holds the node drain of R427 and NO_SEQ, check 6 the shape (R55, R386). -/
def execOpenSeq (t : Nat) (src : Src) (d : Desc) (s : State) : Host.Outcome State Fault Refusal :=
  s.command t src d [] openLayout
    (fun s c => [(!s.health.drain, .stateConflict), (s.seqFree c.ridge, .noSeq), (openShape c.d, .badShape),
                 (s.tagParams c.d false, .badParam)])
    (fun s c =>
      let (idx, s) := s.putSeq (openSeqOf c.d c.ridge (s.mirrorFor c.ridge))
      let h := s.handleAt idx
      let s := match (s.ridge c.ridge).mirror with
        | none => s
        | some m =>
          let body := descOf (mirHeader 0x01 c.ridge c.d.prio) + (c.d >>> 128) <<< 128
          s.mirSend m.1 h 0x01 body.bytes none none
      s.quick c .ok h 0)

-- Writing tokens (R57, R61, R65, R70, R71).

/-- How a write of tokens fails: no free slot in a home index, or an uncorrectable granule of a page. -/
inductive WErr where
  | noPages (k : Nat)
  | bad (key granule : Nat) (cause : Cause)
  | codec (key : Nat)
  deriving DecidableEq, Repr

/-- Granules that some payload bytes touch. -/
def touched (off len : Nat) : Nat := if len = 0 then 0 else (off + len - 1) / 256 - off / 256 + 1

/-- Allocate a page for a new page number in its home cirque (R61, R73, R76, R81). -/
def State.allocPage (s : State) (idx layer pageNo : Nat) (grad : Bool) : Except WErr (State × Nat) :=
  match s.seqs.get? idx with
  | none => .error (.noPages 0)
  | some q =>
    let k := s.homeK q.ridge (if grad then q.salt ^^^ gradSalt else q.salt) layer pageNo
    let c := s.cirqueAt q.ridge k
    match s.findSlot c with
    | none => .error (.noPages k)
    | some key =>
      let (g, s) := s.nextWgen key
      let s := { s with pages := s.pages.set key (Page.fresh q q.ridge g layer pageNo k grad) }
      .ok ((s.modLayer idx layer (fun l => if grad then { l with grads := l.grads.set pageNo key }
                                           else { l with pages := l.pages.set pageNo key })).dramWrite c 256, key)

/-- Reuse the slot of a ring page for a new page number (R71): its seal is cancelled, its frames and sketch positions go. -/
def State.reusePage (s : State) (idx layer old pageNo key : Nat) : State :=
  match s.seqs.get? idx with
  | none => s
  | some q =>
    let s := ((s.cancelSeal key q.ridge).invalidate key).freeSketch key q.ridge
    let (g, s) := (s.rewritten key (fun _ => true)).nextWgen key
    let k := s.homeK q.ridge q.salt layer pageNo
    let s := { s with pages := s.pages.set key (Page.fresh q q.ridge g layer pageNo k false) }
    (s.modLayer idx layer (fun l => { l with pages := (l.pages.erase old).set pageNo key })).dramWrite (slotCirque key) 256

/-- The ring page whose slot a new page takes (R71): the lowest-numbered, when the layer holds as many as it keeps. -/
def SeqD.ringVictim (q : SeqD) (l : Layer) (pageNo : Nat) : Option (Nat × Nat) :=
  if q.ringW = 0 || pageNo < q.pinnedPages then none
  else
    let ring := l.pages.filter (fun e => decide (q.pinnedPages ≤ e.1))
    if q.ringPages ≤ ring.length then ring.head? else none

/-- The page that takes the next token of a layer: the open page, or a new one. -/
def State.nextPage (s : State) (idx layer pageNo : Nat) : Except WErr (State × Nat) :=
  match s.seqs.get? idx with
  | none => .error (.noPages 0)
  | some q =>
    let l := q.layer layer
    match l.pages.get? pageNo with
    | some key => .ok (s, key)
    | none =>
      match q.ringVictim l pageNo with
      | some (old, key) => .ok (s.reusePage idx layer old pageNo key, key)
      | none => s.allocPage idx layer pageNo false

/-- Put token records into a page, and queue it for its seal when it is full (R57, R61). -/
def State.fillTokens (s : State) (idx key : Nat) (recs : List (List Byte)) : Except WErr State :=
  match s.pages.get? key, s.seqs.get? idx with
  | some p, some q =>
    let off := p.coded
    let bs := recs.flatten
    let j := 8 + off / 256
    if off % 256 ≠ 0 && p.bad.contains j then .error (.bad key j .uncorr)
    else
      let hit (g : Nat) : Bool := decide (g = 0) || (decide (8 + off / 256 ≤ g) && decide (g < 8 + off / 256 + touched off bs.length))
      let s := s.modPage key (fun p => { p with
        payload := sliceBytes p.payload 0 off ++ bs
        tokens := p.tokens + recs.length
        bad := p.bad.filter (fun g => !hit g)
        injected := p.injected.filter (fun g => !hit g) })
      let s := (s.dramWrite (slotCirque key) (1 + touched off bs.length)).rewritten key hit
      .ok (if p.tokens + recs.length = p.tpp then s.queueSeal key (q.fullState p.pageNo) else s)
  | _, _ => .ok s

/-- Write token records from a position on, page by page (R57, R65). -/
def State.writeTokens (fuel : Nat) (s : State) (idx layer pos : Nat) (recs : List (List Byte)) : Except WErr State :=
  match fuel with
  | 0 => .ok s
  | fuel + 1 =>
    match recs with
    | [] => .ok s
    | _ :: _ =>
      match s.seqs.get? idx with
      | none => .ok s
      | some q =>
        let room := q.fmt.tpp - (pos - q.start) % q.fmt.tpp
        match s.nextPage idx layer (q.pageOf pos) with
        | .error e => .error e
        | .ok (s, key) =>
          match s.fillTokens idx key (recs.take room) with
          | .error e => .error e
          | .ok s => State.writeTokens fuel s idx layer (pos + (recs.take room).length) (recs.drop room)

/-- The ring pages held now that a write up to a page number reuses (R71). -/
def SeqD.reused (q : SeqD) (l : Layer) (last : Nat) : List (Nat × Nat) :=
  if q.ringW = 0 then []
  else
    let ring := l.pages.filter (fun e => decide (q.pinnedPages ≤ e.1))
    let top := (ring.map (·.1)).foldl max 0
    let from_ := if ring.isEmpty then q.pinnedPages else top + 1
    ring.take (ring.length + (last + 1 - from_) - q.ringPages)

/-- A write up to a page number must wait for readers of the ring pages it reuses (R71). -/
def State.mustHold (s : State) (idx layer last : Nat) : Bool :=
  match s.seqs.get? idx with
  | none => false
  | some q => (q.reused (q.layer layer) last).any (fun e => s.ringReaders e.2)

/-- A write that found no slot completes with NO_PAGES: the home index and the ridge's free slots (R81, R388). -/
def State.noPages (s : State) (slot r k : Nat) : State := (s.bumpR r 3).complete slot .noPages 0 k (s.freeOfRidge r)

/-- A write that failed completes, everything as it was (R65). -/
def State.writeFailed (s : State) (slot r : Nat) (e : WErr) : State :=
  match e with
  | .noPages k => s.noPages slot r k
  | .bad key j cause =>
    match s.pages.get? key with
    | none => s
    | some p =>
      let (s, rec) := s.pageErr key j p cause
      s.failNow slot .uncorrectable rec
  | .codec key =>
    match s.pages.get? key with
    | none => s
    | some p =>
      let (s, rec) := s.pageErr key 0 p .codec
      s.failNow slot .uncorrectable rec

-- APPEND (R63 to R66).

/-- The images of an INGEST: 65,536 bytes each. -/
def images (n : Nat) (bs : List Byte) : List (List Byte) :=
  match n with
  | 0 => []
  | n + 1 => bs.take 65536 :: images n (bs.drop 65536)

/-- A write of the layer that is held (R71): an APPEND or INGEST. -/
def Request.heldWrite (q : Request) (h layer : Nat) : Bool :=
  q.phase == .held && (q.opcode == 0x02 || q.opcode == 0x06) && q.desc.handle == h && q.desc.layer == layer

/-- The position after a held write. -/
def Request.writeEnd (q : Request) : Nat :=
  if q.opcode = 0x02 then q.desc.firstPos + q.desc.count
  else
    let ims := images (q.desc.imagesM1 + 1) q.data
    leAt (ims.headD []) 16 8 + (ims.map (fun im => leAt im 8 4 % 512)).foldl (· + ·) 0

/-- An earlier write of its layer is held: this one is applied after it (R64). -/
def State.behindHeld (s : State) (q : Request) : Bool :=
  s.reqs.any (fun e => e.2.heldWrite q.desc.handle q.desc.layer && decide (e.2.order < q.order))

/-- The next position of a layer, once the writes held on it are applied (R63, R64, log entry 41). -/
def State.nextPos (s : State) (q : SeqD) (h layer : Nat) : Nat :=
  ((s.reqs.filter (fun e => e.2.heldWrite h layer)).map (fun e => e.2.writeEnd)).foldl max (q.layer layer).next

/-- Token records of BF16 rows at consecutive positions, with the blocks flushed; none when one is not finite (R34 to R36). -/
def Fmt.tokenRecords (f : Fmt) (fuel pos : Nat) (bs : List Byte) : Option (List (List Byte) × Nat) :=
  match fuel with
  | 0 => some ([], 0)
  | fuel + 1 =>
    match f.tokenRecord (if f.rope = 0 then [] else f.angles pos) bs with
    | none => none
    | some (r, n) =>
      match f.tokenRecords fuel (pos + 1) (bs.drop f.rowBytes) with
      | none => none
      | some (rs, m) => some (r :: rs, n + m)

/-- The APPEND commits: its tokens are written, or it fails whole (R65, R66, R439). -/
def State.commitAppend (s : State) (slot : Nat) (q : Request) (sq : SeqD) (recs : List (List Byte)) (flushed : Nat) : State :=
  let d := q.desc
  let idx := handleIdx d.handle
  match s.writeTokens (d.count + 1) idx d.layer d.firstPos recs with
  | .error e => s.writeFailed slot q.ridge e
  | .ok s =>
    let next := d.firstPos + d.count
    let s := (s.modLayer idx d.layer (fun l => { l with next := next })).bumpBy (.ridge q.ridge 0) flushed
    let s := s.modReq slot (fun q => { q with result0 := next, phase := .engine })
    if sq.mirrored then
      let sync := match sq.mirror with
        | some m => m.sync
        | none => false
      let data := q.data.take (d.count * sq.fmt.rowBytes)
      let s := s.mirAppend d.handle q.ridge q.prio d.layer d.firstPos d.count sq.fmt.rowBytes data (if sync then some slot else none)
      if sync then s else s.complete slot .ok 0 next 0
    else s.complete slot .ok 0 next 0

/-- The APPEND of a request slot, its source bytes at hand: refused if its sequence has moved on while it was held, held while
readers read the pages it reuses (R71) or an earlier write of its layer is held (R64), or committed. -/
def State.runAppend (s : State) (slot : Nat) : State :=
  match s.reqs.get? slot with
  | none => s
  | some q =>
    let d := q.desc
    let idx := handleIdx d.handle
    match s.seqOf q.ridge d.handle with
    | none => s.complete slot .badHandle 0 0 0
    | some sq =>
      if s.behindHeld q then s.modReq slot (fun q => { q with phase := .held })
      else if sq.state ≠ .opened || (sq.layer d.layer).next ≠ d.firstPos then
        (s.countSC q.ridge q.opcode).complete slot .stateConflict 0 0 0
      else
        match sq.fmt.tokenRecords d.count d.firstPos q.data with
        | none =>
          s.failNow slot .nonfinite { ErrRec.of .nonfinite q.ridge .none with layer := d.layer }
        | some (recs, flushed) =>
          if s.mustHold idx d.layer (sq.pageOf (d.firstPos + d.count - 1)) then
            let s := s.modReq slot (fun q => { q with phase := .held, reuseHeld := true })
            if q.reuseHeld then s else s.bumpR q.ridge 4
          else s.commitAppend slot q sq recs flushed

/-- Checks 4 to 8 of APPEND (R63, R92, R386). -/
def appendChecks (s : State) (c : Cmd) : List (Bool × Status) :=
  let d := c.d
  match s.seqOf c.ridge d.handle with
  | none => [(false, .badHandle)]
  | some q =>
    let next := s.nextPos q d.handle d.layer
    let len := d.count * q.fmt.rowBytes
    [(q.state == .opened && q.hasLayer d.layer && next == d.firstPos && decide (d.firstPos + d.count ≤ posMax), .stateConflict),
     (decide (d.count = 0) || decide (q.pageOf (d.firstPos + d.count - 1) ≤ pageMax), .limit),
     (decide (1 ≤ d.count) && decide (d.count ≤ 4096) && c.inlineOk len, .badLength),
     (s.tagParams d false && s.srcParams c, .badParam)]

/-- APPEND. -/
def execAppend (t : Nat) (src : Src) (d : Desc) (data : Option (List Byte)) (s : State) : Host.Outcome State Fault Refusal :=
  s.command t src d (inlineOf d data) appendLayout appendChecks (fun s c =>
    match s.seqOf c.ridge c.d.handle with
    | none => s
    | some q =>
      let (s, got) := s.source c (c.d.count * q.fmt.rowBytes) data
      let (s, slot) := s.admitReq c .engine (fun r => { r with data := got.getD [] })
      match got with
      | none => s.failNow slot .queryFault (ErrRec.of .queryFault c.ridge .none)
      | some _ => s.runAppend slot)

-- SEAL (R60, R61).

/-- The open page of a layer: not awaiting seal. -/
def State.openPage (s : State) (l : Layer) : Option (Nat × Nat × Page) :=
  l.pages.foldl (fun w e => match s.pages.get? e.2 with
    | some p => if p.pstate = .opened ∧ p.want.isNone then some (e.1, e.2, p) else w
    | none => w) none

/-- The open page of a layer at SEAL: queued with tokens, freed without (R61). -/
def State.sealLayer (s : State) (idx layer : Nat) (l : Layer) : State :=
  match s.openPage l with
  | none => s
  | some (no, key, p) =>
    if p.tokens = 0 then (s.modLayer idx layer (fun l => { l with pages := l.pages.erase no })).dropRef key
    else s.queueSeal key .sealed

/-- SEAL. -/
def execSealSeq (t : Nat) (src : Src) (d : Desc) (s : State) : Host.Outcome State Fault Refusal :=
  s.command t src d [] handleLayout
    (fun s c => [(s.handleOk c.ridge c.d.handle, .badHandle), (s.seqIn c.ridge c.d.handle [.opened], .stateConflict),
                 (s.tagParams c.d false, .badParam)])
    (fun s c =>
      let idx := handleIdx c.d.handle
      match s.seqs.get? idx with
      | none => s
      | some q =>
        let s := s.modSeq idx (fun q => { q with state := .sealed })
        let s := q.layers.foldl (fun s e => s.sealLayer idx e.1 e.2) s
        let s := s.mirror c.d.handle c.d.handle 0x03 (descOf (mirHeader 0x03 c.ridge c.d.prio)).bytes none
        s.quick c .ok 0 0)

-- FREE and the release of a sequence (R60, R72).

/-- FREE. -/
def execFree (t : Nat) (src : Src) (d : Desc) (s : State) : Host.Outcome State Fault Refusal :=
  s.command t src d [] handleLayout
    (fun s c => [(s.handleOk c.ridge c.d.handle, .badHandle), (s.seqIn c.ridge c.d.handle [.opened, .sealed], .stateConflict),
                 (s.tagParams c.d false, .badParam)])
    (fun s c =>
      let s := s.modSeq (handleIdx c.d.handle) (fun q => { q with state := .closing })
      let s := s.mirror c.d.handle c.d.handle 0x05 (descOf (mirHeader 0x05 c.ridge c.d.prio)).bytes none
      s.quick c .ok 0 0)

/-- A REVERSE on a sequence's layer that has not finished holds the layer's gradient pages (R136). -/
def State.gradReaders (s : State) (h layer : Nat) : Bool :=
  s.reqs.any (fun e => e.2.opcode == 0x21 && e.2.desc.handle == h && e.2.desc.layer == layer && e.2.phase != .posted)

/-- Drop the pages of a layer that no reader holds. -/
def State.releaseLayer (s : State) (idx h layer : Nat) (l : Layer) : State :=
  let s := l.pages.foldl (fun s e =>
    if s.readers e.2 then s
    else (s.modLayer idx layer (fun l => { l with pages := l.pages.erase e.1 })).dropRef e.2) s
  if s.gradReaders h layer then s
  else l.grads.foldl (fun s e => (s.modLayer idx layer (fun l => { l with grads := l.grads.erase e.1 })).dropRef e.2) s

/-- The generation after one (R52). -/
def nextGen (g : Nat) : Nat := if g = 16383 then 1 else g + 1

/-- A request admitted on a sequence still needs it: a DEVELOP or REVERSE that has not finished, a held write, a waiting FORK. -/
def Request.usesSeq (q : Request) (h : Nat) : Bool :=
  q.desc.handle == h && [0x02, 0x04, 0x06, 0x20, 0x21].contains q.opcode &&
  (match q.phase with
    | .waiting => true
    | .fetching => true
    | .thin => true
    | .dense => true
    | .held => true
    | .forkWait => true
    | .output => false
    | .armed => false
    | .engine => false
    | .posted => false)

/-- A Closing sequence: references are dropped as readers finish; with none left, and nothing held for the buddy, the
descriptor returns to Free with its generation incremented (R52, R60, R72). -/
def State.releaseSeq (s : State) (idx : Nat) : State :=
  match s.seqs.get? idx with
  | none => s
  | some q =>
    if q.state ≠ .closing then s
    else
      let s := q.layers.foldl (fun s e => s.releaseLayer idx (handleOf idx q.gen) e.1 e.2) s
      match s.seqs.get? idx with
      | none => s
      | some q =>
        let waits := match q.mirror with
          | some m => !m.held.isEmpty
          | none => false
        if q.layers.all (fun e => e.2.pages.isEmpty && e.2.grads.isEmpty) && !waits &&
           !s.reqs.any (fun e => e.2.usesSeq (handleOf idx q.gen)) then
          { s with seqs := s.seqs.erase idx, gens := s.gens.set idx (nextGen q.gen) }
        else s

/-- SEQUENCE_RELEASE. -/
def execSequenceRelease (t : Nat) (index : Nat) (s : State) : Host.Outcome State Fault Refusal :=
  let s := s.advance t
  if s.frozen then .next s else .next (s.releaseSeq index)

/-- RING_REUSE_RESUME: a held APPEND or INGEST whose readers have finished goes on (R71). INGEST resumes with it. -/
def State.isHeld (s : State) (slot opcode : Nat) : Bool :=
  match s.reqs.get? slot with
  | some q => q.phase == .held && q.opcode == opcode
  | none => false

-- FORK (R67 to R69, R256, R257).

/-- What FORK does with one page of the parent below F: shares it, copies tokens of it, or nothing. -/
inductive ForkStep where
  | share
  | copy (tokens : Nat)
  | skip
  deriving DecidableEq, Repr

/-- R68: pages wholly below F that are sealed or pinned are shared; ring pages, the page whose range holds F (R59) and the parent's open page
are copied; a page with no token below F is neither. -/
def forkStep (p : Page) (f : Nat) : ForkStep :=
  if f ≤ p.firstPos then .skip
  else
    let n := min p.tokens (f - p.firstPos)
    if n = 0 then .skip
    else if p.firstPos + p.tpp ≤ f ∧ (p.pstate = .sealed ∨ p.pstate = .pinned) then .share
    else .copy n

/-- The parent's pages below F that await their seal: the FORK waits for them (R256). -/
def State.forkWaits (s : State) (q : SeqD) (f : Nat) : List Nat :=
  q.layers.flatMap (fun e => e.2.pages.filterMap (fun g => match s.pages.get? g.2 with
    | some p => if p.want.isSome ∧ p.firstPos + p.tokens ≤ f then some g.2 else none
    | none => none))

/-- Move pages to the front of their seal queues (R256). -/
def State.sealFirst (s : State) (keys : List Nat) : State :=
  { s with cirques := s.cirques.mapVals (fun _ q =>
      { q with sealQ := q.sealQ.filter keys.contains ++ q.sealQ.filter (fun k => !keys.contains k) }) }

/-- A copy of the first tokens of a page into the child's own slot (R68, R257): whole granules of a page stored raw by Cairn COPY in their
banks (R190), the header, the last granule and an encoded page through the logic die (log entry 84). -/
def State.copyPage (s : State) (idx layer : Nat) (src : Nat) (p : Page) (n : Nat) : Except WErr State :=
  match s.badGranule src p with
  | some (g, cause) => .error (.bad src g cause)
  | none =>
    match p.records with
    | none => .error (.codec src)
    | some recs =>
      match s.allocPage idx layer p.pageNo false with
      | .error e => .error e
      | .ok (s, key) =>
        let f := Fmt.parse p.fmt
        let s := s.modPage key (fun c => { c with payload := sliceBytes recs 0 (n * f.tokenBytes), tokens := n })
        let n8 := n * f.tokenBytes
        let whole := if p.pstate = .opened || p.raw then n8 / 256 else 0
        let s := s.cairnCopy (slotCirque key) 8 whole
        let s := (s.dramRead (slotCirque src) (8 + (if 0 < whole then granules n8 - whole else granules p.stored))).dramWrite (slotCirque key)
          (8 + (granules n8 - whole))
        let s := if p.pstate ≠ .opened && !p.raw then s.bumpR p.ridge 71 else s
        match s.seqs.get? idx with
        | none => .ok s
        | some q => .ok (if n = p.tpp then s.queueSeal key (q.fullState p.pageNo) else s)

/-- One page of the parent in a FORK. -/
def State.forkPage (s : State) (idx layer f : Nat) (e : Nat × Nat) : Except WErr State :=
  match s.pages.get? e.2 with
  | none => .ok s
  | some p =>
    match forkStep p f with
    | .skip => .ok s
    | .share =>
      .ok ((s.modPage e.2 (fun p => { p with refs := p.refs + 1 })).modLayer idx layer (fun l => { l with pages := l.pages.set e.1 e.2 }))
    | .copy n => s.copyPage idx layer e.2 p n

/-- Every page of a list, or the first failure. In ring mode, where F lies in a page whose slot the parent has reused, the list has no such
page: the spec gives none to copy, and none is made (DESIGN CHOICE, log entry 78). -/
def State.forkPages (s : State) (idx layer f : Nat) (l : List (Nat × Nat)) : Except WErr State :=
  match l with
  | [] => .ok s
  | e :: rest =>
    match s.forkPage idx layer f e with
    | .error w => .error w
    | .ok s => s.forkPages idx layer f rest

/-- Every layer of the parent. -/
def State.forkLayers (s : State) (idx f : Nat) (l : List (Nat × Layer)) : Except WErr State :=
  match l with
  | [] => .ok s
  | e :: rest =>
    match s.forkPages idx e.1 f e.2.pages with
    | .error w => .error w
    | .ok s => s.forkLayers idx f rest

/-- A FORK would pass the largest reference count of a shared slot (R68). -/
def State.forkLimit (s : State) (q : SeqD) (f : Nat) : Bool :=
  q.layers.any (fun e => e.2.pages.any (fun g => match s.pages.get? g.2 with
    | some p => forkStep p f == .share && decide (65535 ≤ p.refs)
    | none => false))

/-- The lowest next position over the layers (R67). -/
def SeqD.lowestNext (q : SeqD) : Nat := (q.layers.map (·.2.next)).foldl min posMax

/-- The child of a FORK. -/
def SeqD.child (q : SeqD) (f : Nat) (mirror : Option MirrorSeq) : SeqD :=
  { q with state := .opened, mirror := mirror, layers := q.layers.mapVals (fun _ _ => { Layer.empty q.start with next := f }) }

/-- The FORK of a request slot: waits for seals, or is done whole (R65, R68). -/
def State.runFork (s : State) (slot : Nat) : State :=
  match s.reqs.get? slot with
  | none => s
  | some r =>
    let f := r.desc.forkPos
    match s.seqOf r.ridge r.desc.handle with
    | none => s.complete slot .badHandle 0 0 0
    | some q =>
      let waits := s.forkWaits q f
      if !waits.isEmpty then
        (s.sealFirst waits).modReq slot (fun r => { r with
          phase := .forkWait
          pages := q.layers.flatMap (fun e => e.2.pages) })
      else if s.forkLimit q f then s.complete slot .limit 0 0 0
      else if !s.seqFree r.ridge then s.complete slot .noSeq 0 0 0
      else
        let mir := if q.mirrored then s.mirrorFork r.ridge q else none
        let (idx, s1) := s.putSeq (q.child f mir)
        match s1.forkLayers idx f q.layers with
        | .error w => s.writeFailed slot r.ridge w
        | .ok s =>
          let h := s.handleAt idx
          let s := if mir.isSome then
              s.mirror r.desc.handle h 0x04 (descOf (mirHeader 0x04 r.ridge r.prio ++ [(0x18, 0, f)])).bytes none
            else s
          s.complete slot .ok 0 h 0

/-- FORK. -/
def execFork (t : Nat) (src : Src) (d : Desc) (s : State) : Host.Outcome State Fault Refusal :=
  s.command t src d [] forkLayout
    (fun s c =>
      match s.seqOf c.ridge c.d.handle with
      | none => [(false, .badHandle)]
      | some q =>
        [(!s.health.drain && (q.state == .opened || q.state == .sealed) && decide (q.start ≤ c.d.forkPos) &&
          decide (c.d.forkPos ≤ q.lowestNext), .stateConflict),
         (s.seqFree c.ridge, .noSeq), (!s.forkLimit q c.d.forkPos, .limit), (s.tagParams c.d false, .badParam)])
    (fun s c =>
      let (s, slot) := s.admitReq c .engine id
      s.runFork slot)

/-- FORK_RESUME: the pages a FORK waits on are sealed. -/
def execForkResume (t : Nat) (slot : Nat) (s : State) : Host.Outcome State Fault Refusal :=
  let s := s.advance t
  if s.frozen then .next s
  else
    match s.reqs.get? slot with
    | none => .next s
    | some r =>
      if r.phase ≠ .forkWait then .next s
      else
        match s.seqOf r.ridge r.desc.handle with
        | none => .next (s.runFork slot)
        | some q => if (s.forkWaits q r.desc.forkPos).isEmpty then .next (s.runFork slot) else .next s

-- INGEST (R442 to R444).

/-- The checks of R444 on one image, by its place and whether it is the last. -/
def imageOk (q : SeqD) (layer next : Nat) (first i : Nat) (last : Bool) (im : List Byte) : Bool :=
  let a := leAt im 0 4
  let b := leAt im 4 4
  let tokens := leAt im 8 4 % 512
  a % 256 == 1 && (a / 8192) % 2 == 0 && leAt im 24 24 == q.fmt.bits.toNat && leAt im 12 4 == q.salt &&
  b / 16777216 == layer && b % 16777216 == first + i &&
  leAt im 16 8 == q.start + (first + i) * q.fmt.tpp && (i != 0 || leAt im 16 8 == next) &&
  (if last then decide (tokens ≤ q.fmt.tpp) else tokens == q.fmt.tpp)

/-- Token records of an image, as stored. -/
def imageRecords (f : Fmt) (im : List Byte) : List (List Byte) :=
  (List.range (leAt im 8 4 % 512)).map (fun j => sliceBytes im (2048 + j * f.tokenBytes) f.tokenBytes)

/-- The first page number of a list of images. -/
def firstImage (ims : List (List Byte)) : Nat :=
  match ims with
  | im :: _ => leAt im 4 4 % 16777216
  | [] => 0

/-- INGEST of a request slot: its images are checked, then written whole (R444, R65, R71). One that would carry the next position beyond
2^40 − 1 ends as such an APPEND does (R56, log entry 76). -/
def State.runIngest (s : State) (slot : Nat) : State :=
  match s.reqs.get? slot with
  | none => s
  | some r =>
    let d := r.desc
    let idx := handleIdx d.handle
    match s.seqOf r.ridge d.handle with
    | none => s.complete slot .badHandle 0 0 0
    | some q =>
      let ims := images (d.imagesM1 + 1) r.data
      let first := firstImage ims
      let next := (q.layer d.layer).next
      let ok := (ims.zipIdx).all (fun e => imageOk q d.layer next first e.2 (e.2 + 1 == ims.length) e.1)
      if s.behindHeld r then s.modReq slot (fun r => { r with phase := .held })
      else if q.state ≠ .opened then (s.countSC r.ridge r.opcode).complete slot .stateConflict 0 0 0
      else if !ok then s.complete slot .badParam 0 0 0
      else
        let recs := ims.flatMap (imageRecords q.fmt)
        if posMax < next + recs.length then (s.countSC r.ridge r.opcode).complete slot .stateConflict 0 0 0
        else if s.mustHold idx d.layer (first + d.imagesM1) then
          let s := s.modReq slot (fun r => { r with phase := .held, reuseHeld := true })
          if r.reuseHeld then s else s.bumpR r.ridge 4
        else
          match s.writeTokens (recs.length + 1) idx d.layer next recs with
          | .error e => s.writeFailed slot r.ridge e
          | .ok s =>
            let s := (s.modLayer idx d.layer (fun l => { l with next := next + recs.length })).bumpBy (.node 2062) ims.length
            s.complete slot .ok 0 0 0

/-- INGEST: STANDIN is 1, the sequence Open, the layer in range, pages within the bound (R56, R386, R442). -/
def execIngest (t : Nat) (src : Src) (d : Desc) (data : Option (List Byte)) (s : State) : Host.Outcome State Fault Refusal :=
  s.command t src d (inlineOf d data) ingestLayout
    (fun s c =>
      match s.seqOf c.ridge c.d.handle with
      | none => [(false, .badHandle)]
      | some q =>
        let next := s.nextPos q c.d.handle c.d.layer
        [((s.ridge c.ridge).standin && q.state == .opened && q.hasLayer c.d.layer, .stateConflict),
         (decide (q.pageOf next + c.d.imagesM1 ≤ pageMax), .limit),
         (s.tagParams c.d false && s.srcParams c && c.d.srcOf.qsrc != 0, .badParam)])
    (fun s c =>
      let len := (c.d.imagesM1 + 1) * 65536
      let (s, got) := s.source c len data
      let (s, slot) := s.admitReq c .engine (fun r => { r with data := got.getD [] })
      match got with
      | none => s.failNow slot .queryFault (ErrRec.of .queryFault c.ridge .none)
      | some _ => s.runIngest slot)

/-- RING_REUSE_RESUME: a held APPEND or INGEST goes on when its readers have finished (R71). -/
def execRingReuseResume (t : Nat) (slot : Nat) (s : State) : Host.Outcome State Fault Refusal :=
  let s := s.advance t
  if s.frozen then .next s
  else if s.isHeld slot 0x02 then .next (s.runAppend slot)
  else if s.isHeld slot 0x06 then .next (s.runIngest slot)
  else .next s

-- READ (R255, R387).

/-- The slots of the pages a READ names, in order; none when one is not held. -/
def State.readSlots (q : SeqD) (d : Desc) : Option (List Nat) :=
  let l := q.layer d.layer
  let m := if d.readGrad then l.grads else l.pages
  allSome ((List.range (d.pagesM1 + 1)).map (fun i => m.get? (d.pageNo + i)))

/-- The images of pages, or the first that fails: its slot, granule and cause. -/
def State.readImages (s : State) (keys : List Nat) : Except (Nat × Nat × Cause) (List Byte) :=
  match keys with
  | [] => .ok []
  | k :: rest =>
    match s.pages.get? k with
    | none => .ok []
    | some p =>
      match s.badGranule k p with
      | some (g, cause) => .error (k, g, cause)
      | none =>
        match p.records with
        | none => .error (k, 0, .codec)
        | some recs =>
          match s.readImages rest with
          | .error e => .error e
          | .ok bs => .ok (p.image recs ++ bs)

/-- Granules that reads of pages count. -/
def State.countReads (s : State) (keys : List Nat) : State :=
  keys.foldl (fun s k => match s.pages.get? k with
    | some p => s.dramRead (slotCirque k) (8 + granules p.stored)
    | none => s) s

/-- READ. -/
def execRead (t : Nat) (src : Src) (d : Desc) (s : State) : Host.Outcome State Fault Refusal :=
  s.command t src d [] readLayout
    (fun s c =>
      match s.seqOf c.ridge c.d.handle with
      | none => [(false, .badHandle)]
      | some q =>
        [((q.state == .opened || q.state == .sealed) && q.hasLayer c.d.layer && (State.readSlots q c.d).isSome, .stateConflict),
         (s.tagParams c.d false && s.outParams c, .badParam)])
    (fun s c =>
      match s.seqOf c.ridge c.d.handle with
      | none => s
      | some q =>
        let keys := (State.readSlots q c.d).getD []
        let (s, slot) := s.admitReq c .engine id
        let s := s.countReads keys
        match s.readImages keys with
        | .ok bs => s.deliverOut slot bs
        | .error (k, g, cause) =>
          match s.pages.get? k with
          | none => s
          | some p =>
            let (s, e) := s.pageErr k g p cause
            s.failNow slot .uncorrectable e)

end Sys2Proof.Machine
end

