-- ==== Sys2Proof/Machine/Attend.lean ====
section
/-! DEFINITION. Attention of one request (R93, R97 to R103, R131, R132, R154): requested positions, flags, scores, items, and what
an item computes.
Log entries 30. -/

namespace Sys2Proof

open Sys2Proof.Machine

-- Requested positions (R97, R98).

/-- The largest POS_HI: the layer's last committed position (R91). -/
def posHiLast : Nat := 0xFFFFFFFFFF

/-- POS_HI_eff, one past it: the bound above the range (R97). -/
def Desc.hiEnd (d : Desc) (snap : Nat) : Nat := if d.posHi = posHiLast then snap else d.posHi + 1

/-- The requested positions of query token i, as intervals [a, b) (R97). -/
def Desc.requested (d : Desc) (start snap i : Nat) : List (Nat × Nat) :=
  let q := d.qpos + i
  let hi := if d.causal then min (d.hiEnd snap) (q + 1) else d.hiEnd snap
  if d.windowEn then
    (max d.posLo (q + 1 - d.windowW), hi) ::
      (if d.sinksEn then [(d.posLo, min hi (start + d.sinkN))] else [])
  else [(d.posLo, hi)]

/-- A position lies in one of some intervals. -/
def inside (l : List (Nat × Nat)) (p : Nat) : Bool := l.any (fun e => decide (e.1 ≤ p) && decide (p < e.2))

/-- Some position of the intervals lies in [a, b). -/
def meets (l : List (Nat × Nat)) (a b : Nat) : Bool := l.any (fun e => decide (max e.1 a < min e.2 b))

/-- SHORT: a requested position lies below START_POS or at or beyond the committed count (R98). -/
def Desc.isShort (d : Desc) (start snap i : Nat) : Bool :=
  let l := d.requested start snap i
  meets l 0 start || meets l (max start snap) (2 * posMax)

/-- Runs of page numbers below a bound that a rising list of pages leaves out. -/
def gaps (from_ to_ : Nat) (l : List Nat) : List (Nat × Nat) :=
  match l with
  | [] => if from_ < to_ then [(from_, to_)] else []
  | p :: rest => (if from_ < p then [(from_, p)] else []) ++ gaps (p + 1) to_ rest

/-- TRUNC: a requested position lies in a page whose slot has been reused (R98). -/
def Desc.isTrunc (d : Desc) (start snap tpp i : Nat) (pages : List Nat) : Bool :=
  let l := d.requested start snap i
  (gaps 0 (ceilDiv (snap - start) tpp) pages).any (fun g =>
    meets l (start + g.1 * tpp) (min snap (start + g.2 * tpp)))

/-- A page holds a requested and held position of query token i. -/
def Desc.pageFor (d : Desc) (start snap tpp page i : Nat) : Bool :=
  meets (d.requested start snap i) (start + page * tpp) (min snap (start + (page + 1) * tpp))

/-- A page holds one of some pair. -/
def Desc.pageAny (d : Desc) (start snap tpp page : Nat) : Bool :=
  (List.range d.nq).any (d.pageFor start snap tpp page)

/-- The requested and held positions of a page for query token i, by their place in the page. -/
def Desc.places (d : Desc) (start snap tpp page i : Nat) : List Nat :=
  let l := d.requested start snap i
  (List.range tpp).filter (fun j =>
    let p := start + page * tpp + j
    decide (p < snap) && inside l p)

-- Blocks and items (R154).

/-- The pairs of KV head h, in pair order. -/
def Desc.pairsOf (d : Desc) (h : Nat) : List Nat := (List.range d.pairs).filter (fun p => d.pairKv p == h)

/-- Instructions up to the first END, and EXPN and TANH among them (R102). -/
def mprogCount (words : List W32) : Nat × Nat :=
  match words with
  | [] => (0, 0)
  | w :: rest =>
    if mpOp w = 0 then (1, 0)
    else
      let (n, e) := mprogCount rest
      (n + 1, if mpOp w = 0x0A || mpOp w = 0x0B then e + 1 else e)

/-- B of R154. -/
def Desc.blockSize (d : Desc) (dim : Nat) (prog : Option (List W32 × List W32)) : Nat :=
  let (n, e) := match prog with
    | some p => mprogCount p.1
    | none => (0, 0)
  let cap := if d.softcapEn then 1 else 0
  let v := (if d.opcode = 0x21 then 12 else 4) + (if d.alibi then 2 else 0) + 8 * cap + n
  min (8128 / (8 + 4 * dim)) (5000 / max v (4 * (1 + cap + e)))

/-- The pairs of one block of a KV head. -/
def Desc.blockPairs (d : Desc) (b h block : Nat) : List Nat := ((d.pairsOf h).drop (b * block)).take b

/-- The items of one page in order: KV head, then pair block, where a pair of the block has a scored position (R154, R156). -/
def Desc.itemsOfPage (d : Desc) (slot b start snap tpp page : Nat) : List Item :=
  (List.range d.kvCount).flatMap (fun k =>
    let h := d.kvFirst + k
    let n := (d.pairsOf h).length
    ((List.range (ceilDiv n b)).filter (fun x =>
      (d.blockPairs b h x).any (fun p => d.pageFor start snap tpp page (d.pairToken p)))).map
        (fun x => { req := slot, page := page, head := h, block := x, run := 1, avoid := [] }))

-- Scores (R44, R99 to R103).

/-- The difference of two positions, to FP32. -/
def fDiff (a b : Nat) : W32 := fOfInt ((a : Int) - (b : Int))

/-- A score after its modifiers, with the value x of the soft-cap's t and whether the microprogram masks it (R99). -/
def Desc.modified (d : Desc) (prog : Option (List W32 × List W32)) (slope : W32) (start page pair pos : Nat) (s : W32) :
    W32 × W32 × Bool :=
  let q := d.qpos + d.pairToken pair
  let s := if d.alibi then fSub s (fMul slope (fDiff q pos)) else s
  let y := fDiv s d.softcap
  let e := fExp (fMul 0xC0000000#32 (fAbs y))
  let t := fDiv (fSub fOne e) (fAdd fOne e)
  let th := if fSign y then fNeg t else t
  let s := if d.softcapEn then fSoftcap d.softcap s else s
  match prog with
  | none => (s, th, false)
  | some (words, consts) =>
    let g := d.pairHead pair
    let regs := [s, fDiff q pos, fDiff pos start, fOfInt g, fOfInt (g / d.g), fOfInt (d.pairToken pair), fOfInt page] ++
      List.replicate 9 0#32
    let (f0, masked) := mpRun words consts ((List.range 4).map d.param) regs false
    (f0, th, masked)

/-- What an item works on: the request's descriptor, format, prepared operands and program, and the decoded page. -/
structure Work where
  d : Desc
  f : Fmt
  start : Nat
  snap : Nat
  prog : Option (List W32 × List W32)
  query : List (List W32)
  qscales : List (List W32)
  slopes : List W32
  dout : List (List W32)
  bigL : List W32
  bigD : List W32
  recs : List Byte
  deriving DecidableEq, Repr

/-- s_t of R44 for a pair and a place in the page. -/
def Work.score (w : Work) (pair j : Nat) : W32 :=
  fMul w.d.scale (w.f.dot (w.d.qfmt = 1) (w.query.getD pair []) (w.qscales.getD pair []) (w.f.headAt w.recs j 0 (w.d.pairKv pair)))

/-- The value vector of a place in the page (R45). -/
def Work.value (w : Work) (pair j : Nat) : List W32 := headValues w.f.vfmt w.f.d (w.f.headAt w.recs j 1 (w.d.pairKv pair))
def Work.keyVec (w : Work) (pair j : Nat) : List W32 := headValues w.f.kfmt w.f.d (w.f.headAt w.recs j 0 (w.d.pairKv pair))

/-- The slope of a pair's query head. -/
def Work.slope (w : Work) (pair : Nat) : W32 := w.slopes.getD (pair % (w.d.kvCount * w.d.g)) 0#32

/-- The scored positions of a pair in a page that the microprogram does not mask: place, score and the soft-cap's t. A step of R44
that is not finite leaves no number, whatever a modifier makes of it (R51). -/
def Work.attended (w : Work) (page pair : Nat) : List (Nat × W32 × W32) :=
  (w.d.places w.start w.snap w.f.tpp page (w.d.pairToken pair)).filterMap (fun j =>
    let raw := w.score pair j
    let (s, th, masked) := w.d.modified w.prog (w.slope pair) w.start page pair (w.start + page * w.f.tpp + j) raw
    if masked then none else some (j, if fFinite raw then s else fNaN, th))

/-- DEVELOP's partial of one pair (R47), and whether it met a non-finite value (R51). -/
def Work.develop (w : Work) (page pair : Nat) : Partial × Bool :=
  let l := (w.attended page pair).map (fun a => (a.2.1, w.value pair a.1))
  let p := pagePartial w.f.d l
  (p, l.any (fun e => !fFinite e.1 || !e.2.all fFinite) || !pageOk l || !p.finite)

/-- One position of REVERSE (R132): dq, psum, the contribution, a clamp, and whether all was finite. -/
def Work.revStep (w : Work) (pair pos : Nat) (a : Nat × W32 × W32) (dq : List W32) (psum : W32) :
    List W32 × W32 × Contrib × Bool × Bool :=
  let v := w.value pair a.1
  let k := w.keyVec pair a.1
  let dout := w.dout.getD pair []
  let x0 := fSub a.2.1 (w.bigL.getD pair 0#32)
  let clamp := fLt 0#32 x0
  let p := fExp (if clamp then 0#32 else x0)
  let dp := (dout.zip v).foldl (fun s e => fAdd s (fMul e.1 e.2)) 0#32
  let ds := fMul p (fSub dp (w.bigD.getD pair 0#32))
  let ds := if w.d.softcapEn then fMul ds (fSub fOne (fMul a.2.2 a.2.2)) else ds
  let gs := fMul w.d.scale ds
  let dq := List.zipWith (fun q k => fAdd q (fMul gs k)) dq k
  let c : Contrib := { pair := pair, pos := pos, dk := (w.query.getD pair []).map (fMul gs), dv := dout.map (fMul p) }
  let psum := fAdd psum p
  (dq, psum, c, clamp, expOk x0 && fFinite dp && fFinite gs && fFinite psum && k.all fFinite && v.all fFinite &&
    dq.all fFinite && c.dk.all fFinite && c.dv.all fFinite && fFinite a.2.1)

/-- The FP32 values of a prepared query: codes times scales for FP8 (R42, R132). -/
def preparedValues (fp8 : Bool) (q sc : List W32) : List W32 :=
  if fp8 then ((blocksOf (q.length + 1) 32 q).zip sc).flatMap (fun b => b.1.map (fun c => fMul (fOfElt (eltOf 1 c.toNat)) b.2)) else q

/-- REVERSE of one pair (R132): dq and psum as a partial, contributions, clamps, non-finite. The scores are DEVELOP's (R130); the
contributions take the values of the prepared query. -/
def Work.reverse (w : Work) (page pair : Nat) : Partial × List Contrib × Nat × Bool :=
  let l := w.attended page pair
  let w := { w with query := w.query.set pair (preparedValues (w.d.qfmt = 1) (w.query.getD pair []) (w.qscales.getD pair [])) }
  let r := l.foldl (fun (r : List W32 × W32 × List Contrib × Nat × Bool) a =>
    let (dq, psum, c, clamp, ok) := w.revStep pair (w.start + page * w.f.tpp + a.1) a r.1 r.2.1
    (dq, psum, r.2.2.1 ++ [c], r.2.2.2.1 + (if clamp then 1 else 0), r.2.2.2.2 && ok))
    (List.replicate w.f.d 0#32, 0#32, [], 0, true)
  ({ m := 0#32, l := r.2.1, u := r.1, count := l.length }, r.2.2.1, r.2.2.2.1, !r.2.2.2.2)

/-- What an item computes over its block (R154). -/
def Work.item (w : Work) (page : Nat) (pairs : List Nat) : ItemOut :=
  if w.d.opcode = 0x21 then
    let l := pairs.map (fun p => (p, w.reverse page p))
    { parts := l.map (fun e => (e.1, e.2.1)), contribs := l.flatMap (fun e => e.2.2.1),
      nonfinite := (l.filter (fun e => e.2.2.2.2)).map (·.1),
      clamps := l.foldl (fun n e => n + e.2.2.2.1) 0 }
  else
    let l := pairs.map (fun p => (p, w.develop page p))
    { parts := l.map (fun e => (e.1, e.2.1)), contribs := [],
      nonfinite := (l.filter (fun e => e.2.2)).map (·.1), clamps := 0 }

-- Operands (R93, R96, R131).

/-- Little-endian FP32 words from an offset, subnormals read as zero (R25). -/
def fWords (n off : Nat) (bs : List Byte) : List W32 :=
  (chunkLe 4 n (sliceBytes bs off (4 * n))).map (fun v => fFlush (BitVec.ofNat 32 v))

/-- The prepared operands of a request, none when a value is not finite (R96, R131). -/
structure Prepared where
  query : List (List W32)
  qscales : List (List W32)
  slopes : List W32
  dout : List (List W32)
  bigL : List W32
  bigD : List W32
  deriving DecidableEq, Repr

/-- The query heads with an operand that is not finite (R51, R96), each once: a query or dO element, an L, a D or a slope. -/
def badHeads (f : Fmt) (d : Desc) (bs : List Byte) : List Nat :=
  let n := d.pairs
  let vec (base p : Nat) : List W32 := bfVec f.d (sliceBytes bs (base + 2 * f.d * p) (2 * f.d))
  let rev := d.opcode = 0x21
  let qb := d.qBytes f.d
  let num (off p : Nat) : Bool := (fWords 1 (off + 4 * p) bs).all fFinite
  let slopesAt := if rev then 2 * qb + 8 * n else qb
  let bad (p : Nat) : Bool :=
    (f.prepare (d.qfmt = 1) (d.pairKv p) (vec 0 p)).isNone ||
    (rev && (!(f.rotate 1 (d.pairKv p) (vec qb p)).all fFinite || !num (2 * qb) p || !num (2 * qb + 4 * n) p)) ||
    (d.alibi && !num slopesAt (p % (d.kvCount * d.g)))
  (((List.range n).filter bad).map d.pairHead).eraseDups

/-- Prepare a query or an input block (R41, R42, R96, R131, R132). -/
def prepare (f : Fmt) (d : Desc) (bs : List Byte) : Option Prepared :=
  let n := d.pairs
  let vec (base p : Nat) : List W32 := bfVec f.d (sliceBytes bs (base + 2 * f.d * p) (2 * f.d))
  let qs := allSome ((List.range n).map (fun p => f.prepare (d.qfmt = 1) (d.pairKv p) (vec 0 p)))
  let rev := d.opcode = 0x21
  let qb := d.qBytes f.d
  let dout := if rev then (List.range n).map (fun p => f.rotate 1 (d.pairKv p) (vec qb p)) else []
  let bigL := if rev then fWords n (2 * qb) bs else []
  let bigD := if rev then fWords n (2 * qb + 4 * n) bs else []
  let slopes := if d.alibi then fWords (d.kvCount * d.g) (if rev then 2 * qb + 8 * n else qb) bs else []
  match qs with
  | none => none
  | some l =>
    if dout.all (·.all fFinite) && bigL.all fFinite && bigD.all fFinite && slopes.all fFinite then
      some { query := l.map (·.1), qscales := l.map (·.2), slopes := slopes, dout := dout, bigL := bigL, bigD := bigD }
    else none

end Sys2Proof
end

