-- ==== Sys2Proof/Machine/Dram.lean ====
section
/-! DEFINITION. What the DRAM rows hold, as a view of State: granules as stored (R57, R190, R351), the rows of regions that Cairn units
work on (R181, R189, R200, R216 to R220, R237), row images with their metadata and check bytes (R75, R76).
Log entries 5, 82, 83. -/

namespace Sys2Proof

open Sys2Proof.Machine

-- Geometry of an index (R213, R215, R217, R219, R220).

/-- The sketch width w of an index. -/
def IndexParams.width (p : IndexParams) : Nat := 256 * 2 ^ p.skw

/-- Bytes of a vector record (R219) and of a side entry (R220). -/
def IndexParams.recBytes (p : IndexParams) : Nat := 16 + p.vecBytes
def IndexParams.sideBytes (p : IndexParams) : Nat := 16 + p.width / 8 + p.recBytes

/-- Sketch rows of a block, rows of a block and row groups of a stripe (R217). -/
def IndexParams.sketchRows (p : IndexParams) : Nat := 224 / sketchesPerRow p.width
def IndexParams.stripeRows (p : IndexParams) : Nat := 16 * (p.sketchRows + 1)

/-- Items of a stripe (R217). -/
def stripeItems : Nat := 917504

/-- Vector slots of a stripe, side-list slots and key-table slots in each cirque (R215, R219, R220). -/
def IndexParams.vecSlots (p : IndexParams) : Nat := ceilDiv stripeItems (65472 / p.recBytes)
def IndexParams.sideSlots (p : IndexParams) : Nat := ceilDiv p.sideCap (65472 / p.sideBytes)
def IndexParams.keySlots (p : IndexParams) : Nat := ceilDiv (32 * (p.stripes * stripeItems + p.sideCap)) 65536

/-- Slots an index takes in each cirque beside its row groups (R215). -/
def IndexParams.extraSlots (p : IndexParams) : Nat :=
  (p.stripes + 1) * p.vecSlots + p.sideSlots + p.keySlots + ceilDiv (16 * p.sideCap) 65536

/-- Whole granules of some items' tags, sketches and vector records. -/
def IndexParams.granulesOf (p : IndexParams) (n : Nat) : Nat := ceilDiv (n * (8 + p.width / 8 + p.recBytes)) 256

/-- The part of an index that its k-th slot belongs to, and its number in the part (R351). -/
def IndexParams.partOf (p : IndexParams) (k : Nat) : Nat × Nat :=
  let nv := (p.stripes + 1) * p.vecSlots
  if k < nv then (0, k) else if k < nv + p.sideSlots then (1, k - nv)
  else if k < nv + p.sideSlots + p.keySlots then (2, k - nv - p.sideSlots) else (3, k - nv - p.sideSlots - p.keySlots)

/-- The predicate of a QUERY on a tag (R225). -/
def Desc.predTag (d : Desc) (t : BitVec 64) : Bool := ((t &&& d.pmask) == d.pval) != d.predInv

/-- An item of this tag matches (R225). -/
def Desc.matchTag (d : Desc) (t : BitVec 64) : Bool := !d.filterEn || d.predTag t

end Sys2Proof

namespace Sys2Proof.Machine

open Sys2Proof

-- Encryption (R78, R351).

/-- The tweak of a granule of a page-store page, class 0. -/
def pageTweak (salt layer pageNo : Nat) (grad : Bool) (j : Nat) : BitVec 128 :=
  BitVec.ofNat 128 (salt % 2 ^ 32 + layer % 256 * 2 ^ 32 + pageNo % 2 ^ 24 * 2 ^ 40 + flagBit grad 64 + j % 256 * 2 ^ 65)

/-- The tweak of a granule of a Contour slot, class 1: part 0 vectors, 1 side list, 2 key table, 3 tombstones. -/
def indexTweak (no gen part slot cirque j : Nat) : BitVec 128 :=
  BitVec.ofNat 128 (no % 16 + gen % 2 ^ 28 * 2 ^ 4 + part % 4 * 2 ^ 32 + slot % 2 ^ 24 * 2 ^ 40 + cirque % 16 * 2 ^ 64 +
    j % 256 * 2 ^ 68 + 2 ^ 120)

/-- The tweak of a granule of the reserved area, class 2. -/
def reservedTweak (cirque j position : Nat) : BitVec 128 :=
  BitVec.ofNat 128 (cirque % 16 + j % 256 * 2 ^ 4 + position % 8192 * 2 ^ 12 + 2 * 2 ^ 120)

/-- What a granule is stored for. -/
inductive Storage where
  | page (salt layer pageNo : Nat) (grad : Bool) (j : Nat)
  | index (no gen part slot cirque j : Nat)
  | reserved (cirque j position : Nat) (ridgeState : Bool)
  deriving DecidableEq, Repr

def Storage.tweak (x : Storage) : BitVec 128 :=
  match x with
  | .page salt layer no grad j => pageTweak salt layer no grad j
  | .index no gen part slot c j => indexTweak no gen part slot c j
  | .reserved c j p _ => reservedTweak c j p

/-- The entry of the reserved area holds a ridge's state (R78): descriptors, page maps, spill areas and request state do. -/
def Storage.ridgeKeyed (x : Storage) : Bool :=
  match x with
  | .page _ _ _ _ _ => true
  | .index _ _ _ _ _ _ => true
  | .reserved _ _ _ own => own

/-- The key of a granule (R351): its ridge's memory key, or the node key; none once the ridge's key is destroyed. -/
def State.storageKey (s : State) (ridge : Nat) (x : Storage) : Option Nat :=
  if x.ridgeKeyed then (s.ridge ridge).key else some s.boot.nodeKey

/-- A granule as stored. -/
def State.xts (s : State) (ridge : Nat) (x : Storage) (plain : List Byte) : List Byte :=
  match s.storageKey ridge x with
  | some k => sliceBytes (Config.xts k x.tweak plain) 0 256
  | none => (List.range 256).map (Config.dramByte 0 x.tweak.toNat)

-- Slots.

/-- Granule j of a page's slot: the header, then the payload area (R57). -/
def Page.granule (p : Page) (j : Nat) : List Byte :=
  if j < 8 then sliceBytes p.header (256 * j) 256 else sliceBytes p.payload (256 * (j - 8)) 256

/-- The bytes of a vector record (R219). -/
def vecRecord (key : Nat) (n : W32) (vec : List Byte) : List Byte := leBytes 8 key ++ leBytes 4 n.toNat ++ leBytes 4 0 ++ vec

/-- The bytes of a side entry as stored (R216, R220). -/
def Index.sideEntry (x : Index) (e : SideEnt) : List Byte :=
  leBytes 8 (e.tag.toNat ^^^ x.whiteT) ++ leBytes 6 e.seq ++ leBytes 2 e.pos ++ leBytes (x.p.width / 8) (e.sketch ^^^ x.whiteW) ++
  vecRecord e.key e.n e.vec

/-- An empty part, whose spare is the stripe after the n of the index (R215). -/
def IndexPart.empty (n : Nat) : IndexPart :=
  { side := [], stripes := [], tombs := [], merge := none, again := false, retired := [], place := [], spare := n, old := [] }

/-- The part of an index in a cirque. -/
def Index.part (x : Index) (c : Nat) : IndexPart := (x.parts.get? c).getD (IndexPart.empty x.p.stripes)

/-- The physical stripe of a stripe number (R235): its own, until a merge switches it with the spare. -/
def IndexPart.placeOf (p : IndexPart) (no : Nat) : Nat := (p.place.get? no).getD no

/-- The items of a physical stripe, in ascending q; the spare still holds those of the stripe that a switch took out (R235). -/
def IndexPart.itemsAt (p : IndexPart) (phys : Nat) : List MainItem :=
  if phys = p.spare then p.old
  else ((p.stripes.find? (fun e => p.placeOf e.1 == phys)).map (·.2)).getD []

/-- The bytes of the k-th slot that an index holds beside its row groups in a cirque: the slot identity, whose bytes no rule gives, and
vector records or side entries; the two tables' layouts no rule gives (R215, R219, R220, log entry 83). A free side entry has commit
sequence 0. -/
def Index.slotBytes (x : Index) (pt : IndexPart) (k : Nat) : List Byte :=
  let nv := (x.p.stripes + 1) * x.p.vecSlots
  let ident := (List.range 64).map (Config.dramByte 1 k)
  if k < nv then
    let r := 65472 / x.p.recBytes
    ident ++ (((pt.itemsAt (k / x.p.vecSlots)).drop (k % x.p.vecSlots * r)).take r).flatMap (fun i => vecRecord i.key i.n i.vec)
  else if k < nv + x.p.sideSlots then
    let r := 65472 / x.p.sideBytes
    ident ++ (List.range r).flatMap (fun i => match pt.side.find? (fun e => e.entry == (k - nv) * r + i) with
      | some e => x.sideEntry e
      | none => List.replicate x.p.sideBytes 0#8)
  else (List.range 65536).map (Config.dramByte 2 k)

/-- The place of a value in a list. -/
def indexIn (l : List Nat) (x : Nat) : Option Nat := l.findIdx? (· == x)

/-- The index that holds a slot of a cirque beside its row groups: its key, the index, and which of its slots it is. -/
def State.extraOwner (s : State) (c x : Nat) : Option (Nat × Index × Nat) :=
  s.indexes.findSome? (fun e => (indexIn ((e.2.extra.get? c).getD []) x).map (fun k => (e.1, e.2, k)))

/-- Granule j of slot x of a cirque as stored; what a slot that nothing holds reads no rule says. -/
def State.granuleAt (s : State) (c x j : Nat) : List Byte :=
  match s.pages.get? (c * slotsPerCirque + x) with
  | some p => s.xts p.ridge (.page p.salt p.layer p.pageNo p.grad j) (p.granule j)
  | none =>
    match s.extraOwner c x with
    | some (key, i, k) =>
      let (part, n) := i.p.partOf k
      s.xts (key / 16) (.index (key % 16) i.gen part n c j) (sliceBytes (i.slotBytes (i.part c) k) (256 * j) 256)
    | none => (List.range 256).map (Config.dramByte 3 ((c * slotsPerCirque + x) * 256 + j))

/-- The ridge and write generation of a slot (R76). -/
def State.slotTag (s : State) (c x : Nat) : Nat :=
  granuleTag (match s.pages.get? (c * slotsPerCirque + x) with
    | some p => p.ridge
    | none => (s.ownerOf c).getD 0) ((s.wgens.get? (c * slotsPerCirque + x)).getD 0)

-- Rows of regions (R181, R189, R217, R218, R237).

/-- Data bytes of a row (R75). -/
def rowBytes : Nat := 1792

/-- A row whose columns all carry one tag. -/
def RowImg.of (tag : Nat) (data : List Byte) : RowImg := { data := data, tags := List.replicate 7 tag }

/-- Sketches of width w in the positions of a row, as stored. -/
def sketchRow (w white : Nat) (l : List Nat) : List Byte :=
  leBytes rowBytes (l.foldr (fun v n => n * 2 ^ w + (v ^^^ white)) 0)

/-- A row of an index's main region in bank j (R217, R218): k is its place among the index's row groups. An ordinal without an item holds
plain zero. -/
def Index.mainRow (x : Index) (pt : IndexPart) (j k : Nat) : List Byte :=
  let l := pt.itemsAt (k / x.p.stripeRows)
  let b := k % x.p.stripeRows / (x.p.sketchRows + 1)
  let r := k % x.p.stripeRows % (x.p.sketchRows + 1)
  let item (u : Nat) : Option MainItem := l[(b * 224 + u) * 256 + j]?
  let sn := sketchesPerRow x.p.width
  if r = 0 then
    (List.range 224).flatMap (fun u => leBytes 8 (((item u).map (fun i => i.tag.toNat)).getD 0 ^^^ x.whiteT))
  else sketchRow x.p.width x.whiteW ((List.range sn).map (fun i => ((item ((r - 1) * sn + i)).map (fun i => i.sketch)).getD 0))

/-- A row of a page-sketch region in bank j: the positions given hold their pages' sketches, the others the stored form of zero
(R236, R237, R239). -/
def State.pskRow (s : State) (g : Pskr) (c j row : Nat) : List Byte :=
  let w := ((g.rows.get? c).getD []).find? (fun w => w.bank == j && w.row == row)
  sketchRow g.width g.white ((List.range (sketchesPerRow g.width)).map (fun i => match w with
    | none => 0
    | some w => match w.used.find? (fun u => u.1 == i) with
      | none => 0
      | some u => (((s.pages.get? u.2).map (·.sketch)).getD []).getD w.head 0))

/-- The bank row of row group i (R170). -/
def groupRow (i : Nat) : Nat := 1171 + i

/-- A region row as it was filled at creation: 0 with the region's tag (R183, R200). -/
def Region.blank (g : Region) : RowImg := RowImg.of (granuleTag g.ridge g.wgen) (List.replicate rowBytes 0#8)

/-- Row r of a scratch region in bank j. -/
def Region.row (g : Region) (j r : Nat) : RowImg := (g.rows.get? (j * 1024 + r)).getD g.blank

/-- Put a row into a scratch region; one that equals its blank row is not listed. -/
def Region.setRow (g : Region) (j r : Nat) (x : RowImg) : Region :=
  { g with rows := if x = g.blank then g.rows.erase (j * 1024 + r) else g.rows.set (j * 1024 + r) x }

/-- The region row of a bank row of a scratch region. -/
def Region.rowOf (g : Region) (c row : Nat) : Option Nat :=
  match g.kind with
  | .scratch q gs _ => if q = c then indexIn gs (row - 1171) else none
  | .composite _ _ _ _ => none
  | .lease => none
  | .completion _ => none
  | .query => none

/-- Write a row of bank j of a cirque: of the kinds of rows, only those of scratch regions are written by segments (R189, log entry 36). -/
def State.setBankRow (s : State) (c j row : Nat) (x : RowImg) : State :=
  { s with regions := s.regions.mapVals (fun _ g => match g.rowOf c row with
      | some r => g.setRow j r x
      | none => g) }

/-- The scratch region that holds a bank row of a cirque, and the region row. -/
def State.scratchAt (s : State) (c row : Nat) : Option (Region × Nat) :=
  s.regions.findSome? (fun e => (e.2.rowOf c row).map (fun r => (e.2, r)))

/-- The data and tags of a row of bank j of a cirque as the array holds it (R75, R170, R189). -/
def State.bankRow (s : State) (c j row : Nat) : RowImg :=
  let i := row - 1171
  let psk := s.ridges.findSome? (fun e => match e.2.pskr with
    | some g => if ((g.rowGroups.get? c).getD []).contains i then some (e.1, g) else none
    | none => none)
  let idx := s.indexes.findSome? (fun e => (indexIn ((e.2.groups.get? c).getD []) i).map (fun k => (e.1, e.2, k)))
  if row < 1171 then
    { data := (List.range 7).flatMap (fun g => if 7 * row + g < 8192
        then (List.range 256).map (Config.dramByte 4 (((c * 256 + j) * 8192 + 7 * row + g)))
        else s.granuleAt c (7 * row + g - 8192) j)
      tags := (List.range 7).map (fun g => if 7 * row + g < 8192 then 0 else s.slotTag c (7 * row + g - 8192)) }
  else
    match s.scratchAt c row, psk, idx with
    | some (g, r), _, _ => g.row j r
    | none, some (r, g), _ => RowImg.of (granuleTag r g.wgen) (s.pskRow g c j row)
    | none, none, some (key, x, k) => RowImg.of (granuleTag (key / 16) x.wgen) (x.mainRow (x.part c) j k)
    | none, none, none =>
      { data := (List.range 7).flatMap (fun g => s.granuleAt c (7 * row + g - 8192) j)
        tags := (List.range 7).map (fun g => s.slotTag c (7 * row + g - 8192)) }

/-- The three metadata words of a row: seven granule tags and the row word (R76). -/
def RowImg.metadata (x : RowImg) : List Byte := leBytes 24 ((x.tags.take 7).foldr (fun t n => n * 2 ^ 24 + t % 2 ^ 24) 0)

/-- The check bytes of some stored bytes, word by word (R75, R415). -/
def checksOf (n : Nat) (bs : List Byte) : List Byte := (chunkLe 8 n bs).map (fun w => Config.checkByte (BitVec.ofNat 64 w))

/-- The 2,048 bytes of a row (R75). -/
def RowImg.bytes (x : RowImg) : List Byte :=
  sliceBytes x.data 0 rowBytes ++ checksOf 224 (sliceBytes x.data 0 rowBytes) ++ x.metadata ++ checksOf 3 x.metadata ++
  List.replicate 5 0#8

-- Write generations of what is allocated in one piece (R76).

/-- Two rising maps in one; the second wins. -/
def mergeGens (fuel : Nat) (a b : FMap Nat) : FMap Nat :=
  match fuel with
  | 0 => b
  | fuel + 1 =>
    match a, b with
    | [], b => b
    | a, [] => a
    | x :: xs, y :: ys =>
      if x.1 < y.1 then x :: mergeGens fuel xs (y :: ys)
      else if y.1 < x.1 then y :: mergeGens fuel (x :: xs) ys
      else y :: mergeGens fuel xs ys

/-- The slots of row groups of a cirque, as keys. -/
def groupSlots (c : Nat) (gs : List Nat) : List Nat :=
  gs.flatMap (fun i => (List.range 7).map (fun g => c * slotsPerCirque + 7 * i + 5 + g))

/-- Slots allocated together, given as rising lists, take one write generation, above each of theirs: that of their region (R76, R202,
log entry 82). -/
def State.claim (s : State) (lists : List (List Nat)) : Nat × State :=
  let g := 1 + ((s.wgens.filter (fun e => lists.any (fun l => l.contains e.1))).map (·.2)).foldl max 0
  (g, { s with wgens := lists.foldl (fun w l => mergeGens (w.length + l.length) w (l.map (fun k => (k, g)))) s.wgens })

end Sys2Proof.Machine
end

