-- ==== Sys2Proof/Machine/Cairn.lean ====
section
/-! DEFINITION. Cairn units (R168 to R208): bank groups and their mode, segments, the grant of each stack, refresh, and the CAIRN and
CAIRN_HOLD commands with their scratch regions.
Log entries 36, 70, 82, 84. -/

namespace Sys2Proof

-- The fields of CAIRN and CAIRN_HOLD (R201, R202).
def Desc.crnBank (d : Desc) : Nat := d.fld 0x14 0 8
def Desc.crnAll (d : Desc) : Bool := d.fld 0x14 8 1 == 1
def Desc.crnOp (d : Desc) : Nat := d.fld 0x14 9 4

/-- The operation a CAIRN names, by region rows; the node supplies its tags (R202). -/
def Desc.crnDesc (d : Desc) : Machine.CairnOp :=
  { op := d.crnOp, rowA := d.fld 0x18 0 16, rowB := d.fld 0x18 16 16, rowD := d.fld 0x1C 0 16, bLatch := d.fld 0x24 0 1 == 1,
    dLatch := d.fld 0x24 1 1 == 1, predEn := d.fld 0x24 2 1 == 1, predInv := d.fld 0x24 3 1 == 1, skw := d.fld 0x24 4 2,
    qsel := d.fld 0x24 6 2, run := d.fld 0x24 8 6 + 1, gmask := d.fld 0x24 14 7, shift := d.fld 0x1C 16 3, thr := d.fld 0x20 0 11,
    tagq := d.fld 0x20 11 4, pmask := BitVec.ofNat 64 (d.fld 0x28 0 64), pval := BitVec.ofNat 64 (d.fld 0x30 0 64),
    expTag := 0, tagMask := 0, newTag := 0, resv := false }

/-- What a read met makes a Cairn operation abort (R188). -/
def MemErr.aborts (e : MemErr) : Bool :=
  match e with
  | .none => false
  | .corrected => false
  | .uncorrectable => true
  | .misplaced => true

end Sys2Proof

namespace Sys2Proof.Machine

open Sys2Proof

-- Operations (R178 to R184).

/-- AND, OR, XOR and ANDN: two sources. -/
def CairnOp.twoSource (o : CairnOp) : Bool := decide (3 ≤ o.op) && decide (o.op ≤ 6)

/-- The operation writes a destination row or latch by its columns. -/
def CairnOp.logic (o : CairnOp) : Bool := decide (3 ≤ o.op) && decide (o.op ≤ 7)

/-- Row operations for each row of a run (R179). -/
def CairnOp.rowCost (o : CairnOp) : Nat :=
  if o.op = 1 then 2
  else if o.logic then 1 + (if o.twoSource && !o.bLatch then 1 else 0) + (if o.dLatch then 0 else 1)
  else 1

def CairnOp.cost (o : CairnOp) : Nat := o.run * o.rowCost

/-- The rows a run uses, as the first of each (R180): A, B and D, where the operation has them as rows. -/
def CairnOp.rowsUsed (o : CairnOp) : List Nat :=
  (if o.op = 2 then [] else [o.rowA]) ++ (if o.twoSource && !o.bLatch then [o.rowB] else []) ++
  (if o.op = 1 || o.op = 2 || (o.logic && !o.dLatch) then [o.rowD] else [])

/-- Sketch width in bits, and sketches to a row (R178, R181). -/
def skWidth (skw : Nat) : Nat := 256 * 2 ^ skw
def skPerRow (skw : Nat) : Nat := 14336 / skWidth skw

/-- A descriptor that aborts with BAD_OP (R175, R178, R180, R182, R183). -/
def CairnOp.badOp (o : CairnOp) : Bool :=
  decide (9 < o.op) || o.resv || o.skw == 3 || decide (6 < o.shift) || decide (1024 / skWidth o.skw ≤ o.qsel) ||
  (o.op == 9 && decide (224 / skPerRow o.skw ≤ o.tagq)) || (o.op == 1 && o.rowA == o.rowD && o.shift == 0) ||
  o.rowsUsed.any (fun r => decide (65535 < r + o.run - 1))

/-- The 64 bytes of a descriptor (R178). -/
def CairnOp.bytes (o : CairnOp) : List Byte :=
  leBytes 2 o.rowB ++ leBytes 2 o.rowD ++
  leBytes 1 (flagBit o.bLatch 0 + flagBit o.dLatch 1 + flagBit o.predEn 2 + flagBit o.predInv 3 + o.skw * 16 + o.qsel * 64) ++
  leBytes 1 (o.run - 1) ++ leBytes 1 o.gmask ++ leBytes 1 o.shift ++ leBytes 4 (o.thr + o.tagq * 2 ^ 11) ++ leBytes 4 o.expTag ++
  leBytes 4 o.tagMask ++ leBytes 4 o.newTag ++ leBytes 8 o.pmask.toNat ++ leBytes 8 o.pval.toNat ++ List.replicate 24 0#8

/-- The descriptor that a write of some bytes to an aperture's row and burst queues (R175, R178). -/
def CairnOp.ofBytes (op row : Nat) (bs : List Byte) : CairnOp :=
  let bits (off lo n : Nat) : Nat := leAt bs off 4 / 2 ^ lo % 2 ^ n
  { op := op, rowA := row, rowB := bits 0x00 0 16, rowD := bits 0x00 16 16, bLatch := bits 0x04 0 1 == 1, dLatch := bits 0x04 1 1 == 1,
    predEn := bits 0x04 2 1 == 1, predInv := bits 0x04 3 1 == 1, skw := bits 0x04 4 2, qsel := bits 0x04 6 2, run := bits 0x04 8 6 + 1,
    gmask := bits 0x04 16 7, shift := bits 0x04 24 3, thr := bits 0x08 0 11, tagq := bits 0x08 11 4, expTag := bits 0x0C 0 24,
    tagMask := bits 0x10 0 24, newTag := bits 0x14 0 24, pmask := BitVec.ofNat 64 (leAt bs 0x18 8),
    pval := BitVec.ofNat 64 (leAt bs 0x20 8),
    resv := bits 0x04 14 2 != 0 || bits 0x04 23 1 != 0 || bits 0x04 27 5 != 0 || bits 0x08 15 17 != 0 || bits 0x0C 24 8 != 0 ||
      bits 0x10 24 8 != 0 || bits 0x14 24 8 != 0 || (sliceBytes bs 0x28 24).any (· != 0#8) }

/-- A row's column g. -/
def colOf (row : List Byte) (g : Nat) : List Byte := sliceBytes row (256 * g) 256

/-- Put new columns where the mask has a bit; the others keep what they hold. -/
def maskCols (mask : Nat) (old new : List Byte) : List Byte :=
  (List.range 7).flatMap (fun g => if mask.testBit g then colOf new g else colOf old g)

/-- The columns a COPY writes: column (g + SHIFT) mod 7 for each column g of the mask (R179). -/
def CairnOp.copyMask (o : CairnOp) : Nat :=
  ((List.range 7).filter (fun g => o.gmask.testBit g)).foldl (fun n g => n + 2 ^ ((g + o.shift) % 7)) 0

/-- A row whose columns are moved on by a shift (R179). -/
def shiftCols (k : Nat) (row : List Byte) : List Byte := (List.range 7).flatMap (fun h => colOf row ((h + 7 - k) % 7))

/-- Two rows combined bit by bit (R179). -/
def logicRow (op : Nat) (a b : List Byte) : List Byte :=
  match op with
  | 3 => List.zipWith (· &&& ·) a b
  | 4 => List.zipWith (· ||| ·) a b
  | 5 => List.zipWith (· ^^^ ·) a b
  | 6 => List.zipWith (fun x y => x &&& ~~~y) a b
  | _ => a.map (~~~ ·)

/-- The distances of a row's sketches to the query latch's pattern (R181). -/
def rowDistances (o : CairnOp) (latch : Nat) (row : List Byte) : List Nat :=
  let w := skWidth o.skw
  let pat := (latch >>> (w * o.qsel)) % 2 ^ w
  let n := leNat row
  (List.range (skPerRow o.skw)).map (fun i => hamming w ((n >>> (w * i)) % 2 ^ w) pat)

/-- The distances of an XORPOP entry, from bit 0 on (R184). -/
def xorpopBits (o : CairnOp) (latch : Nat) (row : List Byte) : Nat :=
  (rowDistances o latch row).foldr (fun d n => n * 2 ^ (9 + o.skw) + d) 0

/-- The bitmap of one THRESH row (R182). -/
def threshRow (o : CairnOp) (latch : Nat) (work row : List Byte) : Nat :=
  let sn := skPerRow o.skw
  ((rowDistances o latch row).zipIdx.map (fun e =>
    let tag := leAt work (8 * (o.tagq * sn + e.2)) 8
    let p := (tag &&& o.pmask.toNat == o.pval.toNat) != o.predInv
    decide (e.1 ≤ o.thr) && (!o.predEn || p))).foldr (fun b n => 2 * n + (if b then 1 else 0)) 0

/-- The 64 bytes of a valid entry: its bits, and the trailer with CORR and the descriptor index (R184). -/
def resultEntry (d : Nat) (corr : Bool) (bits : Nat) : List Byte :=
  leBytes 64 (bits % 2 ^ 504 + (d % 64 + flagBit corr 6 + 128) * 2 ^ 504)

/-- An entry with VALID 0 (R176, R184): REASON 0 empty, 0x3E NOT_IN_MODE. -/
def entryNone (reason : Nat) : List Byte := leBytes 64 (reason * 2 ^ 504)

/-- The 64 bytes of a status word (R185). -/
def UnitStatus.bytes (u : UnitStatus) : List Byte :=
  leBytes 1 u.state ++ leBytes 1 u.opsDone ++ leBytes 1 u.rowOps ++ leBytes 1 u.abortOp ++ leBytes 1 u.cause ++
  leBytes 1 u.results ++ leBytes 2 (min 65535 u.corr) ++ leBytes 2 u.abortRow ++ leBytes 1 u.abortCol ++ leBytes 1 u.seq ++
  List.replicate 52 0#8

-- A segment in a unit (R177 to R188).

/-- What a unit has done of a segment: rows written, newest first; the row buffer and the work latch; entries as descriptor, CORR and bits;
row operations and descriptors completed; words corrected, and the bank rows that had one; and the fault that ended it, as descriptor,
cause, bank row and column (R185). -/
structure UnitRun where
  rows : List (Nat × RowImg)
  buf : RowImg
  work : RowImg
  entries : List (Nat × Bool × Nat)
  rowOps : Nat
  opsDone : Nat
  corr : Nat
  scrubs : List Nat
  fault : Option (Nat × Nat × Nat × Nat)
  deriving DecidableEq, Repr

/-- One row of a run (R180): its number over the segment, the descriptor's index, its row k. -/
structure RunRow where
  n : Nat
  d : Nat
  k : Nat
  o : CairnOp
  deriving DecidableEq, Repr

/-- The rows of a segment's descriptors, in queue order (R177). -/
def runRows (ops : List CairnOp) : List RunRow :=
  ((ops.zipIdx.flatMap (fun e => (List.range e.1.run).map (fun k => (e.2, k, e.1)))).zipIdx).map (fun e =>
    { n := e.2, d := e.1.1, k := e.1.2.1, o := e.1.2.2 })

/-- The rows of a segment whose row operations are among the first n. -/
def rowsWithin (n : Nat) (l : List RunRow) : List RunRow :=
  match l with
  | [] => []
  | v :: rest => if v.o.rowCost ≤ n then v :: rowsWithin (n - v.o.rowCost) rest else []

/-- The operation reads row A; row B; the work latch (R179, R182). -/
def CairnOp.readsA (o : CairnOp) : Bool := o.op != 2
def CairnOp.readsB (o : CairnOp) : Bool := o.twoSource && !o.bLatch
def CairnOp.readsLatch (o : CairnOp) : Bool := (o.twoSource && o.bLatch) || (o.op == 9 && o.predEn)

/-- The columns an operation reads of its source rows: those of GMASK where it has one (R179). -/
def CairnOp.cols (o : CairnOp) : List Nat :=
  if o.op = 1 || o.logic then (List.range 7).filter (fun g => o.gmask.testBit g) else List.range 7

/-- The columns of the work latch that an operation reads: for THRESH those of its tag slice (R182). -/
def CairnOp.latchCols (o : CairnOp) : List Nat :=
  if o.op = 9 then
    let sn := skPerRow o.skw
    (List.range 7).filter (fun g => decide (8 * (o.tagq * sn) < 256 * (g + 1)) && decide (256 * g < 8 * (o.tagq * sn + sn)))
  else o.cols

/-- A word that the operation's checks can meet (R186). -/
def CairnOp.meets (o : CairnOp) (w : SegWord) : Bool :=
  if w.col = 8 then o.readsLatch && !w.ofB
  else (if w.ofB then o.readsB else o.readsA) && (w.col == 7 || o.cols.contains w.col)

/-- The bank row of a source word. -/
def RunRow.rowOf (v : RunRow) (w : SegWord) : Nat := (if w.ofB then v.o.rowB else v.o.rowA) + v.k

/-- A granule tag does not match (R187): under TAG_MASK, or its RIDGE field. -/
def CairnOp.tagBad (o : CairnOp) (ridge tag : Nat) : Bool := tag &&& o.tagMask != o.expTag &&& o.tagMask || tag % 32 != ridge

/-- The first of some columns whose tag does not match. -/
def CairnOp.badCol (o : CairnOp) (ridge : Nat) (cols : List Nat) (x : RowImg) : Option Nat :=
  cols.find? (fun g => o.tagBad ridge (x.tags.getD g 0))

/-- New columns and NEW_TAG where the mask has a bit (R179, R183). -/
def RowImg.put (x : RowImg) (mask tag : Nat) (new : List Byte) : RowImg :=
  { data := maskCols mask x.data new
    tags := (List.range 7).map (fun g => if mask.testBit g then tag else x.tags.getD g 0) }

/-- A row of a bank as a unit sees it amid its segment. -/
def UnitRun.row (u : UnitRun) (s : State) (c j row : Nat) : RowImg :=
  ((u.rows.find? (fun e => e.1 == row)).map (·.2)).getD (s.bankRow c j row)

/-- The entries after a THRESH row: eight rows of a run to an entry (R182). -/
def threshInto (l : List (Nat × Bool × Nat)) (d k : Nat) (corr : Bool) (map : Nat) : List (Nat × Bool × Nat) :=
  if k % 8 = 0 then l ++ [(d, corr, map)]
  else l.dropLast ++ [match l.getLast? with
    | some e => (d, e.2.1 || corr, e.2.2 + map * 2 ^ (64 * (k % 8)))
    | none => (d, corr, map)]

/-- One row takes effect (R179 to R184): `a` is row A and `corr` says that a word of the entry's rows was corrected. COPY and FILL ignore
D_LATCH, whose effect on them no rule gives: their destination is row D (DESIGN CHOICE, log entry 84). -/
def UnitRun.effect (u : UnitRun) (s : State) (c j latch : Nat) (v : RunRow) (corr : Bool) : UnitRun :=
  let o := v.o
  let a := u.row s c j (o.rowA + v.k)
  let d := u.row s c j (o.rowD + v.k)
  let b := if o.bLatch then u.work else u.row s c j (o.rowB + v.k)
  let toRow (x : RowImg) : UnitRun := { u with rows := (o.rowD + v.k, x) :: u.rows, buf := x }
  if o.op = 0 then { u with work := a, buf := a }
  else if o.op = 1 then toRow (d.put o.copyMask o.newTag (shiftCols o.shift a.data))
  else if o.op = 2 then toRow (d.put o.gmask o.newTag ((List.range 224).flatMap (fun _ => leBytes 8 o.pval.toNat)))
  else if o.logic then
    let new := logicRow o.op (sliceBytes a.data 0 rowBytes) (sliceBytes b.data 0 rowBytes)
    if o.dLatch then { u with work := u.work.put o.gmask o.newTag new, buf := if o.readsB then b else a }
    else toRow (d.put o.gmask o.newTag new)
  else if o.op = 8 then { u with entries := u.entries ++ [(v.d, corr, xorpopBits o latch a.data)], buf := a }
  else { u with entries := threshInto u.entries v.d v.k corr (threshRow o latch u.work.data a.data), buf := a }

/-- The tag that does not match among a row's sources, as bank row and column (R187). -/
def UnitRun.misplaced (u : UnitRun) (s : State) (c j ridge : Nat) (v : RunRow) : Option (Nat × Nat) :=
  let o := v.o
  let inA := if o.readsA then o.badCol ridge o.cols (u.row s c j (o.rowA + v.k)) else none
  let inB := if o.readsB then o.badCol ridge o.cols (u.row s c j (o.rowB + v.k)) else none
  let inL := if o.readsLatch then o.badCol ridge o.latchCols u.work else none
  match inA, inB, inL with
  | some g, _, _ => some (o.rowA + v.k, g)
  | none, some g, _ => some (o.rowB + v.k, g)
  | none, none, some _ => some (o.rowA + v.k, 8)
  | none, none, none => none

/-- One row of a segment (R180, R186 to R188): the checks of its sources, then its effect; nothing once the segment has aborted. -/
def UnitRun.next (s : State) (c j ridge latch : Nat) (met : SegMet) (u : UnitRun) (v : RunRow) : UnitRun :=
  if u.fault.isSome then u
  else if v.o.badOp then { u with fault := some (v.d, 3, 0, 0) }
  else
    let ws := met.corr.filter (fun w => w.row == v.n && v.o.meets w)
    let rows := ((ws.filter (fun w => w.col != 8)).map v.rowOf).filter (fun r => !u.scrubs.contains r)
    let u := { u with corr := u.corr + ws.length, scrubs := u.scrubs ++ rows.eraseDups }
    let err := match met.abort with
      | some (w, mis) => if w.row = v.n ∧ v.o.meets w then some (v.d, if mis then 2 else 1, v.rowOf w, w.col) else none
      | none => none
    match err, u.misplaced s c j ridge v with
    | some e, _ => { u with fault := some e }
    | none, some (row, col) => { u with fault := some (v.d, 2, row, col) }
    | none, none =>
      let u := u.effect s c j latch v (ws.any (fun w => w.col != 8))
      { u with rowOps := u.rowOps + v.o.rowCost, opsDone := if v.k + 1 = v.o.run then u.opsDone + 1 else u.opsDone }

/-- What the unit of bank j does of its segment in n row operations (R177): a segment that costs more than 64 aborts before its first. -/
def State.runUnit (s : State) (c j : Nat) (met : SegMet) (n : Nat) : UnitRun :=
  let b := s.bank (bankKey c j)
  let ops := b.ops.take b.segOps
  let u : UnitRun :=
    { rows := [], buf := b.rowBuf, work := b.work, entries := [], rowOps := 0, opsDone := 0, corr := 0, scrubs := [], fault := none }
  if 64 < (ops.map CairnOp.cost).foldl (· + ·) 0 then { u with fault := some (0, 4, 0, 0) }
  else (rowsWithin n (runRows ops)).foldl (UnitRun.next s c j b.segRidge b.queryLatch met) u

/-- The status word of a segment that has ended (R185). -/
def UnitRun.status (u : UnitRun) (seq : Nat) : UnitStatus :=
  let f := u.fault.getD (0, 0, 0, 0)
  { state := if u.fault.isSome then 3 else 2, opsDone := u.opsDone, rowOps := u.rowOps, abortOp := f.1, cause := f.2.1,
    results := u.entries.length, corr := u.corr, abortRow := f.2.2.1, abortCol := f.2.2.2, seq := seq }

/-- The unit of bank j keeps what it has done: rows, latches, results and the status word. -/
def State.keepUnit (s : State) (c j : Nat) (u : UnitRun) : State :=
  (u.rows.reverse.foldl (fun s e => s.setBankRow c j e.1 e.2) s).modBank (bankKey c j) (fun b => { b with
    rowBuf := u.buf
    work := u.work
    ops := []
    results := u.entries.map (fun e => resultEntry e.1 e.2.1 e.2.2)
    status := u.status b.status.seq })

-- Bank groups and Cairn mode (R169, R172, R173).

/-- The bank group of bank j in its cirque, as CAIRN_MODE numbers it: 8 × channel + 4 × rank + group (R169, R206). -/
def bankGroup (j : Nat) : Nat := 8 * (j % 8) + 4 * ((j / 8) % 2) + j / 64

/-- A bank group is in Cairn mode. -/
def State.inMode (s : State) (c g : Nat) : Bool := (s.group (groupKey c g)).mode

/-- The holder a scratch region's hold is; handles are unique in a ridge only. -/
def regionHolder (r h : Nat) : Nat := 1048576 + regionKey r h

/-- A holder takes bank groups of a cirque; those out of mode are entered (R172, R173). -/
def State.holdGroups (s : State) (c holder : Nat) (gs : List Nat) : State :=
  gs.foldl (fun s g => s.modGroup (groupKey c g) (fun x =>
    { x with holders := if x.holders.contains holder then x.holders else x.holders ++ [holder]
             lingerAt := none
             entering := if x.mode || x.entering.isSome then x.entering else some (s.now + 130) })) s

/-- The units of a bank group at entry: latches and queues 0, IDLE; at exit: NOT_IN_MODE (R172, R173, R176). The rules do not say whether SEQ
starts anew; it reads 0 (DESIGN CHOICE, log entry 84). -/
def State.resetUnits (s : State) (c g state : Nat) : State :=
  (List.range 256).foldl (fun s j =>
    if bankGroup j = g then
      s.modBank (bankKey c j) (fun b => { b with
        work := RowImg.zero
        queryLatch := 0
        ops := []
        segOps := 0
        results := []
        status := { UnitStatus.zero with state := state } })
    else s) s

/-- A bank group has a segment queued or running. -/
def State.groupBusy (s : State) (c g : Nat) : Bool :=
  s.banks.any (fun e => e.1 / 256 == c && bankGroup (e.1 % 256) == g && (e.2.running.isSome || !e.2.queue.isEmpty))

/-- A bank group leaves Cairn mode (R173). -/
def State.leaveMode (s : State) (c g : Nat) : State :=
  (s.modGroup (groupKey c g) (fun _ => Group.out)).resetUnits c g 0x3E

-- The aperture and the mode registers (R174 to R176).

/-- A rank of a stack, by 2 × channel + rank, of bank j (R169, R174). -/
def rankOf (j : Nat) : Nat := 2 * (j % 4) + (j / 8) % 2

/-- Bank j of a cirque answers its aperture: its group is in Cairn mode. -/
def State.apertureLive (s : State) (c j : Nat) : Bool := s.inMode c (bankGroup j)

/-- A write of 64 bytes to burst b of a bank's aperture (R175 to R177), the row address naming row A. Bursts without a write function change
nothing. -/
def State.apWrite (s : State) (c j row b : Nat) (bs : List Byte) : State :=
  if !s.apertureLive c j then
    s.modStack (bankStack c j) (fun x => { x with apErr := if x.apErr.contains (rankOf j) then x.apErr else x.apErr ++ [rankOf j] })
  else
    s.modBank (bankKey c j) (fun u =>
      if b ≤ 11 then { u with ops := u.ops ++ [CairnOp.ofBytes b row bs] }
      else if b = 12 then { u with queryLatch := u.queryLatch / 2 ^ 512 * 2 ^ 512 + leAt bs 0 64 }
      else if b = 13 then { u with queryLatch := u.queryLatch % 2 ^ 512 + leAt bs 0 64 * 2 ^ 512 }
      else if b = 14 then
        { u with segOps := leAt bs 0 1, segRidge := leAt bs 1 1, ops := [], results := []
                 status := { UnitStatus.zero with state := 1, seq := (u.status.seq + 1) % 256 } }
      else u)

/-- A read of burst b of a bank's aperture (R175, R176): the status word, or result entry 16 × (row mod 4) + b − 16. Bursts without a read
function give nothing. -/
def State.apRead (s : State) (c j row b : Nat) : List Byte :=
  let u := s.bank (bankKey c j)
  let live := s.apertureLive c j
  if b = 15 then (if live then u.status else UnitStatus.zero).bytes
  else if 16 ≤ b ∧ b ≤ 31 then
    if live then (u.results[16 * (row % 4) + (b - 16)]?).getD (entryNone 0) else entryNone 0x3E
  else []

/-- Mode register 72, 73 or 74 of a rank of a channel of a cirque (R174). -/
def State.modeRegister (s : State) (c channel rank n : Nat) : Nat :=
  let stack := 2 * c + channel / 4
  let gs := (List.range 4).map (fun g => 8 * channel + 4 * rank + g)
  if n = 72 then (gs.zipIdx.map (fun e => flagBit (s.inMode c e.1) e.2)).foldl (· + ·) 0
  else if n = 73 then
    (gs.zipIdx.map (fun e => flagBit (s.banks.any (fun b => b.1 / 256 == c && bankGroup (b.1 % 256) == e.1 &&
      (b.2.running.isSome || !b.2.queue.isEmpty))) e.2)).foldl (· + ·) 0 +
    flagBit ((s.stack stack).apErr.contains (2 * (channel % 4) + rank)) 4
  else if n = 74 then (s.stack stack).temp % 128
  else 0

/-- A read of a mode register: a read of register 73 clears AP_ERR (R174). -/
def State.readModeRegister (s : State) (c channel rank n : Nat) : Nat × State :=
  (s.modeRegister c channel rank n,
   if n = 73 then
     s.modStack (2 * c + channel / 4) (fun x => { x with apErr := x.apErr.filter (· != 2 * (channel % 4) + rank) })
   else s)

-- Boundaries (R193, R195).

/-- A segment boundary of a bank: the held accesses are served, then every owed refresh is issued (R193, R195). -/
def State.boundary (s : State) (key : Nat) : State :=
  let b := s.bank key
  let s := if b.held = 0 then s else s.maxCtr (.cirque (key / 256) 21) (s.now - b.heldAt)
  let s := s.event (some (key / 256)) 0x0D b.owed
  s.modBank key (fun b => { b with owed := 0, held := 0 })

/-- The running segment of a bank completes its current row operation and stops: what its units wrote stands, its results are lost (R204).
Row operations issue 24 ns apart (R179). -/
def State.stopBank (s : State) (key : Nat) (g : Segment) : State :=
  let c := key / 256
  let j := key % 256
  let u := s.runUnit c j { corr := [], abort := none } ((s.now - g.issued) / 24 + 1)
  (((s.keepUnit c j u).countRows c u.rowOps).modBank key (fun b => { b with running := none })).boundary key

/-- A bank outside Cairn mode, its queue gone; its refreshes go on. -/
def Bank.out (b : Bank) : Bank :=
  { Bank.idle with rowBuf := b.rowBuf, owed := b.owed, refDue := b.refDue, held := b.held, heldAt := b.heldAt }

/-- All groups of a cirque leave at once; segments stop and their results are lost (R204). -/
def State.exitCairn (s : State) (c : Nat) : State :=
  let s := s.banks.foldl (fun s e => match e.2.running with
    | some g => if e.1 / 256 = c then s.stopBank e.1 g else s
    | none => s) s
  { s with groups := s.groups.keep (fun k _ => k / 64 != c)
           banks := s.banks.mapVals (fun k b => if k / 256 = c then b.out else b) }

-- Starting segments (R177, R196).

/-- The scheduler's key of a request: class, deadline, admission (R157). -/
def State.schedKey (s : State) (slot : Nat) : Nat × Nat × Nat :=
  match s.reqs.get? slot with
  | some q => (q.prio, q.deadline, q.order)
  | none => (4, ctrMax, slot)

/-- Rank of keys, lower first. -/
def keyLt (a b : Nat × Nat × Nat) : Bool :=
  decide (a.1 < b.1) || (a.1 == b.1 && (decide (a.2.1 < b.2.1) || (a.2.1 == b.2.1 && decide (a.2.2 < b.2.2))))

/-- The best of some segments that wait on a bank, by its place in the queue and its key; of equals the first. -/
def State.bestSeg (s : State) (l : List Segment) : Option (Nat × (Nat × Nat × Nat)) :=
  l.zipIdx.foldl (fun best e =>
    let k := s.schedKey e.1.req
    match best with
    | none => some (e.2, k)
    | some (_, kb) => if keyLt k kb then some (e.2, k) else best) none

/-- The bank of a stack and the place in its queue of the segment that ranks first among those that can start: in mode, no segment running
(R157, R196). -/
def State.nextBank (s : State) (st : Nat) : Option (Nat × Nat) :=
  (s.banks.foldl (fun (best : Option ((Nat × Nat) × (Nat × Nat × Nat))) e =>
    let c := e.1 / 256
    let j := e.1 % 256
    if bankStack c j ≠ st || e.2.running.isSome || !s.apertureLive c j then best
    else
      match s.bestSeg e.2.queue, best with
      | none, _ => best
      | some (i, k), none => some ((e.1, i), k)
      | some (i, k), some (_, kb) => if keyLt k kb then some ((e.1, i), k) else best) none).map (·.1)

/-- The bytes of a segment control write (R177). -/
def controlBytes (k ridge : Nat) : List Byte := leBytes 1 k ++ leBytes 1 ridge ++ List.replicate 62 0#8

/-- The controller writes a segment to a bank's aperture: the query latch where the segment has one, segment control, the descriptors
(R175, R177). -/
def State.writeSegment (s : State) (c j : Nat) (g : Segment) : State :=
  let s := match g.latch with
    | some v => (s.apWrite c j 0 12 (leBytes 64 v)).apWrite c j 0 13 (leBytes 64 (v / 2 ^ 512))
    | none => s
  g.ops.foldl (fun s o => s.apWrite c j o.rowA o.op o.bytes) (s.apWrite c j 0 14 (controlBytes g.ops.length g.ridge))

/-- Start a segment of a bank's queue, by its place there; the tick is charged its full cost (R177, R196). -/
def State.startBank (s : State) (key i : Nat) : State :=
  match (s.bank key).queue[i]? with
  | none => s
  | some g =>
    let c := key / 256
    let j := key % 256
    let n : Nat := (g.ops.map CairnOp.cost).foldl (· + ·) 0
    ((s.writeSegment c j g).modBank key (fun b => { b with
      queue := b.queue.eraseIdx i
      running := some { g with issued := s.now } })).modStack (bankStack c j) (fun x =>
        { x with grant := x.grant - (n : Int), charged := x.charged + n })

/-- Start segments of a stack while the tick's grant is above 0 (R196). -/
def State.startSegments (fuel : Nat) (s : State) (st : Nat) : State :=
  match fuel with
  | 0 => s
  | fuel + 1 =>
    if (s.stack st).grant ≤ 0 || (s.stack st).hot then s
    else
      match s.nextBank st with
      | none => s
      | some k => State.startSegments fuel (s.startBank k.1 k.2) st

/-- Segments of a cirque's two stacks start. -/
def State.kickCirque (s : State) (c : Nat) : State := (s.startSegments 128 (2 * c)).startSegments 128 (2 * c + 1)

/-- Queue segments: bank key and segment. -/
def State.queueSegs (s : State) (l : List (Nat × Segment)) : State :=
  l.foldl (fun s e => s.modBank e.1 (fun b => { b with queue := b.queue ++ [e.2] })) s

/-- Segments of a request that have not ended. -/
def State.segsOf (s : State) (slot : Nat) : Nat :=
  s.banks.foldl (fun n e => n + (e.2.queue.filter (·.req == slot)).length +
    (match e.2.running with
      | some g => if g.req = slot then 1 else 0
      | none => 0)) 0

/-- An operation on one row of an internal holder (R189): EXP_TAG is that of its region. -/
def thinOp (op row skw tag : Nat) : CairnOp :=
  { op := op, rowA := row, rowB := 0, rowD := 0, bLatch := false, dLatch := false, predEn := false, predInv := false, skw := skw,
    qsel := 0, run := 1, gmask := 0x7F, shift := 0, thr := 0, tagq := 0, pmask := 0, pval := 0, expTag := tag, tagMask := 0xFFFF,
    newTag := tag, resv := false }

/-- Cut descriptors of one row operation each into segments of at most 64. -/
def cutOps (fuel : Nat) (ops : List CairnOp) : List (List CairnOp) :=
  match fuel with
  | 0 => []
  | fuel + 1 => if ops.isEmpty then [] else ops.take 64 :: cutOps fuel (ops.drop 64)

/-- The rows of descriptors of a bank, as a request keeps those it has no result of. -/
def rowsOf (key : Nat) (ops : List CairnOp) : List (Nat × Nat) := (ops.map (fun o => (key, o.rowA))).eraseDups

/-- Rows of the thin phase of a request go the logic-die way (R107, R198, R233): kept by the request, and counted as one event. -/
def State.thinFallback (s : State) (slot : Nat) (l : List (Nat × Nat)) : State :=
  match s.reqs.get? slot with
  | none => s
  | some q =>
    let s := if q.opcode = 0x28 then s.bump (.index q.ridge (q.desc.index % 16) 3) else s.bumpR q.ridge 14
    s.modReq slot (fun q => { q with list := q.list ++ l })

/-- The thin phase of a request in a cirque: segments for banks, given as bank, latch image and descriptors. Those of a stack at budget
factor 0 go the logic-die way (R198). -/
def State.thinRows (s : State) (slot c r : Nat) (l : List (Nat × Nat × List CairnOp)) : State :=
  let hot := l.filter (fun e => (s.stack (bankStack c e.1)).hot)
  let s := if hot.isEmpty then s else s.thinFallback slot (hot.flatMap (fun e => rowsOf (bankKey c e.1) e.2.2))
  let run := l.filter (fun e => !(s.stack (bankStack c e.1)).hot)
  if run.isEmpty then s
  else
    let s := s.holdGroups c slot (run.map (fun e => bankGroup e.1))
    (s.queueSegs (run.map (fun e =>
      (bankKey c e.1, { req := slot, ops := e.2.2, latch := some e.2.1, ridge := r, issued := s.now })))).kickCirque c

-- Scratch regions and holds (R200, R201).

/-- Cirque, row groups and whether the region is held, of a scratch region of the ridge. -/
def State.scratchOf (s : State) (r h : Nat) : Option (Nat × Nat × Bool) :=
  match s.regions.get? (regionKey r h) with
  | none => none
  | some g =>
    match g.kind with
    | .scratch c gs held => some (c, gs.length, held)
    | .composite _ _ _ _ => none
    | .lease => none
    | .completion _ => none
    | .query => none

/-- All 64 bank groups of a cirque are in Cairn mode. -/
def State.allInMode (s : State) (c : Nat) : Bool := (List.range 64).all (fun g => s.inMode c g)

def State.setHeld (s : State) (r h : Nat) (b : Bool) : State :=
  s.modRegion (regionKey r h) (fun g => { g with kind := match g.kind with
    | .scratch c gs _ => .scratch c gs b
    | .composite a e f x => .composite a e f x
    | .lease => .lease
    | .completion k => .completion k
    | .query => .query })

/-- CAIRN commands in flight on a region: they have not completed. -/
def State.cairnsOn (s : State) (r h : Nat) : Bool :=
  s.reqs.any (fun e => e.2.ridge == r && e.2.opcode == 0x30 && e.2.phase != .posted && e.2.region == h)

/-- A LEAVE that waits for a region's commands ends once none is in flight (R201). -/
def State.finishLeaves (s : State) (r h : Nat) : State :=
  if s.cairnsOn r h then s
  else (s.reqs.filter (fun e => e.2.ridge == r && e.2.opcode == 0x31 && e.2.phase == .engine && e.2.region == h && e.2.desc.fld 0x14 0 1 == 1)).foldl
    (fun s e => (s.releaseHolder (regionHolder r h)).complete e.1 .ok 0 0 0) s

/-- The checks of an ENTER. R201 gives no status for a handle that names no scratch region of the ridge; it is STATE_CONFLICT, as for a
CAIRN (DESIGN CHOICE, log entry 84). -/
def holdEnterChecks (s : State) (c : Cmd) : List (Bool × Status) :=
  [(match s.scratchOf c.ridge c.d.handle with
    | some (_, _, held) => !held
    | none => false, .stateConflict),
   (s.tagParams c.d false, .badParam)]

/-- The checks of a LEAVE; a handle without a scratch region as at `holdEnterChecks`. -/
def holdLeaveChecks (s : State) (c : Cmd) : List (Bool × Status) :=
  [(match s.scratchOf c.ridge c.d.handle with
    | some (_, _, held) => held
    | none => false, .stateConflict),
   (s.tagParams c.d false, .badParam)]

/-- CAIRN_HOLD, ENTER (R201): completes when all 64 bank groups are in mode. -/
def execCairnHoldEnter (t : Nat) (src : Src) (d : Desc) (s : State) : Host.Outcome State Fault Refusal :=
  s.command t src d [] holdLayout holdEnterChecks (fun s c =>
    match s.scratchOf c.ridge c.d.handle with
    | none => s
    | some (q, _, _) =>
      let (s, slot) := s.admitReq c .engine (fun x => { x with region := c.d.handle })
      let s := (s.setHeld c.ridge c.d.handle true).holdGroups q (regionHolder c.ridge c.d.handle) (List.range 64)
      if s.allInMode q then s.complete slot .ok 0 0 0 else s)

/-- CAIRN_HOLD, LEAVE (R201): the hold is released after the region's commands in flight. Whether the region counts as held while a LEAVE
waits no rule says: from the LEAVE's admission on it does not, so that a new CAIRN conflicts and a new ENTER passes (DESIGN CHOICE,
log entry 84). -/
def execCairnHoldLeave (t : Nat) (src : Src) (d : Desc) (s : State) : Host.Outcome State Fault Refusal :=
  s.command t src d [] holdLayout holdLeaveChecks (fun s c =>
    let (s, _) := s.admitReq c .engine (fun x => { x with region := c.d.handle })
    (s.setHeld c.ridge c.d.handle false).finishLeaves c.ridge c.d.handle)

/-- CSCR_CREATE (R200): its rows are FILLed with 0, a row operation each (R179), and take one write generation (R76). -/
def execCscrCreate (t : Nat) (h : MbxHdr) (cirque groups : Nat) (s : State) : Host.Outcome State Fault Refusal :=
  s.mbox t (.cscrCreate t h cirque groups) h 0x0038 .any (fun s => withRidge h s (fun r =>
    if groups < 1 || 1024 < groups || !(s.ridge r).p.cirques.contains cirque then .no s .invalidArg
    else if (s.ridge r).p.scratch = 0 then .no s .accessDenied
    else if (s.ridge r).state ≠ .opened then .no s .stateConflict
    else
      match s.findGroups cirque groups with
      | none => .no (s.bumpR r 3) .noPages
      | some gs =>
        match s.newRegion r (.scratch cirque gs false) (groups * 256 * rowBytes) with
        | none => .no s .noSpace
        | some (s, g) =>
          let (w, s) := s.claim [groupSlots cirque gs]
          .ok ((s.modRegion (regionKey r g) (fun x => { x with wgen := w })).countRows cirque (groups * 256)) [g]))

/-- CSCR_DESTROY (R200). -/
def execCscrDestroy (t : Nat) (h : MbxHdr) (region : Nat) (s : State) : Host.Outcome State Fault Refusal :=
  s.mbox t (.cscrDestroy t h region) h 0x0039 .any (fun s => withRidge h s (fun r =>
    match s.scratchOf r region with
    | none => .no s .invalidArg
    | some (_, _, held) =>
      if held || s.reqs.any (fun e => e.2.ridge == r && (e.2.opcode == 0x30 || e.2.opcode == 0x31) &&
          e.2.phase != .posted && e.2.region == region) then
        .no s .busy
      else .ok (s.endRegion r region) []))

-- CAIRN (R202, R203).

def cairnChecks (s : State) (c : Cmd) : List (Bool × Status) :=
  let o := c.d.crnDesc
  let g := s.scratchOf c.ridge c.d.handle
  let rows := match g with
    | some (_, n, _) => n
    | none => 0
  [(match g with
    | some (q, _, held) => held && s.allInMode q
    | none => false, .stateConflict),
   (decide (o.cost ≤ 64) && (!(o.op == 8 || o.op == 9) || decide (128 ≤ c.inl.length)), .badLength),
   (decide (o.op ≤ 9) && o.skw != 3 && decide (o.shift ≤ 6) && (!c.d.crnAll || c.d.crnBank == 0) &&
    o.rowsUsed.all (fun r => decide (r + o.run ≤ rows)) && s.tagParams c.d true && s.outParams c, .badParam)]

/-- The descriptors of an operation on region rows (R178, R180, R202): a run goes on while its bank rows follow each other, and is cut where
they do not (DESIGN CHOICE, log entry 84). -/
def CairnOp.cut (o : CairnOp) (gs : List Nat) : List CairnOp :=
  let goes (k : Nat) : Bool := o.rowsUsed.all (fun r => gs.getD (r + k) 0 == gs.getD (r + k - 1) 0 + 1)
  let runs := (List.range o.run).foldl (fun (l : List (Nat × Nat)) k => match l with
    | [] => [(k, 1)]
    | e :: rest => if goes k then (e.1, e.2 + 1) :: rest else (k, 1) :: l) []
  runs.reverse.map (fun e => { o with
    rowA := groupRow (gs.getD (o.rowA + e.1) 0)
    rowB := groupRow (gs.getD (o.rowB + e.1) 0)
    rowD := groupRow (gs.getD (o.rowD + e.1) 0)
    run := e.2 })

/-- The descriptors of a CAIRN: the node supplies EXP_TAG, TAG_MASK and NEW_TAG from the region's ridge and write generation (R202). The mask
covers both fields of a tag (DEDUCED, log entry 84). -/
def State.cairnOps (s : State) (c : Cmd) : List CairnOp :=
  match s.regions.get? (regionKey c.ridge c.d.handle) with
  | none => []
  | some g =>
    let tag := granuleTag g.ridge g.wgen
    match g.kind with
    | .scratch _ gs _ => { c.d.crnDesc with expTag := tag, tagMask := 0xFFFF, newTag := tag }.cut gs
    | .composite _ _ _ _ => []
    | .lease => []
    | .completion _ => []
    | .query => []

/-- CAIRN (R202): one segment in each named bank. -/
def execCairn (t : Nat) (src : Src) (d : Desc) (inl : List Byte) (s : State) : Host.Outcome State Fault Refusal :=
  s.command t src d inl cairnLayout cairnChecks (fun s c =>
    match s.scratchOf c.ridge c.d.handle with
    | none => s
    | some (q, _, _) =>
      let (s, slot) := s.admitReq c .engine (fun x => { x with region := c.d.handle })
      let banks := if c.d.crnAll then List.range 256 else [c.d.crnBank]
      let latch := if c.d.crnOp = 8 || c.d.crnOp = 9 then some (leNat (sliceBytes c.inl 0 128)) else none
      (s.queueSegs (banks.map (fun j =>
        (bankKey q j, { req := slot, ops := s.cairnOps c, latch := latch, ridge := c.ridge, issued := s.now })))).kickCirque q)

/-- The record of a CAIRN: status word and entries of each bank in ascending order (R203). `list` holds bank and length, in the order
the banks ended; `data` their bytes. -/
def cairnRecord (l : List (Nat × Nat)) (bs : List Byte) : List (Nat × List Byte) :=
  match l with
  | [] => []
  | e :: rest => (e.1, bs.take e.2) :: cairnRecord rest (bs.drop e.2)

/-- One bank of a CAIRN has ended: its status word and entries join the record, which leaves when all banks have ended. -/
def State.cairnEnded (s : State) (slot j : Nat) (bs : List Byte) (bad : Bool) : State :=
  let s := s.modReq slot (fun q => { q with
    list := q.list ++ [(j, bs.length)], data := q.data ++ bs
    final := if bad then .uncorrectable else q.final })
  match s.reqs.get? slot with
  | none => s
  | some q =>
    if s.segsOf slot ≠ 0 then s
    else
      let rec_ := (sortBy (fun a b => decide (a.1 ≤ b.1)) (cairnRecord q.list q.data)).flatMap (·.2)
      (s.deliverOut slot rec_).finishLeaves q.ridge q.region

/-- A CAIRN still queued on a stack whose budget factor is 0 is discarded at its deadline (R203). -/
def State.cairnDeadline (s : State) (slot : Nat) (q : Request) : State :=
  if s.banks.any (fun e => e.2.queue.any (·.req == slot) && (s.stack (bankStack (e.1 / 256) (e.1 % 256))).hot) then
    (s.complete slot .discarded 0 0 0).finishLeaves q.ridge q.region
  else s

-- SEGMENT_COMPLETE (R186 to R188).

/-- The ridge of a request, 31 where there is none. -/
def State.ridgeOf (s : State) (slot : Nat) : Nat := ((s.reqs.get? slot).map (·.ridge)).getD 31

/-- The record of an abort (R188, R420): bank row and column of the failing source. -/
def abortRec (c j r cause row col : Nat) : ErrRec :=
  { ErrRec.of (if cause = 2 then .misplaced else .uncorr) r (.stack (bankStack c j)) with
    loc0 := c + (8 * c + j % 8) * 16 + ((j / 8) % 2) * 2048 + (j / 16) * 4096 + row * 65536 + (if col < 8 then col else 0) * 2 ^ 32 }

/-- Corrections and aborts of a segment reach the counters and the health score (R186, R188, R208, R423). -/
def State.countSegment (s : State) (c j : Nat) (u : UnitRun) : State :=
  let comp : Comp := .stack (bankStack c j)
  let s := s.countRows c u.rowOps
  let s := if u.corr = 0 then s
    else (((s.bumpBy (.cirque c 17) u.corr).bumpBy (.cirque c 18) u.scrubs.length).bumpBy (.node 2048) u.corr).weigh comp u.corr false
  match u.fault with
  | none => s
  | some (_, cause, _, _) => if cause ≤ 2 then ((s.bumpC c 19).bumpN 2049).weigh comp 200 false else s.bumpC c 19

/-- The end of a segment for its request (R107, R188, R202, R233): a CAIRN gets the bank's status word and entries as the aperture reads
them; a thin phase whose unit aborted takes the logic-die way for the rows that gave no result. Without a request nothing follows. -/
def State.segmentDone (s : State) (c j : Nat) (g : Segment) (u : UnitRun) : State :=
  match s.reqs.get? g.req with
  | none => s
  | some q =>
    let fault := u.fault.bind (fun f => if f.2.1 ≤ 2 then some (abortRec c j q.ridge f.2.1 f.2.2.1 f.2.2.2) else none)
    if q.opcode = 0x30 then
      let s := match fault with
        | some e => s.failReq g.req .uncorrectable e
        | none => s
      let es := (List.range u.entries.length).flatMap (fun i => s.apRead c j (i / 16) (16 + i % 16))
      s.cairnEnded g.req j (s.apRead c j 0 15 ++ es) fault.isSome
    else
      match fault with
      | none => if u.fault.isSome then s.thinFallback g.req (rowsOf (bankKey c j) g.ops) else s
      | some e =>
        (s.report { e with tag := q.tag, opcode := q.opcode, handle := q.desc.handle }).thinFallback g.req
          (rowsOf (bankKey c j) (g.ops.drop u.opsDone))

/-- The running segment of a bank ends (R180 to R188): its unit's work stands, it is counted and traced, the bank comes to a boundary and its
request goes on. -/
def State.endSegment (s : State) (c j : Nat) (g : Segment) (met : SegMet) : State :=
  let key := bankKey c j
  let u := s.runUnit c j met 64
  let s := (s.keepUnit c j u).countSegment c j u
  let s := s.film 0x09 (.stack (bankStack c j)) (s.ridgeOf g.req)
    [j, (s.bank key).status.seq, u.rowOps, if u.fault.isSome then 3 else 2]
  let s := (s.modBank key (fun b => { b with running := none })).boundary key
  (s.segmentDone c j g u).kickCirque c

/-- The controller reads NOT_IN_MODE for a segment it started (R176): a controller fault, which ends a CAIRN with STATE_CONFLICT and sends a
thin phase the logic-die way. -/
def State.notInMode (s : State) (c j : Nat) (g : Segment) : State :=
  let key := bankKey c j
  let s := ((s.bumpC c 25).modBank key (fun b => { b with running := none })).boundary key
  match s.reqs.get? g.req with
  | none => s
  | some q =>
    if q.opcode = 0x30 then ((s.countSC q.ridge q.opcode).complete g.req .stateConflict 0 0 0).finishLeaves q.ridge q.region
    else s.thinFallback g.req (rowsOf key g.ops)

/-- SEGMENT_COMPLETE: the running segment of a bank ends, and the controller reads its status word (R188); `met` is what its checks met. -/
def execSegmentComplete (t : Nat) (cirque bank : Nat) (met : SegMet) (s : State) : Host.Outcome State Fault Refusal :=
  let s := s.advance t
  if s.frozen then .next s
  else
    match (s.bank (bankKey cirque bank)).running with
    | none => .next s
    | some g => .next (if s.apertureLive cirque bank then s.endSegment cirque bank g met else s.notInMode cirque bank g)

/-- MODE_ENTRY_COMPLETE: the group's aperture is live (R172); a CAIRN_HOLD ENTER ends with the last group. -/
def execModeEntryComplete (t : Nat) (cirque group : Nat) (s : State) : Host.Outcome State Fault Refusal :=
  let s := s.advance t
  if s.frozen || (s.group (groupKey cirque group)).entering.isNone then .next s
  else
    let s := (s.modGroup (groupKey cirque group) (fun g => { g with mode := true, entering := none })).resetUnits cirque group 0
    let s := s.kickCirque cirque
    if s.allInMode cirque then
      .next ((s.reqs.filter (fun e => e.2.opcode == 0x31 && e.2.phase == .engine && e.2.desc.fld 0x14 0 1 == 0 &&
        (match s.scratchOf e.2.ridge e.2.region with
          | some (c, _, _) => c == cirque
          | none => false))).foldl (fun s e => s.complete e.1 .ok 0 0 0) s)
    else .next s

/-- LINGER_EXPIRY: a group without holders or segments leaves the mode (R173). -/
def execLingerExpiry (t : Nat) (cirque group : Nat) (s : State) : Host.Outcome State Fault Refusal :=
  let s := s.advance t
  let g := s.group (groupKey cirque group)
  if s.frozen || !g.holders.isEmpty || s.groupBusy cirque group then .next s
  else
    match g.lingerAt with
    | none => .next s
    | some at_ => .next (if at_ ≤ s.now then s.leaveMode cirque group else s)

-- Ticks (R196 to R198) and refresh (R192 to R194).

/-- Refresh factor and the budget scaled by temperature (R198). The rule gives no rounding for three quarters or half of a budget; both round
down (DESIGN CHOICE, log entry 84). -/
def tempBand (celsius budget : Nat) : Nat × Nat :=
  if celsius ≤ 85 then (1, budget) else if celsius ≤ 95 then (2, budget * 3 / 4)
  else if celsius ≤ 100 then (4, budget / 2) else (4, 0)

/-- A stack's tick: activity, throttle, band, and the new grant with what was owed. -/
def Stack.tick (x : Stack) (cfg : CairnCfg) (us : Nat) : Stack :=
  let history := x.charged :: x.history.take 7
  let sum := history.foldl (· + ·) 0
  let throttled := if x.throttled then decide (7 * cfg.actTh < sum) else decide (8 * cfg.actTh < sum)
  let (factor, b) := tempBand x.temp cfg.budget
  let eff := if throttled && decide (cfg.actTh < b) then cfg.actTh + (b - cfg.actTh) / 2 else b
  { x with
           history := history, charged := 0, throttled := throttled, refFactor := factor, hot := decide (100 < x.temp),
           budget := eff, grant := (eff : Int) + min x.grant 0, linger := cfg.linger, lastTick := us }

/-- The refresh multiplier of a stack (R192): the temperature factor, twice while throttled. -/
def Stack.refMult (x : Stack) : Nat := x.refFactor * (if x.throttled then 2 else 1)

/-- The rows a stack's controller fills in a tick under step 7 of R347: what its grant leaves, at background priority. -/
def State.zeroRows (s : State) (stack : Nat) : State :=
  let left := (s.stack stack).grant.toNat
  match s.ridges.find? (fun e => e.2.state == .closing && e.2.key.isNone && e.2.p.cirques.contains (stack / 2)) with
  | none => s
  | some (r, g) =>
    let n := min left ((g.rowsLeft.get? stack).getD 0)
    ((s.modStack stack (fun x => { x with grant := x.grant - (n : Int), charged := x.charged + n })).countRows (stack / 2) n).modRidge r
      (fun g => { g with rowsLeft := g.rowsLeft.adjust stack (fun k => k - n) })

/-- Thin-phase segments that wait on a stack whose budget factor has become 0 go the logic-die way (R198, R233); CAIRN commands wait
(R203). -/
def State.hotFallback (s : State) (stack : Nat) : State :=
  let mine := s.banks.filter (fun e => bankStack (e.1 / 256) (e.1 % 256) == stack)
  let thin (g : Segment) : Bool := match s.reqs.get? g.req with
    | some q => q.phase == .thin
    | none => false
  let segs := mine.flatMap (fun e => (e.2.queue.filter thin).map (fun g => (g.req, rowsOf e.1 g.ops)))
  let s := { s with banks := s.banks.mapVals (fun k b =>
    if bankStack (k / 256) (k % 256) = stack then { b with queue := b.queue.filter (fun g => !thin g) } else b) }
  ((segs.map (·.1)).eraseDups).foldl (fun s slot =>
    s.thinFallback slot ((segs.filter (fun e => e.1 == slot)).flatMap (·.2))) s

/-- CAIRN_TICK (R196 to R198): once in each whole microsecond of network time. -/
def execCairnTick (t : Nat) (stack : Nat) (s : State) : Host.Outcome State Fault Refusal :=
  let s := s.advance t
  let us := s.now / 1000
  if s.frozen || us ≤ (s.stack stack).lastTick then .next s
  else
    let c := stack / 2
    let cfg := (s.cairnCfg.get? c).getD { budget := 560, actTh := 280, linger := 5 }
    let s := s.modStack stack (fun x => x.tick cfg us)
    let s := if (s.stack stack).throttled then s.bumpC c 23 else s
    let s := if (s.stack stack).hot then (s.bumpC c 24).hotFallback stack else s
    .next ((s.startSegments 128 stack).zeroRows stack)

/-- The interval between refreshes of a bank of a stack, in 1/32 ns (R192): 3,906.25 ns at multiplier 1. -/
def Stack.refInterval (x : Stack) : Nat := 125000 / x.refMult

/-- REFRESH_DUE: a refresh of a bank comes due, once in each interval of its stack (R192); the next interval follows the multiplier now in
force. In idle time it is issued at once with those owed; during a segment it is owed, or, as a ninth, preempts the segment, which
serves the held accesses and issues every owed refresh (R193, R194). -/
def execRefreshDue (t : Nat) (cirque bank : Nat) (s : State) : Host.Outcome State Fault Refusal :=
  let s := s.advance t
  let key := bankKey cirque bank
  let b := s.bank key
  if s.frozen || 32 * s.now < b.refDue then .next s
  else
    let due := (if b.refDue = 0 then 32 * s.now else b.refDue) + (s.stack (bankStack cirque bank)).refInterval
    let s := s.modBank key (fun b => { b with owed := b.owed + 1, refDue := due })
    if b.running.isNone then .next (s.boundary key)
    else if b.owed < 8 then .next s
    else .next ((s.bumpC cirque 22).boundary key)

-- The patrol (R416).

/-- Bank j of the b-th bank of a stack in ascending order. -/
def patrolBank (stack b : Nat) : Nat := 8 * (b / 4) + 4 * (stack % 2) + b % 4

/-- PATROL_READ: the stack's next row is read, and corrected where it can be; rows of a cirque being zeroed are skipped. A page
granule known to be uncorrectable is met as such. -/
def execPatrolRead (t : Nat) (stack : Nat) (err : MemErr) (s : State) : Host.Outcome State Fault Refusal :=
  let s := s.advance t
  if s.frozen then .next s
  else
    let n := (s.stack stack).patrolRow
    let c := stack / 2
    let row := n % 65536
    let j := patrolBank stack (n / 65536)
    let s := s.modStack stack (fun x => { x with patrolRow := (n + 1) % 8388608 })
    if s.zeroing c then .next s
    else
      let s := s.bumpN 2054
      let hit := s.pages.find? (fun e => slotCirque e.1 == c && (8192 + e.1 % slotsPerCirque) / 7 == row && e.2.bad.contains j)
      let comp : Comp := .stack stack
      match hit with
      | some (key, p) =>
        let inj := p.injected.contains j
        let s := (s.bumpN 2049).weigh comp 200 inj
        .next (s.report { ErrRec.of .uncorr p.ridge comp with injected := inj, loc0 := locOf key j 0, layer := p.layer,
                                                              page := p.pageNo, noPage := false })
      | none =>
        let loc := c + (8 * c + j % 8) * 16 + ((j / 8) % 2) * 2048 + (j / 16) * 4096 + row * 65536
        match err with
        | .none => .next s
        | .corrected => .next ((s.bumpN 2048).weigh comp 1 false)
        | .uncorrectable => .next (((s.bumpN 2049).weigh comp 200 false).report { ErrRec.of .uncorr 31 comp with loc0 := loc })
        | .misplaced => .next (((s.bumpN 2049).weigh comp 200 false).report { ErrRec.of .misplaced 31 comp with loc0 := loc })

end Sys2Proof.Machine
end

