-- ==== Sys2Proof/Machine/Sched.lean ====
section
/-! DEFINITION. Cells and the step scheduler (R147 to R165), the SRAM frames (R83 to R90), cell accounting (R454, R455), shadow
runs (R428 to R432), and the commit of gradients (R134).
Log entries 3, 27, 28, 29, 31. -/

namespace Sys2Proof.Machine

open Sys2Proof

-- Cell accounting (R454, R455) and CELL_NS (R449).

/-- The stall reason of a cell in the order of R454; 0 when it is not stalled. -/
def Cell.stall (c : Cell) : Nat :=
  if c.spilling then 2 else if c.held.isSome then 4 else if c.item.isSome && !c.fed then (if c.preempting then 3 else 7) else 0

/-- The cell holds an item, a partial or a spill in progress. -/
def Cell.works (c : Cell) : Bool := c.item.isSome || c.held.isSome || c.spilling

/-- The run is a shadow run (R429). -/
def Cell.shadows (c : Cell) : Bool :=
  match c.item with
  | some i => decide (2 ≤ i.run)
  | none => false

/-- The part of some cycles of a cell that an open wait takes (log entry 27). -/
def openWait (kind c e n t0 t1 : Nat) : Nat := Config.openCount kind (75 * c + e) t0 t1 % (n + 1)

/-- Cycles of issue of a cell, after its throttled ones: the waits for a Cairn segment, for request context, for tiles and for a mesh
grant stall it, and no rule says how long; the rest is BUSY (R454). An item without its tiles waits for them when nothing else does. -/
def State.chargeOpen (s : State) (c e n t0 : Nat) (fed shadows : Bool) : State :=
  let at_ (i : Nat) : Ctr := .cirque c (128 + 16 * e + i)
  let crn := openWait 2 c e n t0 s.now
  let ctx := openWait 3 c e (n - crn) t0 s.now
  let crd := if fed then openWait 4 c e (n - crn - ctx) t0 s.now else 0
  let rest := n - crn - ctx - crd
  let s := ((s.bumpOpen (at_ 7) crn).bumpOpen (at_ 8) ctx).bumpOpen (at_ 10) crd
  if fed then
    let s := (s.bumpOpen (at_ 0) rest).bumpOpen (at_ 1) (crn + ctx + crd)
    if shadows then s.bumpOpen (at_ 12) rest else s
  else (s.bumpOpen (at_ 1) n).bumpOpen (at_ 9) rest

/-- Charge n cycles of a cell to its accounting block. Gated cycles of issue are THROTTLED stalls of an item (R167, R454). -/
def State.chargeCycles (s : State) (c e n : Nat) (x : Cell) (gated : Bool) : State :=
  let at_ (i : Nat) : Ctr := .cirque c (128 + 16 * e + i)
  let thr := n * (16 - s.sns.issueK) / 16
  if gated then s.bumpBy (at_ 11) n
  else if !x.works then s.bumpBy (at_ 2) n
  else if n = 0 then s
  else
    let s := (s.bumpBy (at_ 1) thr).bumpBy (at_ 3) thr
    if x.stall = 0 || x.stall = 7 then s.chargeOpen c e (n - thr) x.since (decide (x.stall = 0)) x.shadows
    else (s.bumpBy (at_ 1) (n - thr)).bumpBy (at_ (x.stall + 2)) (n - thr)

/-- Charge a cell up to now, and its ridge's CELL_NS. -/
def State.charge (s : State) (c e : Nat) (gated : Bool) : State :=
  let x := (s.cirque c).cell e
  let s := s.chargeCycles c e (cyclesIn x.since s.now) x gated
  let s := if x.works && !gated then
      match s.ownerOf c with
      | some r => s.modRidge r (fun g => { g with meter := { g.meter with cell := g.meter.cell + (s.now - x.since) } })
      | none => s
    else s
  s.modCell c e (fun x => { x with since := s.now })

/-- Charge every cell of a cirque up to now. -/
def State.chargeCirque (s : State) (c : Nat) : State :=
  (List.range 75).foldl (fun s e => s.charge c e ((s.cirque c).gated)) s

/-- Charge every cell of the node; `gated` when their clocks have not run (R455). -/
def State.chargeAll (s : State) (gated : Bool) : State :=
  (List.range 16).foldl (fun s c => (List.range 75).foldl (fun s e => s.charge c e (gated || (s.cirque c).gated)) s) s

/-- Change a cell: its time up to now is charged to what it did, and a change of stall reason is recorded (R459). -/
def State.onCell (s : State) (c e : Nat) (f : Cell → Cell) : State :=
  let before := ((s.cirque c).cell e).stall
  let s := ((s.charge c e (s.cirque c).gated).modCell c e f).modCirque c (fun q => { q with idleSince := s.now })
  let after := ((s.cirque c).cell e).stall
  if before = after then s else s.film 0x07 (.cell (75 * c + e)) ((s.ownerOf c).getD 31) [after]

-- Frames (R83 to R89).

/-- The set of a page in a slice: by its holding cirque and slot (R83). -/
def frameSet (key : Nat) : Nat := (key % slotsPerCirque + 7 * slotCirque key) % 60

/-- The key of a way of a set of slice d. -/
def frameKey (d set way : Nat) : Nat := (d * 60 + set) * 16 + way

/-- A fill of a frame of slice d with a page is in progress. -/
def State.filling (s : State) (d key : Nat) : Bool := (s.cirque d).fills.any (fun e => e.1 == key && e.2.1 != .stream)

/-- A fill of a page is in progress in a cirque (R86). -/
def State.fillIn (s : State) (d key : Nat) : Bool := (s.cirque d).fills.any (fun e => e.1 == key)

/-- The frame of slice d that holds a page, or that is being filled with it. -/
def State.frameAt (s : State) (d key : Nat) : Option Nat :=
  (s.frames.find? (fun e => e.1 / 960 == d && e.2.slot == key)).map (·.1)

/-- The page slot an item reads. -/
def State.itemSlot (s : State) (i : Item) : Option Nat :=
  match s.reqs.get? i.req with
  | none => none
  | some q => if q.opcode = 0x28 then none else (q.pages.find? (fun p => p.1 == i.page)).map (·.2)

/-- Some cell of a cirque reads a page. -/
def State.cellReads (s : State) (d key : Nat) : Bool :=
  (s.cirque d).cells.any (fun e => match e.2.item with
    | some i => s.itemSlot i == some key
    | none => false)

/-- A way of a set can be replaced, its reference bit apart (R88). -/
def State.wayFree (s : State) (d set way : Nat) : Bool :=
  match s.frames.get? (frameKey d set way) with
  | none => true
  | some f =>
    (match f.pinTo with
      | some t => decide (t < s.now)
      | none => true) && !s.cellReads d f.slot && !s.filling d f.slot

/-- The CLOCK hand over a set (R88): the way it stops at, with the reference bits it has cleared. R88 speaks of frames: a way that holds
none is taken when the hand reaches it, and not before (DESIGN CHOICE, log entry 29). -/
def State.clock (fuel : Nat) (s : State) (d set : Nat) : State × Option Nat :=
  match fuel with
  | 0 => (s, none)
  | fuel + 1 =>
    let h := (s.hands.get? (d * 60 + set)).getD 0
    let s := { s with hands := s.hands.set (d * 60 + set) ((h + 1) % 16) }
    let k := frameKey d set h
    let ref := match s.frames.get? k with
      | some f => f.refBit
      | none => false
    if s.wayFree d set h && !ref then (s, some h)
    else State.clock fuel { s with frames := s.frames.adjust k (fun f => { f with refBit := false }) } d set

/-- An injection meets the write of a frame (R433): one bit is corrected at the read and counted; two make the frame bad. The
weights of R423 take nothing of it (R434). -/
def State.hitFrame (s : State) (d set w : Nat) : State × Bool :=
  let pick (double : Bool) (t : InjTarget) : Bool := match t with
    | .checkFrame b c st wy _ => b == double && c == d && st == set && wy == w
    | .checkDram _ _ _ _ _ _ => false
    | .checkLocal _ _ _ _ => false
    | .pktDropBreakout _ => false
    | .pktDropConn _ => false
    | .ctxEvict _ => false
    | .cellStall _ _ _ => false
    | .linkRetrain _ => false
  match s.fire (pick true) with
  | some s => (s, true)
  | none => match s.fire (pick false) with
    | some s => (s.bumpN 2050, false)
    | none => (s, false)

/-- An injection meets the write of a cell's local store (R433). -/
def State.hitLocal (s : State) (c e : Nat) : State :=
  let pick (double : Bool) (t : InjTarget) : Bool := match t with
    | .checkLocal b q k _ => b == double && q == c && k == e
    | .checkDram _ _ _ _ _ _ => false
    | .checkFrame _ _ _ _ _ => false
    | .pktDropBreakout _ => false
    | .pktDropConn _ => false
    | .ctxEvict _ => false
    | .cellStall _ _ _ => false
    | .linkRetrain _ => false
  match s.fire (pick true) with
  | some s => s.modCell c e (fun x => { x with bad := true })
  | none => match s.fire (pick false) with
    | some s => s.bumpN 2052
    | none => s

/-- Start a fill of a page into a victim of its set, none when the set has none (R86, R88). -/
def State.startFrame (s : State) (d key : Nat) (kind : FillKind) : State × Bool :=
  let set := frameSet key
  match s.clock 32 d set with
  | (s, none) => (s, false)
  | (s, some w) =>
    let s := if (s.frames.get? (frameKey d set w)).isSome then s.event (some d) 0x08 1 else s
    let (s, bad) := s.hitFrame d set w
    ({ s with frames := s.frames.set (frameKey d set w)
                { slot := key, refBit := false, pinTo := none, bad := bad, refill := false, tiles := [] } }.modCirque d
       (fun q => { q with fills := q.fills ++ [(key, kind, s.now)] }), true)

/-- The cirque an item of a page runs in (R155). Where PREFETCHes to two targets left frames of the page in two other slices, the first of the
ridge's cirques in ascending order: R155 names one target (DESIGN CHOICE, log entry 79). -/
def State.runCirque (s : State) (r key : Nat) : Nat :=
  let h := slotCirque key
  if (s.frameAt h key).isSome then h
  else ((s.ridge r).p.cirques.find? (fun d => (s.frameAt d key).isSome)).getD h

-- Ready items (R156, R157).

/-- A rank of R157: class, deadline, admission, page, head, block, run. -/
def itemLt (s : State) (a b : Item) : Bool :=
  let ka := s.schedKey a.req
  let kb := s.schedKey b.req
  keyLt ka kb || (ka == kb && (decide (a.page < b.page) || (a.page == b.page && (decide (a.head < b.head) ||
    (a.head == b.head && (decide (a.block < b.block) || (a.block == b.block && decide (a.run < b.run))))))))

/-- The item of a list that ranks first. -/
def firstItem (s : State) (l : List Item) : Option Item :=
  l.foldl (fun b i => match b with
    | none => some i
    | some j => if itemLt s i j then some i else some j) none

/-- Cirques that may run the items of a request, and the one of an item: by its page, or, for a QUERY, named by the item. -/
def State.cirqueOfItem (s : State) (q : Request) (i : Item) : Nat :=
  if q.opcode = 0x28 then i.page
  else match (q.pages.find? (fun p => p.1 == i.page)).map (·.2) with
    | some key => s.runCirque q.ridge key
    | none => 0

/-- An item is selected for shadow execution: the request's SHADOW bit, or a draw below the ridge's fraction (R428). -/
def State.drawShadow (s : State) (q : Request) : Bool × State :=
  if q.opcode = 0x28 then (false, s)
  else if q.desc.shadow then (true, s)
  else
    let f := (s.ridge q.ridge).shadow
    if f = 0 then (false, s)
    else
      let (d, s) := s.draw
      (decide (d.toNat % 1024 < f), s)

/-- Create an item in its cirque, with its shadow run when it is selected (R156, R428, R429): what finds no room in the ready list is to be
created later. A shadow run that waited so is created as it is. -/
def State.createItem (s : State) (q : Request) (i : Item) : State × List Item :=
  let c := s.cirqueOfItem q i
  let put (s : State) (i : Item) : State := s.modCirque c (fun x => { x with ready := x.ready ++ [i] })
  if 8192 ≤ (s.cirque c).ready.length then (s, [i])
  else if i.run ≠ 1 then (put s i, [])
  else
    let (sh, s) := s.drawShadow q
    let s := put s i
    if !sh then (s, [])
    else
      let s := ((s.bumpN 2055).event (some c) 0x16 1).modReq i.req (fun q => { q with
        shadowed := q.shadowed ++ [(i.page, i.head, i.block)] })
      if 8192 ≤ (s.cirque c).ready.length then (s, [{ i with run := 2 }]) else (put s { i with run := 2 }, [])

/-- Create what fits of a request's items: at most 8,192 ready in each cirque (R156). -/
def State.topUp (s : State) (slot : Nat) : State :=
  match s.reqs.get? slot with
  | none => s
  | some q =>
    let (s, rest) := q.todo.foldl (fun (r : State × List Item) i =>
      let (s, left) := r.1.createItem q i
      (s, r.2 ++ left)) (s, [])
    s.modReq slot (fun q => { q with todo := rest })

/-- Every request that has items to create creates what fits, in admission order (R156, log entry 80). -/
def State.topUpAll (s : State) : State :=
  (sortBy (fun a b => decide (a.2.order ≤ b.2.order)) (s.reqs.filter (fun e => !e.2.todo.isEmpty))).foldl (fun s e => s.topUp e.1) s

-- Preemption (R159 to R162).

/-- A cell that can take an item: nothing in it, in service, not stalled by an injection. -/
def Cell.idleNow (x : Cell) (now : Nat) : Bool := !x.works && !x.quarantined && decide (x.stallTo ≤ now)

/-- Some cell of a cirque is idle. -/
def State.someIdle (s : State) (c : Nat) : Bool := (List.range 75).any (fun e => ((s.cirque c).cell e).idleNow s.now)

/-- What a running strand is: its item, or the one whose partial it holds. -/
def Cell.strand (x : Cell) : Option Item :=
  match x.item with
  | some i => some i
  | none => x.held.map (·.1)

/-- A cell in service that neither an injected stall nor an earlier run or failure keeps from an item (R155, R417, R429). -/
def State.mayRun (s : State) (c e : Nat) (i : Item) : Bool :=
  let x := (s.cirque c).cell e
  !x.quarantined && decide (x.stallTo ≤ s.now) && !i.avoid.contains e &&
  (match s.reqs.get? i.req with
    | some q => !q.runs.any (fun r => r.page == i.page && r.head == i.head && r.block == i.block && r.cell == e)
    | none => true)

/-- The running strand to mark for an item: lowest class, then latest deadline, then latest admission (R160); cells that may not run the
item, or without a free spill slot, are passed over. -/
def State.victimCell (s : State) (c : Nat) (i : Item) : Option Nat :=
  let cls := (s.schedKey i.req).1
  ((List.range 75).foldl (fun (b : Option (Nat × (Nat × Nat × Nat))) e =>
    let x := (s.cirque c).cell e
    match x.strand with
    | none => b
    | some j =>
      let k := s.schedKey j.req
      if k.1 ≤ cls || x.mark.isSome || x.spilling || decide (128 ≤ x.spills.length) || !s.mayRun c e i then b
      else match b with
        | none => some (e, k)
        | some (_, kb) => if keyLt kb k then some (e, k) else b) none).map (·.1)

/-- A candidate's spill slots are all in use (R165). -/
def State.spillsFull (s : State) (c : Nat) (i : Item) : Bool :=
  (List.range 75).any (fun e =>
    let x := (s.cirque c).cell e
    match x.strand with
    | none => false
    | some j => decide ((s.schedKey i.req).1 < (s.schedKey j.req).1) && x.mark.isNone && !x.spilling && decide (128 ≤ x.spills.length))

/-- Two items of one strand: request, KV head, pair block and run (R157). -/
def Item.sameStrand (i j : Item) : Bool := i.req == j.req && i.head == j.head && i.block == j.block && i.run == j.run

/-- The next page of a strand among the ready items: the lowest after its last one. Where the immediately following page's item is not ready,
since another cell has it, that is a later page of the same request, head and block (R157; DESIGN CHOICE, log entry 81). -/
def State.strandRest (s : State) (c : Nat) (i : Item) : Option Item :=
  firstItem s ((s.cirque c).ready.filter (fun j => j.sameStrand i && decide (i.page < j.page)))

/-- Stop a marked cell: the spill of its strand's record begins, with the page that is next (R159, R162). -/
def State.stopCell (s : State) (c e : Nat) (i : Item) : State :=
  let rest := s.strandRest c i
  s.onCell c e (fun x => { x with
    spilling := true, spills := x.spills ++ [{ item := rest.getD i, unread := rest.isSome, held := none }] })

/-- Mark one strand for each ready item of a higher class while no cell is idle (R160); a strand that holds a partial stops at
once (R164). The item that caused a mark waits for its cell. -/
def State.markFor (fuel : Nat) (s : State) (c : Nat) (items : List Item) : State :=
  match fuel with
  | 0 => s
  | fuel + 1 =>
    match firstItem s items with
    | none => s
    | some i =>
      let rest := items.filter (fun j => j != i)
      match s.victimCell c i with
      | none =>
        let s := if s.spillsFull c i && !(s.cirque c).withheld.contains i then
            (s.bumpC c 2).modCirque c (fun q => { q with withheld := q.withheld ++ [i] }) else s
        State.markFor fuel s c rest
      | some e =>
        let s := (s.modCirque c (fun q => { q with ready := q.ready.filter (fun j => j != i)
                                                   withheld := q.withheld.filter (fun j => j != i) })).modCell c e (fun x => { x with mark := some i })
        let s := match ((s.cirque c).cell e).held with
          | some h => s.stopCell c e h.1
          | none => s
        State.markFor fuel s c rest

def State.preempt (s : State) (c : Nat) : State :=
  let l := (s.cirque c).ready
  if l.isEmpty || s.someIdle c then s else s.markFor l.length c l

-- Access to a page (R85, R86) and the prefetcher (R87).

/-- The item of a cell has its inputs. -/
def State.feed (s : State) (c e : Nat) : State := s.onCell c e (fun x => { x with fed := true })

/-- Give up what is left of a request that has failed: it finishes with its status. -/
def State.abandon (s : State) (slot : Nat) : State :=
  (s.dropWork slot).modReq slot (fun q => { q with todo := [], runs := [] })

/-- A stream of a page into the cells of a cirque begins (R86). -/
def State.startStream (s : State) (c key : Nat) : State :=
  s.modCirque c (fun x => { x with fills := x.fills ++ [(key, .stream, s.now)] })

/-- An uncorrectable word of a frame that requests read (R90): counted, weighed, and the frame is invalid. A first copy is filled again
once; the error of the second copy is reported, and the proofs of the requests are withheld. -/
def State.frameBad (s : State) (c k key r : Nat) (f : Frame) (slots : List Nat) : State :=
  let e : ErrRec := { ErrRec.of .uncorr r (.slice c) with injected := true }
  let s := (s.bumpN 2051).weigh (.cirque c) 200 true
  let s := { s with frames := s.frames.erase k }
  if f.refill then slots.foldl (fun s slot => (s.failReq slot .uncorrectable e).abandon slot) s
  else
    match ((s.bumpR r 7).report e).startFrame c key .frame with
    | (s, true) => { s with frames := s.frames.mapVals (fun k f => if k / 960 = c ∧ f.slot = key then { f with refill := true } else f) }
    | (s, false) => s.startStream c key

/-- An item joins a fill in progress, unless it is a stream whose payload is being read: then it waits for its end. How long after its
start that read begins no rule says (R253, log entry 35). -/
def State.joinFill (s : State) (c e key : Nat) : State :=
  match (s.cirque c).fills.find? (fun f => f.1 == key) with
  | some (_, .stream, at_) =>
    if s.now ≤ at_ + Config.openCount 8 c key at_ then s else s.modCell c e (fun x => { x with late := true })
  | _ => s

/-- A cell's item takes R86: a frame, a fill in progress, a frame fill, or a stream. -/
def State.access (s : State) (c e : Nat) (i : Item) : State :=
  match s.reqs.get? i.req, s.itemSlot i with
  | some q, some key =>
    match s.pages.get? key with
    | none => s.feed c e
    | some p =>
      let fresh (s : State) : State :=
        if s.fillIn c key then s.joinFill c e key
        else if p.pstate ≠ .opened && q.desc.fillFrame then
          match s.startFrame c key .frame with
          | (s, true) => s
          | (s, false) => s.startStream c key
        else s.startStream c key
      match s.frameAt c key with
      | none => fresh s
      | some k =>
        match s.frames.get? k with
        | none => fresh s
        | some f =>
          if s.filling c key then fresh s
          else if f.bad then s.frameBad c k key q.ridge f [i.req]
          else ({ s with frames := s.frames.adjust k (fun f => { f with refBit := true }) }.event (some c) 0x03 1).feed c e
  | _, _ => s.feed c e

/-- Pages of a request not yet wholly read: those with items left. -/
def State.pagesLeft (s : State) (slot : Nat) : List Nat := (s.itemsOf slot).map (·.page)

/-- Fill frames for up to PF_DEPTH pages beyond the lowest unfinished one (R87). -/
def State.prefetchAhead (s : State) (slot : Nat) : State :=
  match s.reqs.get? slot with
  | none => s
  | some q =>
    if q.opcode = 0x28 || q.phase ≠ .dense then s
    else
      let left := s.pagesLeft slot
      match left with
      | [] => s
      | x :: rest =>
        let low := rest.foldl min x
        let ahead := (q.chosen.filter (fun p => decide (low < p))).take (s.ridge q.ridge).p.depth
        ahead.foldl (fun s no =>
          match (q.pages.find? (fun p => p.1 == no)).map (·.2) with
          | none => s
          | some key =>
            let d := s.runCirque q.ridge key
            let skip := match s.pages.get? key with
              | some p => p.pstate == .opened
              | none => true
            if skip || (s.frameAt d key).isSome || s.fillIn d key then s
            else match s.startFrame d key .prefetch with
              | (s, true) => s
              | (s, false) => s.event (some d) 0x07 1) s

-- Dispatch (R155, R157).

/-- A cell may take an item now (R155). -/
def State.eligible (s : State) (c e : Nat) (i : Item) : Bool := ((s.cirque c).cell e).idleNow s.now && s.mayRun c e i

/-- The strand record of an item's strand, wherever it is spilled in its cirque, is read: its slot is free once no partial is in it
(R163). -/
def Cell.readRecord (x : Cell) (i : Item) : Cell :=
  let l := x.spills.map (fun p => if p.item.sameStrand i then { p with unread := false } else p)
  { x with spills := l.filter (fun p => p.unread || p.held.isSome) }

/-- Put an item in a cell: its strand record, if one is spilled in the cirque, is read (R163). -/
def State.takeItem (s : State) (c e : Nat) (i : Item) (fresh : Bool) : State :=
  let s := s.modCirque c (fun q => { q with
    ready := q.ready.filter (fun j => j != i)
    withheld := q.withheld.filter (fun j => j != i)
    cells := q.cells.mapVals (fun _ x => x.readRecord i) })
  let r := match s.reqs.get? i.req with
    | some q => q.ridge
    | none => 31
  let s := s.onCell c e (fun x => { x with
    item := some i, fed := false, preempting := x.mark == some i, mark := none, spilling := false, late := false, buffer := none })
  let s := s.event (some c) 0x01 1
  let s := if fresh then s.event (some c) 0x02 1 else s
  let s := s.film 0x06 (.cell (75 * c + e)) r [0, i.req, i.page, i.head]
  let s := match s.reqs.get? i.req with
    | some q => if q.opcode = 0x20 && !q.pagesRead.contains i.page then
        (s.bumpR q.ridge 12).modReq i.req (fun q => { q with pagesRead := q.pagesRead ++ [i.page] }) else s
    | none => s
  (((s.hitLocal c e).access c e i).prefetchAhead i.req).topUpAll

/-- The item that caused a cell's mark takes the cell, where it may run there; else it is ready again (R155, R162). -/
def State.giveMark (s : State) (c e : Nat) : State :=
  match ((s.cirque c).cell e).mark with
  | none => s
  | some m =>
    if s.mayRun c e m then s.takeItem c e m true
    else (s.onCell c e (fun x => { x with mark := none })).modCirque c (fun q => { q with ready := q.ready ++ [m] })

/-- Give the ready item that ranks first to the lowest idle cell that may run it; then mark strands (R157, R160). -/
def State.dispatch (s : State) (c : Nat) : State :=
  let l := (s.cirque c).ready.filter (fun i => (List.range 75).any (fun e => s.eligible c e i))
  match firstItem s l with
  | none => s.preempt c
  | some i =>
    match (List.range 75).find? (fun e => s.eligible c e i) with
    | none => s
    | some e => (s.takeItem c e i true).preempt c

/-- ITEM_DISPATCH. A gated cirque's cells run again when an item is ready (R476). -/
def execItemDispatch (t : Nat) (cirque : Nat) (s : State) : Host.Outcome State Fault Refusal :=
  let s := s.advance t
  if s.frozen || (s.cirque cirque).ready.isEmpty then .next s
  else
    let s := if (s.cirque cirque).gated then
        ((s.chargeCirque cirque).modCirque cirque (fun q => { q with gated := false }))
      else s
    .next (s.dispatch cirque)

-- Gradients (R134).

/-- Bytes of FP32 vectors. -/
def vecBytes (v : List W32) : List Byte := v.flatMap (fun x => leBytes 4 x.toNat)

/-- Add a delta to the stored FP32 vector at an offset of a page's payload. -/
def addAt (payload : List Byte) (off : Nat) (delta : List W32) : List Byte :=
  putBytes payload off (vecBytes (List.zipWith fAdd (fWords delta.length off payload) delta))

/-- The delta of some contributions: from the lowest pair's on (R134). -/
def deltaOf (vs : List (List W32)) : List W32 :=
  match vs with
  | [] => []
  | v :: rest => rest.foldl (List.zipWith fAdd) v

/-- Commit the contributions of one position and KV head to its gradient page (R134, R135): false when the page's granule is
uncorrectable. -/
def State.commitOne (s : State) (q : Request) (f : Fmt) (start pos h : Nat) (cs : List Contrib) : State × Bool :=
  let n := (pos - start) / f.gtpp
  let j := (pos - start) % f.gtpp
  match (s.seqs.get? (handleIdx q.desc.handle)).bind (fun sq => (sq.layer q.desc.layer).grads.get? n) with
  | none => (s, true)
  | some key =>
    let offK := j * f.gradBytes + 4 * h * f.d
    let offV := j * f.gradBytes + 4 * (f.hkv + h) * f.d
    let gs := [8 + offK / 256, 8 + (offK + 4 * f.d - 1) / 256, 8 + offV / 256, 8 + (offV + 4 * f.d - 1) / 256]
    match s.pages.get? key with
    | none => (s, true)
    | some p =>
      match p.bad.find? (fun g => gs.contains g) with
      | some g =>
        let (s, e) := s.pageErr key g p .uncorr
        ((s.failReq (((s.reqs.find? (fun x => x.2.order == q.order)).map (·.1)).getD 0) .uncorrectable e), false)
      | none =>
        let c := slotCirque key
        (((s.dramRead c 2).dramWrite c 2).modPage key (fun p => { p with
          payload := addAt (addAt (sliceBytes p.payload 0 p.coded) offK (deltaOf (cs.map (·.dk)))) offV (deltaOf (cs.map (·.dv))) }), true)

/-- Commit one data page's contributions of a REVERSE, position by position (R134); the request has committed once one of them is (R137). -/
def State.commitPage (s : State) (slot page : Nat) : State :=
  match s.reqs.get? slot with
  | none => s
  | some q =>
    match s.seqs.get? (handleIdx q.desc.handle) with
    | none => s
    | some sq =>
      let f := sq.fmt
      let cs := sortBy (fun a b => decide (a.pos < b.pos) || (a.pos == b.pos && decide (a.pair ≤ b.pair)))
        ((q.contribs.filter (fun e => e.1 == page)).map (·.2))
      let keys := (cs.map (fun c => (c.pos, q.desc.pairKv c.pair))).eraseDups
      let r := keys.foldl (fun (r : State × Bool × Bool) k =>
        if r.2.1 then
          let (s, ok) := r.1.commitOne q f sq.start k.1 k.2 (cs.filter (fun c => c.pos == k.1 && q.desc.pairKv c.pair == k.2))
          (s, ok, r.2.2 || ok)
        else r) (s, true, false)
      r.1.modReq slot (fun q => { q with
        contribs := q.contribs.filter (fun e => e.1 != page)
        committed := q.committed || r.2.2 })

/-- A REVERSE on the same layer that started earlier has not finished (R134). -/
def State.revBefore (s : State) (q : Request) : Bool :=
  s.reqs.any (fun e => e.2.opcode == 0x21 && e.2.desc.handle == q.desc.handle && e.2.desc.layer == q.desc.layer &&
    (e.2.phase == .thin || e.2.phase == .dense || e.2.phase == .fetching) &&
    (match e.2.startedAt, q.startedAt with
      | some a, some b => decide (a < b) || (a == b && decide (e.2.order < q.order))
      | _, _ => false))

-- The merge lane (R152, R153).

/-- Items and partials of a request whose partial has not been folded: page, head, block. -/
def State.unfolded (s : State) (slot : Nat) : List (Nat × Nat × Nat) :=
  (s.itemsOf slot).map (fun i => (i.page, i.head, i.block)) ++
  s.cirques.flatMap (fun e =>
    (e.2.reorder.filter (fun r => r.1 == slot)).map (fun r => (r.2.1, r.2.2.1, r.2.2.2.1)) ++
    e.2.cells.flatMap (fun f =>
      (f.2.held.toList ++ f.2.spills.filterMap (·.held)).map (·.1) |>.filterMap (fun i =>
        if i.req = slot then some (i.page, i.head, i.block) else none))) ++
  (match s.reqs.get? slot with
    | some q => q.runs.map (fun r => (r.page, r.head, r.block))
    | none => [])

/-- The home index of a page of a request's layer: by its number, whatever has become of its slot (R48, R71, R73). -/
def State.pageHome (s : State) (q : Request) (page : Nat) : Nat :=
  match s.seqs.get? (handleIdx q.desc.handle) with
  | some sq => s.homeK q.ridge sq.salt q.desc.layer page
  | none => 0

/-- An item's partial is in its turn: none of its group, head and block is left below its page (R152). -/
def State.inTurn (s : State) (q : Request) (slot : Nat) (i : Item) : Bool :=
  let k := s.pageHome q i.page
  !(s.unfolded slot).any (fun u => decide (u.1 < i.page) && u.2.1 == i.head && u.2.2 == i.block && s.pageHome q u.1 == k)

/-- Fold a partial into its group: kept for the lead cirque, with the contributions and non-finite outcomes of the item. -/
def State.foldIn (s : State) (slot : Nat) (i : Item) (o : ItemOut) : State :=
  match s.reqs.get? slot with
  | none => s
  | some q =>
    let k := s.pageHome q i.page
    let lane := s.cirqueAt q.ridge k
    let s := (s.event (some lane) 0x0E o.parts.length).bumpBy (.ridge q.ridge 15) o.clamps
    s.modReq slot (fun q => { q with
      parts := q.parts ++ o.parts.map (fun e => (i.page, k, e.1, e.2))
      contribs := q.contribs ++ o.contribs.map (fun c => (i.page, c))
      nonfin := q.nonfin ++ o.nonfinite.map (fun h => (h, i.page))
      fail := if q.fail.isNone && !o.nonfinite.isEmpty then some .nonfinite else q.fail })

/-- Commit a REVERSE's page when all its items are folded and none that started earlier is unfinished (R134). -/
def State.tryCommit (s : State) (slot page : Nat) : State :=
  match s.reqs.get? slot with
  | none => s
  | some q =>
    if q.opcode ≠ 0x21 || q.fail.isSome || (s.unfolded slot).any (fun u => u.1 == page) || s.revBefore q then s
    else s.commitPage slot page

/-- Fold what the reorder buffer of a lane holds and whose turn has come. -/
def State.drainLane (fuel : Nat) (s : State) (lane : Nat) : State :=
  match fuel with
  | 0 => s
  | fuel + 1 =>
    let asItem (r : Nat × Nat × Nat × Nat × ItemOut) : Item :=
      { req := r.1, page := r.2.1, head := r.2.2.1, block := r.2.2.2.1, run := 1, avoid := [] }
    match (s.cirque lane).reorder.find? (fun r => match s.reqs.get? r.1 with
      | some q => s.inTurn q r.1 (asItem r)
      | none => true) with
    | none => s
    | some r =>
      let s := s.modCirque lane (fun q => { q with reorder := q.reorder.filter (fun x => x != r) })
      State.drainLane fuel ((s.foldIn r.1 (asItem r) r.2.2.2.2).tryCommit r.1 r.2.1) lane

/-- Offer a partial to the merge lane of its page's home cirque (R152, R153): false when the lane has no room. -/
def State.offer (s : State) (i : Item) (o : ItemOut) : State × Bool :=
  match s.reqs.get? i.req with
  | none => (s, true)
  | some q =>
    let lane := s.cirqueAt q.ridge (s.pageHome q i.page)
    if s.inTurn q i.req i then
      (((s.foldIn i.req i o).tryCommit i.req i.page).drainLane 129 lane, true)
    else
      let l := (s.cirque lane).reorder
      if l.length < 128 && (l.filter (fun r => r.1 == i.req)).length < 64 then
        (s.modCirque lane (fun x => { x with reorder := x.reorder ++ [(i.req, i.page, i.head, i.block, o)] }), true)
      else (s, false)

-- After an item (R157, R159, R162).

/-- The next item of a cell's strand, when none ranks ahead of it on keys 1 to 3 (R157). -/
def State.strandNext (s : State) (c : Nat) (i : Item) : Option Item :=
  match s.strandRest c i with
  | none => none
  | some j => if (s.cirque c).ready.any (fun k => keyLt (s.schedKey k.req) (s.schedKey j.req)) then none else some j

/-- A cell at its preemption point: a marked one spills its strand, where pages of it or a held partial are left; another takes its
strand's next item (R157, R159, R162). -/
def State.afterItem (s : State) (c e : Nat) (i : Item) : State :=
  let x := (s.cirque c).cell e
  if x.mark.isSome then
    if x.held.isNone && (s.strandRest c i).isNone then s.giveMark c e else s.stopCell c e i
  else if x.held.isSome || x.quarantined then s
  else
    match s.strandNext c i with
    | some j => if s.eligible c e j then (s.takeItem c e j false).preempt c else s
    | none => s

/-- A partial that its cell holds or has spilled is folded or takes a reorder slot: the first, by rank, that the lane has room
for (R153, R163). -/
def State.mergeAccept (s : State) (lane : Nat) : State :=
  let cand : List (Item × ItemOut × Nat × Nat × Bool) := s.cirques.flatMap (fun q => q.2.cells.flatMap (fun x =>
    (x.2.held.toList.filter (fun _ => !x.2.spilling)).map (fun h => (h.1, h.2, q.1, x.1, false)) ++
    x.2.spills.filterMap (fun p => p.held.map (fun h => (h.1, h.2, q.1, x.1, true)))))
  let mine := cand.filter (fun e => match s.reqs.get? e.1.req with
    | some q => s.cirqueAt q.ridge (s.pageHome q e.1.page) == lane
    | none => true)
  let without (s : State) (e : Item × ItemOut × Nat × Nat × Bool) : State :=
    if e.2.2.2.2 then
      s.modCell e.2.2.1 e.2.2.2.1 (fun x => { x with spills := (x.spills.map (fun p =>
        if p.held.any (fun h => h.1 == e.1) then { p with held := none } else p)).filter (fun p => p.unread || p.held.isSome) })
    else s.onCell e.2.2.1 e.2.2.2.1 (fun x => { x with held := none })
  let ok (e : Item × ItemOut × Nat × Nat × Bool) : Bool := ((without s e).offer e.1 e.2.1).2
  match firstItem s ((mine.filter ok).map (·.1)) with
  | none => s
  | some i =>
    match mine.find? (fun e => e.1 == i) with
    | none => s
    | some e =>
      let s := ((without s e).offer e.1 e.2.1).1
      if e.2.2.2.2 then s else s.afterItem e.2.2.1 e.2.2.2.1 i

/-- MERGE_ACCEPT. -/
def execMergeAccept (t : Nat) (cirque : Nat) (s : State) : Host.Outcome State Fault Refusal :=
  let s := s.advance t
  if s.frozen then .next s else .next ((s.drainLane 129 cirque).mergeAccept cirque)

/-- A spill slot takes the partial a strand held: beside its record, or alone when that has been read (R162, R163). -/
def putHeld (l : List Spill) (h : Item × ItemOut) : List Spill :=
  if l.any (fun p => p.item.sameStrand h.1 && p.held.isNone) then
    l.map (fun p => if p.item.sameStrand h.1 && p.held.isNone then { p with held := some h } else p)
  else l ++ [{ item := h.1, unread := false, held := some h }]

/-- SPILL_COMPLETE: the strand record, and a held partial, are in the spill area; the cell takes the item that caused the mark
(R162). -/
def execSpillComplete (t : Nat) (cirque cell : Nat) (s : State) : Host.Outcome State Fault Refusal :=
  let s := s.advance t
  let x := (s.cirque cirque).cell cell
  if s.frozen || !x.spilling then .next s
  else
    let s := s.bumpC cirque 0
    let s := if x.held.isSome then s.bumpC cirque 1 else s
    .next ((s.onCell cirque cell (fun x => { x with
      spilling := false
      held := none
      spills := match x.held with
        | some h => putHeld x.spills h
        | none => x.spills })).giveMark cirque cell)

end Sys2Proof.Machine
end

