-- ==== Sys2Proof/Machine/Items.lean ====
section
/-! DEFINITION. Fills and items that end (R86, R90, R153, R252, R417), shadow comparison (R429 to R432), and PREFETCH (R87).
Log entries 4, 29, 35, 40. -/

namespace Sys2Proof.Machine

open Sys2Proof

-- Fills (R86, R252 to R254).

/-- Cells of a cirque whose item waits for a page. -/
def State.waitingCells (s : State) (c key : Nat) : List Nat :=
  ((s.cirque c).cells.filter (fun e => !e.2.fed && (match e.2.item with
    | some i => s.itemSlot i == some key
    | none => false))).map (·.1)

/-- What a fill's read of a page met: the granule and cause of an error (R252 to R254, R415). A granule newly found
uncorrectable stays so. -/
def State.fillRead (s : State) (key : Nat) (p : Page) (err : MemErr) : State × Option (Nat × Cause) :=
  let n := max 1 (granules p.stored)
  match s.badGranule key p with
  | some e => (s, some e)
  | none =>
    let stays (s : State) (c : Cause) : State × Option (Nat × Cause) :=
      let (d, s) := s.drawNat
      let g := 8 + d % n
      (s.modPage key (fun p => { p with bad := p.bad ++ [g] }), some (g, c))
    match err with
    | .uncorrectable => stays s .uncorr
    | .misplaced => stays s .misplaced
    | .corrected =>
      let (d, s) := s.drawNat
      let s := s.pageCorr key (8 + d % n)
      if p.records.isNone then (s, some (0, .codec)) else (s, none)
    | .none => if p.records.isNone then (s, some (0, .codec)) else (s, none)

/-- The code of a fill's kind in a FILL record (R459), and its event (R457). -/
def fillCode (k : FillKind) : Nat :=
  match k with
  | .frame => 0
  | .stream => 1
  | .prefetch => 2

/-- A fill that failed: the frame is not made, and the requests of the items that wait end with UNCORRECTABLE (R417). -/
def State.fillFailed (s : State) (c key g : Nat) (p : Page) (cause : Cause) : State :=
  let (s, e) := s.pageErr key g p cause
  let s := { s with frames := s.frames.keep (fun k f => !(k / 960 == c && f.slot == key)) }
  let s := s.prefetchEnd c key false
  let slots := ((s.waitingCells c key).filterMap (fun x => ((s.cirque c).cell x).item.map (·.req))).eraseDups
  if slots.isEmpty then s.report { e with handle := 0 }
  else slots.foldl (fun s slot => (s.failReq slot .uncorrectable e).abandon slot) s

/-- A stream fill that succeeded: the cells whose items joined it have the tiles of their KV heads; an item that came too late takes R86
again (R253). -/
def State.streamGood (s : State) (c key : Nat) (p : Page) : State :=
  let f := Fmt.parse p.fmt
  let recs := p.records.getD []
  let cells := s.waitingCells c key
  let one (s : State) (e : Nat) : State :=
    match ((s.cirque c).cell e).item with
    | none => s
    | some i =>
      (s.modCell c e (fun x => { x with buffer := some (p.tokens, f.headTiles recs p.tokens i.head) })).feed c e
  let (late, joined) := cells.partition (fun e => ((s.cirque c).cell e).late)
  let s := joined.foldl one s
  late.foldl (fun s e => match ((s.cirque c).cell e).item with
    | none => s
    | some i => (s.modCell c e (fun x => { x with late := false })).access c e i) s

/-- A frame fill that succeeded: the frame holds the page's tiles (R84), and every item that waits reads it (R86); an uncorrectable word in
it is R90's. -/
def State.frameGood (s : State) (c key : Nat) (p : Page) : State :=
  let s := { s with frames := s.frames.mapVals (fun k f =>
    if k / 960 = c ∧ f.slot = key then { f with tiles := (Fmt.parse p.fmt).tiles (p.records.getD []) p.tokens } else f) }
  let cells := s.waitingCells c key
  let slots := (cells.filterMap (fun x => ((s.cirque c).cell x).item.map (·.req))).eraseDups
  if cells.isEmpty then s.prefetchEnd c key true
  else
    match (s.frameAt c key).bind (fun k => (s.frames.get? k).map (fun f => (k, f))) with
    | none => cells.foldl (fun s e => s.feed c e) s
    | some (k, f) =>
      if f.bad then
        let s := s.frameBad c k key p.ridge f slots
        if (s.frameAt c key).isSome then s else s.prefetchEnd c key false
      else
        let s := { s with frames := s.frames.adjust k (fun f => { f with refBit := true }) }
        (cells.foldl (fun s e => s.feed c e) s).prefetchEnd c key true

/-- FILL_COMPLETE: `slot` is the page slot's key. -/
def execFillComplete (t : Nat) (cirque slot : Nat) (kind : FillKind) (err : MemErr) (s : State) : Host.Outcome State Fault Refusal :=
  let s := s.advance t
  match s.frozen, (s.cirque cirque).fills.find? (fun f => f.1 == slot && f.2.1 == kind), s.pages.get? slot with
    | false, some fill, some p =>
      let s := s.modCirque cirque (fun q => { q with fills := q.fills.erase fill })
      let n := granules p.stored
      let s := (s.bumpBy (.ridge p.ridge 68) n).bumpBy (.ridge p.ridge 69) (granules p.coded)
      let s := ((s.dramRead (slotCirque slot) (8 + n)).event (some cirque) (4 + fillCode kind) 1).event (some cirque) 0x09 p.coded
      let s := s.film 0x08 (.cirque cirque) p.ridge [fillCode kind, slot % slotsPerCirque, 8 + n]
      match s.fillRead slot p err with
      | (s, some (g, cause)) => .next (s.fillFailed cirque slot g p cause)
      | (s, none) => .next (if kind = .stream then s.streamGood cirque slot p else s.frameGood cirque slot p)
    | _, _, _ => .next s

-- What an item computes.

/-- The token records an item reads: out of the frame of its cirque that holds its page, or its cell's page buffer (R84, R86, R253). -/
def State.itemRecs (s : State) (c e : Nat) (i : Item) (key : Nat) (p : Page) : List Byte :=
  let f := Fmt.parse p.fmt
  match ((s.cirque c).cell e).buffer, (s.frameAt c key).bind s.frames.get? with
  | some (n, bs), _ => f.untile bs n i.head
  | none, some fr => f.untile (fr.tiles.drop (f.tileBase p.tokens i.head)) p.tokens i.head
  | none, none => p.records.getD []

/-- The inputs of an item of a DEVELOP or REVERSE in a cell. -/
def State.workOf (s : State) (c e : Nat) (q : Request) (i : Item) : Option Work :=
  match s.seqs.get? (handleIdx q.desc.handle), (q.pages.find? (fun p => p.1 == i.page)).map (·.2) with
  | some sq, some key =>
    (s.pages.get? key).map (fun p =>
      { d := q.desc, f := sq.fmt, start := sq.start, snap := q.snap, prog := q.prog, query := q.query, qscales := q.qscales,
        slopes := q.slopes, dout := q.dout, bigL := q.bigL, bigD := q.bigD, recs := s.itemRecs c e i key p })
  | _, _ => none

/-- Flip bits of one FP32 word of a list, and count the words passed. -/
def flipAt (l : List W32) (n : Nat) (mask : W32) : List W32 :=
  l.zipIdx.map (fun e => if e.2 = n then e.1 ^^^ mask else e.1)

/-- The FP32 words of an item's results in order (R429). -/
def ItemOut.words (o : ItemOut) : List W32 :=
  o.parts.flatMap (fun e => [e.2.m, e.2.l] ++ e.2.u) ++ o.contribs.flatMap (fun c => c.dk ++ c.dv)

/-- Put words back in their places. -/
def ItemOut.putWords (o : ItemOut) (l : List W32) : ItemOut :=
  let parts := o.parts.foldl (fun (r : List (Nat × Partial) × List W32) e =>
    (r.1 ++ [(e.1, { e.2 with m := r.2.getD 0 0, l := r.2.getD 1 0, u := (r.2.drop 2).take e.2.u.length })],
     r.2.drop (2 + e.2.u.length))) ([], l)
  let cs := o.contribs.foldl (fun (r : List Contrib × List W32) c =>
    (r.1 ++ [{ c with dk := r.2.take c.dk.length, dv := (r.2.drop c.dk.length).take c.dv.length }],
     r.2.drop (c.dk.length + c.dv.length))) ([], parts.2)
  { o with parts := parts.1, contribs := cs.1 }

/-- A silent fault of a cell: one word of what it computed differs (R428, R429). -/
def ItemOut.flip (o : ItemOut) (f : Option (Nat × W32)) : ItemOut :=
  match f with
  | none => o
  | some (n, mask) => o.putWords (flipAt o.words n mask)

/-- Scored positions of an item's block in its page (R167). -/
def workScored (w : Work) (page : Nat) (pairs : List Nat) : Nat :=
  pairs.foldl (fun n p => n + (w.d.places w.start w.snap w.f.tpp page (w.d.pairToken p)).length) 0

-- Odd cells (R432).

/-- Quarantined cells of a cirque. -/
def State.quarCells (s : State) (c : Nat) : Nat := ((s.cirque c).cells.filter (fun e => e.2.quarantined)).length

/-- A cell is charged as an odd cell; at QUAR_COUNT it is quarantined, unless eight of its cirque are (R432). An injected event
adds nothing (R434). -/
def State.oddCell (s : State) (c e : Nat) (injected : Bool) : State :=
  if injected then s
  else
    let full := decide (8 ≤ s.quarCells c)
    s.modCell c e (fun x => { x with
      odd := x.odd + 1
      quarantined := x.quarantined || (decide (s.health.cfg.quarCount ≤ x.odd + 1) && !full) })

-- Shadow comparison (R429 to R431).

/-- The index of the first word that differs between two runs, with the words. -/
def firstDiff (a b : List W32) (n : Nat) : Nat × W32 × W32 :=
  match a, b with
  | x :: xs, y :: ys => if x = y then firstDiff xs ys (n + 1) else (n, x, y)
  | x :: _, [] => (n, x, 0#32)
  | [], y :: _ => (n, 0#32, y)
  | [], [] => (n, 0#32, 0#32)

/-- The runs of one item, by their number. -/
def runOf (l : List ShadowRun) (n : Nat) : Option ShadowRun := l.find? (fun r => r.run == n)

/-- The record of a mismatch (R431): the cells, the agreeing pair, what differed first, and the conditions. -/
def State.shadowRec (s : State) (q : Request) (i : Item) (c : Nat) (l : List ShadowRun) (pair : Nat) : ErrRec :=
  let cell (n : Nat) : Nat := match runOf l n with
    | some r => 75 * c + r.cell
    | none => 0xFFFF
  let words (n : Nat) : List W32 := match (runOf l n).bind (·.result) with
    | some o => o.words
    | none => []
  let d := firstDiff (words 1) (words 2) 0
  { ErrRec.of .shadow q.ridge (.cirque c) with
    layer := q.desc.layer, page := i.page, head := i.head, noPage := false
    detail := [cell 1, cell 2, cell 3, pair, i.head, d.1, d.2.1.toNat, d.2.2.toNat, s.sns.dieMax * 16,
               (s.stack (2 * c)).temp * 16, s.sns.measMv, s.sns.measMv, s.sns.issueK, (s.ridge q.ridge).tempoLevel, 1100,
               q.exposure] }

/-- The runs of an item are settled: the result goes on, or the request fails (R430). -/
def State.settle (s : State) (c e : Nat) (q : Request) (i : Item) (o : Option ItemOut) : State :=
  let s := s.modReq i.req (fun q => { q with
    runs := q.runs.filter (fun r => !(r.page == i.page && r.head == i.head && r.block == i.block)) })
  match o with
  | some o =>
    match s.offer i o with
    | (s, true) => s
    | (s, false) => (s.bumpC c 3).onCell c e (fun x => { x with held := some (i, o) })
  | none =>
    let s := ((s.bumpN 2057).weigh (.cirque c) 250 false)
    (s.failReq i.req .uncorrectable { ErrRec.of .uncorr q.ridge (.cirque c) with
      layer := q.desc.layer, page := i.page, head := i.head, noPage := false }).abandon i.req

/-- Cells of a cirque in service. -/
def State.inService (s : State) (c : Nat) : Nat := 75 - s.quarCells c

/-- A run of a shadowed item has ended (R429, R430). -/
def State.addRun (s : State) (c e : Nat) (i : Item) (o : Option ItemOut) : State :=
  let s := s.modReq i.req (fun q => { q with
    runs := q.runs ++ [{ page := i.page, head := i.head, block := i.block, run := i.run, cell := e, result := o }] })
  match s.reqs.get? i.req with
  | none => s
  | some q =>
    let l := q.runs.filter (fun r => r.page == i.page && r.head == i.head && r.block == i.block)
    match runOf l 1, runOf l 2, runOf l 3 with
    | some a, some b, none =>
      if a.result = b.result ∧ a.result.isSome then s.settle c e q i a.result
      else
        let s := s.bumpN 2056
        if s.inService c < 3 then
          (s.noteReq i.req (s.shadowRec q i c l 2)).settle c e q i none
        else
          (s.event (some c) 0x16 1).modCirque c (fun x => { x with ready := x.ready ++ [{ i with run := 3, avoid := [] }] })
    | some a, some b, some d =>
      let odd (s : State) (n : Nat) : State := ((s.weigh (.cell (75 * c + n)) 250 false).weigh (.cirque c) 25 false).oddCell c n false
      if d.result.isSome ∧ d.result = a.result then
        ((odd s b.cell).noteReq i.req (s.shadowRec q i c l 0)).settle c e q i a.result
      else if d.result.isSome ∧ d.result = b.result then
        ((odd s a.cell).noteReq i.req (s.shadowRec q i c l 1)).settle c e q i b.result
      else (s.noteReq i.req (s.shadowRec q i c l 2)).settle c e q i none
    | _, _, _ => s

-- ITEM_COMPLETE.

/-- The candidates of an item of a QUERY (R228): those of its cirque, 64 to an item; `head` 1 names the reserves (R229). -/
def Request.candsOf (q : Request) (i : Item) : List QItem :=
  let c := q.desc.k * q.desc.os
  let l := if i.head = 0 then q.items.take c else q.items.drop c
  ((l.filter (fun x => x.k == i.page)).drop (64 * i.block)).take 64

/-- A candidate's vector record is uncorrectable (R233): the record names the index, the cirque and the ordinal, which stands in
`page` behind NO_PAGE, for R420 gives it no field of its own (log entry 40). -/
def State.vectorFailed (s : State) (c : Nat) (q : Request) (i : Item) : State :=
  let (v, s) := s.drawNat
  let l := q.candsOf i
  let o := ((l[v % max 1 l.length]?).map (·.order)).getD 0
  let s := (s.bumpN 2049).weigh (.cirque c) 200 false
  (s.failReq i.req .uncorrectable { ErrRec.of .uncorr q.ridge (.cirque c) with page := o }).abandon i.req

/-- The item's results join the comparison, or go to the merge lane; a refused partial stays in the cell (R153, R429). -/
def State.itemResult (s : State) (c e : Nat) (q : Request) (i : Item) (o : ItemOut) : State :=
  if q.shadowed.contains (i.page, i.head, i.block) then s.addRun c e i (some o)
  else
    match s.offer i o with
    | (s, true) => s
    | (s, false) => (s.bumpC c 3).onCell c e (fun x => { x with held := some (i, o) })

/-- An uncorrectable word of a cell's local store (R417, R451): the item runs again on another cell; a second failure fails the
request; a shadow run counts as differing. -/
def State.storeFailed (s : State) (c e : Nat) (q : Request) (i : Item) (injected : Bool) : State :=
  let comp : Comp := .cell (75 * c + e)
  let s := (((s.bumpN 2053).weigh comp 200 injected).oddCell c e injected)
  let r : ErrRec := { ErrRec.of .uncorr q.ridge comp with
    injected := injected, layer := q.desc.layer, page := i.page, head := i.head, noPage := false }
  if 2 ≤ i.run then (s.noteReq i.req r).addRun c e i none
  else if i.avoid.isEmpty then
    (s.noteReq i.req r).modCirque c (fun x => { x with ready := x.ready ++ [{ i with avoid := [e] }] })
  else (s.failReq i.req .uncorrectable r).abandon i.req

/-- Events an item's arithmetic counts (R457): microprogram instructions and exp2 evaluations. -/
def State.itemEvents (s : State) (c : Nat) (w : Work) (page : Nat) (pairs : List Nat) : State :=
  let n := workScored w page pairs
  let (k, e) := match w.prog with
    | some p => mprogCount p.1
    | none => (0, 0)
  (s.event (some c) 0x12 (n * k)).event (some c) 0x13 (n * (1 + (if w.d.softcapEn then 1 else 0) + e))

/-- ITEM_COMPLETE: a cell's item ends; `err` is what its local store met (a candidate's vector record, where it reads
MISPLACED), `flip` a silent fault. -/
def execItemComplete (t : Nat) (cirque cell : Nat) (err : MemErr) (flip : Option (Nat × W32)) (s : State) :
    Host.Outcome State Fault Refusal :=
  let s := s.advance t
  let x := (s.cirque cirque).cell cell
  match x.item with
  | none => .next s
  | some i =>
    if s.frozen || !x.fed || s.now < x.stallTo then .next s
    else
      let w := (s.reqs.get? i.req).bind (fun q => s.workOf cirque cell q i)
      let s := s.onCell cirque cell (fun x => { x with item := none, fed := false, bad := false, buffer := none })
      match s.reqs.get? i.req with
      | none => .next (s.afterItem cirque cell i)
      | some q =>
        let s := s.film 0x06 (.cell (75 * cirque + cell)) q.ridge [1, i.req, i.page, i.head]
        let s := if err = .corrected then (s.bumpN 2052).weigh (.cell (75 * cirque + cell)) 1 false else s
        let vector := err = .misplaced && q.opcode == 0x28
        let s :=
          if vector then
            s.vectorFailed cirque q i
          else if x.bad || err = .uncorrectable || err = .misplaced then s.storeFailed cirque cell q i x.bad
          else if q.opcode = 0x28 then s
          else
            match w with
            | none => s
            | some w =>
              let pairs := q.desc.blockPairs (q.desc.blockSize w.f.d q.prog) i.head i.block
              (s.itemEvents cirque w i.page pairs).itemResult cirque cell q i ((w.item i.page pairs).flip flip)
        .next ((s.afterItem cirque cell i).prefetchAhead i.req)

-- PREFETCH (R87, R387).

def prefetchChecks (s : State) (c : Cmd) : List (Bool × Status) :=
  [(s.handleOk c.ridge c.d.handle, .badHandle),
   (s.seqIn c.ridge c.d.handle [.opened, .sealed] && s.layerOk c.ridge c.d.handle c.d.layer, .stateConflict),
   (s.tagParams c.d c.d.pin && decide (c.d.rangeLo ≤ c.d.rangeHi) &&
    (!c.d.toK || decide (c.d.targetK < (s.ridge c.ridge).p.cirques.length)), .badParam)]

/-- The sealed pages of a layer in a position range, with the slice each is to be warm in. -/
def State.prefetchPages (s : State) (r : Nat) (q : SeqD) (d : Desc) : List (Nat × Nat) :=
  (q.layer d.layer).pages.filterMap (fun e =>
    match s.pages.get? e.2 with
    | none => none
    | some p =>
      let lo := q.start + e.1 * q.fmt.tpp
      if p.pstate = .opened || d.rangeHi < lo || lo + p.tokens ≤ d.rangeLo then none
      else some (if d.toK then s.cirqueAt r d.targetK else slotCirque e.2, e.2))

/-- Warm one page for a PREFETCH: a frame that holds it counts at once; a fill in progress is waited for; without a victim the
page is skipped (R87). -/
def State.warm (s : State) (slot : Nat) (e : Nat × Nat) : State :=
  if s.filling e.1 e.2 then s
  else if (s.frameAt e.1 e.2).isSome then s.prefetchOne slot e.1 e.2 true
  else
    match s.startFrame e.1 e.2 .prefetch with
    | (s, true) => s
    | (s, false) => (s.event (some e.1) 0x07 1).prefetchOne slot e.1 e.2 false

/-- PREFETCH: fills start at once, which is before the target exposure opens or when it is open (R87). -/
def execPrefetch (t : Nat) (src : Src) (d : Desc) (s : State) : Host.Outcome State Fault Refusal :=
  s.command t src d [] prefetchLayout prefetchChecks (fun s c =>
    match s.seqOf c.ridge c.d.handle with
    | none => s
    | some q =>
      let l := s.prefetchPages c.ridge q c.d
      let (s, slot) := s.admitReq c .engine (fun x => { x with list := l })
      if l.isEmpty then s.complete slot .ok 0 0 0 else l.foldl (fun s e => s.warm slot e) s)

end Sys2Proof.Machine
end

