-- ==== Sys2Proof/Machine/Develop.lean ====
section
/-! DEFINITION. DEVELOP and REVERSE from admission to their output (R91 to R116, R130 to R141, R156), gradients (R139), and
microprogram slots (R105).
Log entries 4, 30, 31, 70. -/

namespace Sys2Proof

/-- The heads of a request. -/
def Desc.heads (d : Desc) : List Nat := (List.range d.kvCount).map (d.kvFirst + ·)

end Sys2Proof

namespace Sys2Proof.Machine

open Sys2Proof

-- Checks (R92, R130).

/-- The page numbers and slots of a layer at admission. -/
def SeqD.pagesOf (q : SeqD) (layer : Nat) : List (Nat × Nat) := (q.layer layer).pages

/-- Gradient pages that the requested and held positions of a REVERSE need (R135, R136). -/
def SeqD.gradsNeeded (q : SeqD) (d : Desc) : List Nat :=
  let l := q.layer d.layer
  let spans := l.pages.map (fun e => (q.start + e.1 * q.fmt.tpp, min l.next (q.start + (e.1 + 1) * q.fmt.tpp)))
  let last := ceilDiv (l.next - q.start) q.fmt.gtpp
  (List.range last).filter (fun n =>
    let a := q.start + n * q.fmt.gtpp
    let b := a + q.fmt.gtpp
    spans.any (fun sp => decide (max a sp.1 < min b sp.2) &&
      (List.range d.nq).any (fun i => meets (d.requested q.start l.next i) (max a sp.1) (min b sp.2))))

/-- The program of a ridge's slot. -/
def State.progOf (s : State) (r slot : Nat) : Option (List W32 × List W32) := ((s.ridge r).mprogs.get? slot).bind (·.prog)

/-- Checks 4 to 8 of R92 for DEVELOP and REVERSE. -/
def attendChecks (s : State) (c : Cmd) : List (Bool × Status) :=
  let d := c.d
  match s.seqOf c.ridge d.handle with
  | none => [(false, .badHandle)]
  | some q =>
    let l := q.layer d.layer
    let bytes := d.inputBytes q.fmt.d
    [((q.state == .opened || q.state == .sealed) && q.hasLayer d.layer && (!d.mprogEn || (s.progOf c.ridge d.mprogSlot).isSome) &&
        (d.sel != 1 || (s.ridge c.ridge).pskr.isSome) && (d.opcode != 0x21 || !l.dirty), .stateConflict),
     (d.opcode != 0x21 || (q.gradsNeeded d).all (fun n => decide (n ≤ 16777215)), .limit),
     (decide (d.kvFirst + d.kvCount ≤ q.fmt.hkv), .badShape),
     (decide (d.nq * d.g ≤ 64) && decide (d.pairs ≤ 1024) &&
        (d.srcOf.qsrc != 0 || (decide (bytes ≤ 4096) && decide (bytes ≤ c.inl.length))), .badLength),
     (decide (d.qfmt ≤ 1) && decide (d.sel ≤ 1) && decide (d.posLo ≤ d.posHi) && fFinite d.scale && fLt 0#32 d.scale &&
        (!d.softcapEn || (fFinite d.softcap && fLt 0#32 d.softcap)) && (!d.windowEn || decide (1 ≤ d.windowW)) &&
        (d.sel != 1 || decide (1 ≤ d.topn)) && s.tagParams d true && s.srcParams c && s.outParams c, .badParam)]

-- Operands (R95, R96).

/-- The body of a READ_REQ (R264). -/
def readReqBody (region len : Nat) : List Byte := beBytes 4 region ++ beBytes 8 0 ++ beBytes 4 len

/-- Start fetching a request's operands from where QSRC says: `some` bytes when they came with the command, `none` when they are
on their way (R95). -/
def State.startFetch (s : State) (slot len : Nat) : State × Option (List Byte) :=
  match s.reqs.get? slot with
  | none => (s, none)
  | some q =>
    let b := q.desc.srcOf
    let s := s.modReq slot (fun q => { q with phase := .fetching, startedAt := some s.now })
    let fault (s : State) : State × Option (List Byte) :=
      (s.failNow slot .queryFault { ErrRec.of .queryFault q.ridge .none with noPage := true }, none)
    if b.qsrc = 0 then (s, some (q.data.take len))
    else if b.qsrc = 3 then (s.readHost q.src b.addr len, none)
    else
      let n := match q.src with
        | .conn n => if b.qsrc = 1 then n else b.conn
        | .ring _ _ => b.conn
      match s.newRegion q.ridge .query len with
      | none => fault s
      | some (s, h) =>
        let s := s.modReq slot (fun q => { q with region := h })
        match s.kSend n 2 b.region b.addr 0 (readReqBody h len) (.query slot) with
        | none => fault s
        | some (s, _) => (s, none)

/-- The bytes of a query that is wholly placed: from its region, or as the host read gave them. -/
def State.placedBytes (s : State) (q : Request) (data : Option (List Byte)) : Option (List Byte) :=
  if q.desc.srcOf.qsrc = 3 then data
  else if !q.placed then none
  else (s.regions.get? (regionKey q.ridge q.region)).map (fun g => memSlice g.mem 0 g.size)

/-- A request whose query holds a value that is not finite (R51, R96): the record names the lowest such head, counts them and
involves no page. -/
def State.queryNonfinite (s : State) (slot layer : Nat) (heads : List Nat) : State :=
  let h := heads.foldl min (heads.headD 0)
  s.failNow slot .nonfinite { ErrRec.of .nonfinite 0 .none with layer := layer, head := h, count := max 1 heads.length }

-- Page selection (R106 to R109).

/-- Candidate pages of a request, ascending (R106). -/
def Request.candidates (q : Request) (start tpp : Nat) : List Nat :=
  (q.pages.map (·.1)).filter (fun n => q.desc.pageAny start q.snap tpp n)

/-- The forced pages among candidates (R106). -/
def Request.forced (q : Request) (tpp : Nat) (cands : List Nat) : List Nat :=
  let closed := cands.filter (fun n => some n != q.openPage)
  let recent := closed.drop (closed.length - q.desc.forceRecent)
  cands.filter (fun n => some n == q.openPage || (q.desc.sinksEn && decide (n * tpp < q.desc.sinkN)) || recent.contains n)

/-- The sketch candidates: those not forced. -/
def Request.sketchCands (q : Request) (start tpp : Nat) : List Nat :=
  let c := q.candidates start tpp
  let f := q.forced tpp c
  c.filter (fun n => !f.contains n)

/-- The query sketch of a KV head (R238). -/
def Request.headSketch (q : Request) (d : Nat) (g : Pskr) (h : Nat) : Nat :=
  let sum := sumVecs d ((q.desc.pairsOf h).map (fun p =>
    preparedValues (q.desc.qfmt = 1) (q.query.getD p []) (q.qscales.getD p [])))
  let half := sketchOf g.seed (g.width / 2) sum
  half + half * 2 ^ (g.width / 2)

/-- The page slots of page numbers of a request. -/
def Request.slotOf (q : Request) (no : Nat) : Option Nat := (q.pages.find? (fun p => p.1 == no)).map (·.2)

/-- A page of a request awaited its seal at admission (R107). -/
def Request.awaits (q : Request) (key : Nat) : Bool := q.pages.any (fun p => p.2 == key && q.awaiting.contains p.1)

/-- The XORPOP segments of a thin phase in a cirque (R107, R189, R216): the region rows that hold sketches of some page slots for the
request's heads. A latch image holds the query sketches of as many heads as fit, each xor the region's pattern; QSEL picks a row's head. -/
def Pskr.thinSegs (g : Pskr) (d : Desc) (qs : List Nat) (tag c : Nat) (keys : List Nat) : List (Nat × Nat × List CairnOp) :=
  let per := 1024 / g.width
  let rows := ((g.rows.get? c).getD []).filter (fun w => d.heads.contains w.head && w.used.any (fun u => keys.contains u.2))
  ((rows.map (·.bank)).eraseDups).flatMap (fun b =>
    (List.range (ceilDiv qs.length per)).flatMap (fun k =>
      let mine := rows.filter (fun w => w.bank == b && (w.head - d.kvFirst) / per == k)
      let latch := ((qs.drop (k * per)).take per).foldr (fun v n => n * 2 ^ g.width + (v ^^^ g.white)) 0
      (cutOps mine.length (mine.map (fun w =>
        { thinOp 8 w.row (Nat.log2 (g.width / 256)) tag with qsel := (w.head - d.kvFirst) % per }))).map (fun l => (b, latch, l))))

/-- The thin phase of a request begins (R107): XORPOP over the rows that hold its candidates' sketches. -/
def State.beginThin (s : State) (slot : Nat) (sq : SeqD) : State :=
  match s.reqs.get? slot with
  | none => s
  | some q =>
    match (s.ridge q.ridge).pskr with
    | none => s
    | some g =>
      let keys := ((q.sketchCands sq.start sq.fmt.tpp).filterMap q.slotOf).filter (fun k => !q.awaits k)
      let qs := q.desc.heads.map (q.headSketch sq.fmt.d g)
      let s := s.modReq slot (fun q => { q with phase := .thin, list := [] })
      (s.ridge q.ridge).p.cirques.foldl (fun s c =>
        s.thinRows slot c q.ridge (g.thinSegs q.desc qs (granuleTag q.ridge g.wgen) c (keys.filter (fun k => slotCirque k == c)))) s

/-- A page's distance is computed on the logic die: it awaited its seal at admission, has no position in the region, or one in a row that
gave no result (R107, R240). -/
def Request.fromHeader (q : Request) (g : Pskr) (key : Nat) : Bool :=
  let rows := ((g.rows.get? (slotCirque key)).getD []).filter (fun w => w.used.any (fun u => u.2 == key))
  q.awaits key || rows.isEmpty || rows.any (fun w => q.list.contains (bankKey (slotCirque key) w.bank, w.row))

/-- The distance of a page (R107), with the sketches of a page that awaits its seal built from its keys. -/
def State.pageDistance (s : State) (q : Request) (g : Pskr) (key : Nat) (qs : List Nat) : Nat :=
  match s.pages.get? key with
  | none => 0
  | some p =>
    let sk := if p.pstate = .opened then s.sketchesFor p (p.records.getD []) else p.sketch
    (q.desc.heads.zip qs).foldl (fun n e => n + hamming g.width (sk.getD e.1 0) e.2) 0

/-- An uncorrectable granule that a logic-die read of a page meets: its header, or all of a page that awaits its seal. -/
def Page.badSketch (p : Page) : Option Nat :=
  if p.pstate = .opened then p.badRead else p.bad.find? (fun g => decide (g < 8))

-- The dense phase (R110, R154, R156).

/-- Create the items of the attended pages (R110, R154, R156). -/
def State.beginDense (s : State) (slot : Nat) (f : Fmt) (start : Nat) (chosen : List Nat) (approx : Bool) : State :=
  match s.reqs.get? slot with
  | none => s
  | some q =>
    let b := q.desc.blockSize f.d q.prog
    let items := chosen.flatMap (q.desc.itemsOfPage slot b start q.snap f.tpp)
    let s := s.modReq slot (fun q => { q with phase := .dense, chosen := chosen, approx := approx, todo := items, list := [] })
    let s := (s.topUp slot).prefetchAhead slot
    (s.ridge q.ridge).p.cirques.foldl (fun s c => s.preempt c) s

/-- Operands are at hand: prepared, then the thin phase with SEL 1, else the items (R96, R156). -/
def State.attend (s : State) (slot : Nat) (bytes : List Byte) : State :=
  match s.reqs.get? slot with
  | none => s
  | some q =>
    match s.seqs.get? (handleIdx q.desc.handle) with
    | none => s
    | some sq =>
      match prepare sq.fmt q.desc bytes with
      | none => s.queryNonfinite slot q.desc.layer (badHeads sq.fmt q.desc bytes)
      | some p =>
        let s := s.modReq slot (fun q => { q with query := p.query, qscales := p.qscales, slopes := p.slopes, dout := p.dout,
                                                  bigL := p.bigL, bigD := p.bigD, data := [] })
        let s := s.dropQuery q
        if q.desc.sel = 1 then s.beginThin slot sq
        else s.beginDense slot sq.fmt sq.start (q.candidates sq.start sq.fmt.tpp) false

/-- The first TOPN sketch candidates by distance, ties to the lower page, join the forced pages (R108, R109). -/
def State.choose (s : State) (slot : Nat) (q : Request) (sq : SeqD) (g : Pskr) (forced sk : List Nat) : State :=
  let qs := q.desc.heads.map (q.headSketch sq.fmt.d g)
  let dist := sk.map (fun n => (s.pageDistance q g ((q.slotOf n).getD 0) qs, n))
  let order := sortBy (fun a b => decide (a.1 < b.1) || (a.1 == b.1 && decide (a.2 ≤ b.2))) dist
  let pick := (order.take q.desc.topn).map (·.2)
  let all := sortBy (fun a b => decide (a ≤ b)) (forced ++ pick)
  let left := sk.length - pick.length
  let s := if q.opcode = 0x20 then s.bumpBy (.ridge q.ridge 13) left else s
  s.beginDense slot sq.fmt sq.start all (decide (0 < left))

/-- Pages are selected when the last distances are in (R108): `err` is what a read of a header met. -/
def State.selectPages (s : State) (slot : Nat) (err : MemErr) : State :=
  match s.reqs.get? slot with
  | none => s
  | some q =>
    match s.seqs.get? (handleIdx q.desc.handle), (s.ridge q.ridge).pskr with
    | some sq, some g =>
      let cands := q.candidates sq.start sq.fmt.tpp
      let forced := q.forced sq.fmt.tpp cands
      let sk := cands.filter (fun n => !forced.contains n)
      let keys := sk.filterMap q.slotOf
      let hdr := keys.filter (q.fromHeader g)
      let s := s.releaseHolder slot
      let s := if hdr.any (fun k => !q.awaits k) && q.list.isEmpty then s.bumpR q.ridge 14 else s
      let bad := hdr.findSome? (fun k => (s.pages.get? k).bind (fun p => p.badSketch.map (fun j => (k, j, p))))
      let fail (s : State) (k j : Nat) (p : Page) (c : Cause) : State :=
        let (s, e) := s.pageErr k j p c
        s.failNow slot .uncorrectable e
      match bad, hdr with
      | some (k, j, p), _ => fail s k j p .uncorr
      | none, k :: _ =>
        if err.aborts then
          match s.pages.get? k with
          | some p => fail s k 0 p (if err = .misplaced then .misplaced else .uncorr)
          | none => s
        else
          let s := if err = .corrected then s.pageCorr k 0 else s
          s.choose slot q sq g forced sk
      | none, [] => s.choose slot q sq g forced sk
    | _, _ => s

-- Finishing (R48, R49, R51, R109, R114, R134, R138, R145).

/-- Group results of a pair: by home index, each in ascending page number, in the order of their lowest page (R48). -/
def groupsOfPair (parts : List (Nat × Nat × Nat × Partial)) (pair : Nat) : List (List Partial) :=
  let mine := sortBy (fun a b => decide (a.1 ≤ b.1)) (parts.filter (fun e => e.2.2.1 == pair && decide (0 < e.2.2.2.count)))
  ((mine.map (·.2.1)).eraseDups).map (fun k => (mine.filter (fun e => e.2.1 == k)).map (·.2.2.2))

/-- Plain sums of dq and psum partials in the same grouping (R134). -/
def sumPartials (d : Nat) (l : List Partial) : Partial :=
  match l with
  | [] => Partial.empty d
  | p :: rest => rest.foldl (fun a b => { a with l := fAdd a.l b.l, u := List.zipWith fAdd a.u b.u, count := a.count + b.count }) p

/-- The entry of one pair (R49, R138): none when a step is not finite. -/
def Request.entry (q : Request) (f : Fmt) (start : Nat) (flags pair : Nat) : Option REntry :=
  let gs := groupsOfPair q.parts pair
  let h := q.desc.pairKv pair
  let rev := decide (q.opcode = 0x21)
  let rs := gs.map (foldPartials f.d)
  let p := if rev then sumPartials f.d (gs.map (sumPartials f.d)) else foldPartials f.d rs
  let steps := rev || (gs.all (fun l => foldOk (l.headD (Partial.empty f.d)) l.tail) &&
    foldOk (rs.headD (Partial.empty f.d)) rs.tail)
  let o := if rev then f.unrotate 0 h p.u else f.finishO h p
  let ok := steps && fFinite p.l && p.u.all fFinite && o.all fFinite && (p.count == 0 || rev || fFinite p.m) &&
    (q.desc.proofFmt || o.all (fun x => fFinite (fOfBf (bfOf x))))
  let i := q.desc.pairToken pair
  let fl := flags ||| (if q.desc.isShort start q.snap i then 2 else 0) |||
    (if q.desc.isTrunc start q.snap f.tpp i (q.pages.map (·.1)) then 4 else 0)
  if ok then some { o := o, m := if rev then q.bigL.getD pair 0#32 else p.m, l := p.l, count := p.count, flags := fl } else none

/-- A REVERSE that ends other than OK after a commit marks its layer's gradient dirty (R137). -/
def State.markDirty (s : State) (q : Request) (st : Status) : State :=
  if q.opcode = 0x21 && q.committed && st != .ok then
    match s.seqAt q.desc.handle with
    | some _ => s.modLayer (handleIdx q.desc.handle) q.desc.layer (fun l => { l with dirty := true })
    | none => s
  else s

/-- The record of a request's non-finite outcomes by pair and page (R51): the lowest head, its lowest page, and how many heads met one. -/
def nonfiniteRec (q : Request) (l : List (Nat × Nat)) : ErrRec :=
  let l := l.map (fun e => (q.desc.pairHead e.1, e.2))
  let heads := (l.map (·.1)).eraseDups
  let h := heads.foldl min (heads.headD 0)
  let pages := (l.filter (fun e => e.1 == h)).map (·.2)
  { ErrRec.of .nonfinite q.ridge .none with
    count := heads.length, layer := q.desc.layer, head := h, page := pages.foldl min (pages.headD 0), noPage := false }

/-- A request ends with the first of its causes (R115). -/
def State.finishFailed (s : State) (slot : Nat) (st : Status) : State :=
  match s.reqs.get? slot with
  | none => s
  | some q =>
    let s := if q.nonfin.isEmpty then s else s.failReq slot .nonfinite (nonfiniteRec q q.nonfin)
    (s.complete slot (q.fail.getD st) 0 0 0).markDirty q (q.fail.getD st)

/-- Every contribution that is still to be committed (R134). -/
def State.commitAll (s : State) (slot : Nat) : State :=
  match s.reqs.get? slot with
  | none => s
  | some q => (sortBy (fun a b => decide (a ≤ b)) ((q.contribs.map (·.1)).eraseDups)).foldl (fun s p => s.commitPage slot p) s

/-- The non-finite outcomes of a merge or a finish (R48, R49, R51), for the pairs that no item failed: each names the lowest page that the
pair has a partial of. -/
def Request.mergeFails (q : Request) (es : List (Nat × Option REntry)) : List (Nat × Nat) :=
  ((es.filter (fun e => e.2.isNone && !q.nonfin.any (fun n => n.1 == e.1))).map (·.1)).map (fun p =>
    let pages := (q.parts.filter (fun x => x.2.2.1 == p && decide (0 < x.2.2.2.count))).map (·.1)
    (p, pages.foldl min (pages.headD 0)))

/-- The lead cirque's last fold and finishing of a DEVELOP or REVERSE, and its delivery (R49, R145). A request that an item has failed with
NONFINITE is folded and finished too, so that its record names the lowest head of all (R51). -/
def State.finishAttend (s : State) (slot : Nat) : State :=
  match s.reqs.get? slot with
  | none => s
  | some q =>
    let late := decide (q.deadline < s.now)
    if q.fail.isSome && q.fail != some .nonfinite then s.finishFailed slot .nonfinite
    else if q.fail.isNone && late && q.lateDiscard then s.finishFailed slot .discarded
    else
      match s.seqs.get? (handleIdx q.desc.handle) with
      | none => s
      | some sq =>
        let flags := (if q.approx then 1 else 0) + (if late then 8 else 0)
        let es := (List.range q.desc.pairs).map (fun p => (p, q.entry sq.fmt sq.start flags p))
        let bad := q.nonfin ++ q.mergeFails es
        if !bad.isEmpty then
          (s.modReq slot (fun q => { q with nonfin := bad, fail := some .nonfinite })).finishFailed slot .nonfinite
        else
          let s := s.commitAll slot
          match s.reqs.get? slot with
          | none => s
          | some q =>
            if q.fail.isSome then s.finishFailed slot .uncorrectable
            else
              let es := es.filterMap (·.2)
              let o := q.desc.outOf
              let h : RHead := { kind := if q.opcode = 0x21 then 1 else 0, fp32 := q.desc.proofFmt, tag := q.tag, d := sq.fmt.d,
                                 pairs := q.desc.pairs, contrib := s.nodeNo, missing := 0, bytes := 0, exposure := q.exposure,
                                 flags := 0, imm := if o.out = 2 then 0 else o.imm }
              let fl := orFlags es
              let s := if q.opcode = 0x20 then
                  let s := if fl.testBit 0 then s.bumpR q.ridge 9 else s
                  let s := if fl.testBit 1 then s.bumpR q.ridge 10 else s
                  if fl.testBit 2 then s.bumpR q.ridge 11 else s
                else s
              let s := s.modReq slot (fun q => { q with flags := fl, final := .ok })
              s.deliverOut slot (buildRecord h es)

/-- The dense phase of a request has nothing left (R145); a REVERSE with commits to make waits for those started before it. -/
def State.denseDone (s : State) (slot : Nat) (q : Request) : Bool :=
  q.phase == .dense && q.todo.isEmpty && (s.unfolded slot).isEmpty && (q.contribs.isEmpty || q.fail.isSome || !s.revBefore q)

-- Admission.

/-- What admission fixes of a DEVELOP or REVERSE: the committed count, the pages held, the open page and the program (R66,
R105, R106). -/
def State.fixAttend (s : State) (c : Cmd) (sq : SeqD) (q : Request) : Request :=
  let l := sq.layer c.d.layer
  { q with snap := l.next, pages := l.pages, openPage := (s.openPage l).map (·.1),
           awaiting := (l.pages.filter (fun e => ((s.pages.get? e.2).bind (·.want)).isSome)).map (·.1),
           prog := if c.d.mprogEn then s.progOf c.ridge c.d.mprogSlot else none }

/-- Allocate the gradient pages a REVERSE needs, all or none (R136). -/
def State.allocGrads (s : State) (idx layer : Nat) (ns : List Nat) : Except WErr State :=
  match ns with
  | [] => .ok s
  | n :: rest =>
    if ((s.seqs.get? idx).bind (fun q => (q.layer layer).grads.get? n)).isSome then s.allocGrads idx layer rest
    else
      match s.allocPage idx layer n true with
      | .error e => .error e
      | .ok (s, _) => s.allocGrads idx layer rest

-- GRAD_SEND and GRAD_CLEAR (R137, R139).

/-- A gradient range as page number and records in it: for each page it meets, the first and one past the last record. -/
def SeqD.gradSpan (q : SeqD) (n lo hi : Nat) : Nat × Nat :=
  let a := q.start + n * q.fmt.gtpp
  (max lo a - a, min (hi + 1) (a + q.fmt.gtpp) - a)

/-- Zero a range of a layer's gradient; free the pages it wholly covers, unless an unfinished REVERSE may commit to them. -/
def State.clearGrads (s : State) (idx layer lo hi : Nat) (free : Bool) : State :=
  match s.seqs.get? idx with
  | none => s
  | some q =>
    let h := handleOf idx q.gen
    (q.layer layer).grads.foldl (fun s e =>
      let (a, b) := q.gradSpan e.1 lo hi
      if b ≤ a then s
      else if free && a = 0 && b = q.fmt.gtpp && !s.gradReaders h layer then
        (s.modLayer idx layer (fun l => { l with grads := l.grads.erase e.1 })).dropRef e.2
      else
        let off := a * q.fmt.gradBytes
        let len := (b - a) * q.fmt.gradBytes
        let hit (g : Nat) : Bool := decide (8 * 256 + off ≤ 256 * g) && decide (256 * (g + 1) ≤ 8 * 256 + off + len)
        ((s.modPage e.2 (fun p => { p with
          payload := putBytes (sliceBytes p.payload 0 p.coded) off (List.replicate len 0#8)
          bad := p.bad.filter (fun g => !hit g)
          injected := p.injected.filter (fun g => !hit g) })).rewritten e.2 hit).dramWrite (slotCirque e.2) (touched off len)) s

/-- The gradient records of a range in position order, 0 where there is no page; or the granule that fails. -/
def State.gradRecords (s : State) (q : SeqD) (layer lo n : Nat) : Except (Nat × Nat × Page) (List (List Byte)) :=
  match n with
  | 0 => .ok []
  | n + 1 =>
    let pos := lo + n
    let zero := List.replicate q.fmt.gradBytes 0#8
    match s.gradRecords q layer lo n with
    | .error e => .error e
    | .ok l =>
      if pos < q.start then .ok (l ++ [zero])
      else
        let j := (pos - q.start) % q.fmt.gtpp
        match ((q.layer layer).grads.get? ((pos - q.start) / q.fmt.gtpp)).bind (fun k => (s.pages.get? k).map (fun p => (k, p))) with
        | none => .ok (l ++ [zero])
        | some (k, p) =>
          let off := j * q.fmt.gradBytes
          match p.bad.find? (fun g => decide (8 + off / 256 ≤ g) && decide (g < 8 + off / 256 + touched off q.fmt.gradBytes)) with
          | some g => .error (k, g, p)
          | none => .ok (l ++ [sliceBytes p.payload off q.fmt.gradBytes])

/-- One gradient record without its rotation (R39, R139). -/
def Fmt.unrotRecord (f : Fmt) (rec : List Byte) : List Byte :=
  (List.range (2 * f.hkv)).flatMap (fun i =>
    vecBytes (f.unrotate (i / f.hkv) (i % f.hkv) (fWords f.d (4 * f.d * i) rec)))

def gradChecks (send : Bool) (s : State) (c : Cmd) : List (Bool × Status) :=
  match s.seqOf c.ridge c.d.handle with
  | none => [(false, .badHandle)]
  | some q =>
    [((q.state == .opened || q.state == .sealed) && q.hasLayer c.d.layer && (!send || !(q.layer c.d.layer).dirty), .stateConflict),
     (!send || decide ((c.d.rangeHi + 1 - c.d.rangeLo) * q.fmt.gradBytes ≤ 8388608), .badLength),
     (decide (c.d.rangeLo ≤ c.d.rangeHi) && s.tagParams c.d false && (!send || s.outParams c), .badParam)]

/-- GRAD_SEND (R139): the range is cleared when the destination acknowledges, at OUTPUT_DELIVERED. -/
def execGradSend (t : Nat) (src : Src) (d : Desc) (s : State) : Host.Outcome State Fault Refusal :=
  s.command t src d [] gradSendLayout (gradChecks true) (fun s c =>
    match s.seqOf c.ridge c.d.handle with
    | none => s
    | some q =>
      let (s, slot) := s.admitReq c .engine id
      match s.gradRecords q c.d.layer c.d.rangeLo (c.d.rangeHi + 1 - c.d.rangeLo) with
      | .ok l => s.deliverOut slot (l.flatMap (fun r => if c.d.unrot then q.fmt.unrotRecord r else r))
      | .error (k, g, p) =>
        let (s, e) := s.pageErr k g p .uncorr
        s.failNow slot .uncorrectable e)

/-- A GRAD_CLEAR of the whole layer (R137). -/
def SeqD.wholeLayer (q : SeqD) (d : Desc) : Bool :=
  decide (d.rangeLo ≤ q.start) && (d.rangeHi == posHiLast || decide ((q.layer d.layer).next ≤ d.rangeHi + 1))

/-- GRAD_CLEAR (R139); of the whole layer it removes the dirty mark (R137). -/
def execGradClear (t : Nat) (src : Src) (d : Desc) (s : State) : Host.Outcome State Fault Refusal :=
  s.command t src d [] gradClearLayout (gradChecks false) (fun s c =>
    match s.seqOf c.ridge c.d.handle with
    | none => s
    | some q =>
      let idx := handleIdx c.d.handle
      let s := s.clearGrads idx c.d.layer c.d.rangeLo c.d.rangeHi c.d.gFree
      let s := if q.wholeLayer c.d then s.modLayer idx c.d.layer (fun l => { l with dirty := false }) else s
      s.quick c .ok 0 0)

-- Microprogram slots (R105).

/-- MPROG_LOAD (R105): the new version. -/
def execMprogLoad (t : Nat) (h : MbxHdr) (slot : Nat) (words consts : List W32) (s : State) : Host.Outcome State Fault Refusal :=
  s.mbox t (.mprogLoad t h slot words consts) h 0x0030 .any (fun s => withRidge h s (fun r =>
    if 15 < slot || !mprogOk words consts then .no s .invalidArg
    else if !s.ridgeUp r then .no s .stateConflict
    else
      let last := (((s.ridge r).mprogs.get? slot).map (·.last)).getD 0
      let v := if last = 65535 then 1 else last + 1
      .ok (s.modRidge r (fun g => { g with mprogs := g.mprogs.set slot { prog := some (words, consts), last := v } })) [v]))

/-- MPROG_CLEAR (R105): the slot is empty and reports version 0. -/
def execMprogClear (t : Nat) (h : MbxHdr) (slot : Nat) (s : State) : Host.Outcome State Fault Refusal :=
  s.mbox t (.mprogClear t h slot) h 0x0031 .any (fun s => withRidge h s (fun r =>
    if 15 < slot then .no s .invalidArg
    else if !s.ridgeUp r then .no s .stateConflict
    else .ok (s.modRidge r (fun g => { g with mprogs := g.mprogs.adjust slot (fun m => { m with prog := none }) })) [0]))

end Sys2Proof.Machine
end

