-- ==== Sys2Proof/Machine/Contour.lean ====
section
/-! DEFINITION. Contour (R209 to R241): indexes and page-sketch regions, INSERT and DELETE, QUERY, and the background merge.
Log entries 3, 35, 70. -/

namespace Sys2Proof

open Sys2Proof.Machine

-- Parameters (R211 to R213, R225).

/-- Every parameter lies in its range (R213). -/
def IndexParams.ok (p : IndexParams) : Bool :=
  decide (p.metric ≤ 2) && decide (16 ≤ p.dim) && decide (p.dim ≤ 2048) && p.dim % 16 == 0 && decide (p.efmt ≤ 1) &&
  decide (p.skw ≤ 2) && (p.metric == 0 || (fFinite p.maxNorm && fLt 0#32 p.maxNorm)) && !p.cirques.isEmpty &&
  decide (1 ≤ p.stripes) && decide (p.stripes + 1 ≤ 64365 / p.stripeRows) && decide (4096 ≤ p.sideCap) &&
  decide (p.sideCap ≤ 1048576) && decide (1 ≤ p.eighths) && decide (p.eighths ≤ 7)

/-- M2 of R211. -/
def IndexParams.m2 (p : IndexParams) : W32 := fMul p.maxNorm p.maxNorm

/-- 0.25, 0.5 and 2 in FP32. -/
def fQuarter : W32 := 0x3E800000#32
def fHalf : W32 := 0x3F000000#32
def fTwo : W32 := 0x40000000#32

/-- The stored vector, augmented (R211); n is its squared norm. -/
def IndexParams.augment (p : IndexParams) (x : List W32) (n : W32) : List W32 :=
  if p.metric = 0 then x
  else if p.metric = 1 then x ++ [fSqrt (fMax 0#32 (fSub p.m2 n))]
  else
    let h := fMul (fNeg fHalf) n
    let e2 := fAdd p.m2 (fMul fQuarter (fMul p.m2 p.m2))
    x ++ [h, fSqrt (fMax 0#32 (fSub e2 (fAdd n (fMul h h))))]

/-- The query, augmented (R211). -/
def IndexParams.augmentQuery (p : IndexParams) (q : List W32) : List W32 :=
  if p.metric = 0 then q else if p.metric = 1 then q ++ [0#32] else q ++ [fOne, 0#32]

/-- R212: a vector the index refuses. -/
def IndexParams.normBad (p : IndexParams) (n : W32) : Bool := if p.metric = 0 then fIsZero n else fLt p.m2 n

def Desc.queryC (d : Desc) : Nat := d.k * d.os
def Desc.queryMax (d : Desc) : Nat := d.k * d.os * max 1 d.widen

end Sys2Proof

namespace Sys2Proof.Machine

open Sys2Proof

def Index.modPart (x : Index) (c : Nat) (f : IndexPart → IndexPart) : Index := { x with parts := x.parts.set c (f (x.part c)) }
def State.modPart (s : State) (key c : Nat) (f : IndexPart → IndexPart) : State := s.modIndex key (fun x => x.modPart c f)

-- Handles (R215, R216).

def indexNo (h : Nat) : Nat := h % 16
def indexHandle (no gen : Nat) : Nat := gen * 16 + no

/-- The index that a handle names in a ridge. -/
def State.indexOf (s : State) (r h : Nat) : Option Index :=
  match s.indexes.get? (indexKey r (indexNo h)) with
  | none => none
  | some x => if h / 16 ≠ 0 ∧ x.gen = h / 16 then some x else none

/-- The generation after one; never 0. -/
def nextIndexGen (g : Nat) : Nat := if g = 268435455 then 1 else g + 1

/-- A pattern of n 64-bit draws (R216, R236). -/
def State.drawPattern (s : State) (n : Nat) : Nat × State :=
  match n with
  | 0 => (0, s)
  | n + 1 =>
    let (v, s) := s.draw
    let (w, s) := s.drawPattern n
    (v.toNat + w * 2 ^ 64, s)

/-- Row groups and slots for an index in one cirque (R215). -/
def State.reserveIn (s : State) (p : IndexParams) (c : Nat) : Option (List Nat × List Nat) :=
  match s.findGroups c ((p.stripes + 1) * p.stripeRows) with
  | none => none
  | some gs => (s.findSlots c p.extraSlots gs).map (fun ex => (gs, ex))

/-- Row groups and slots for an index in each of some cirques, all or none (R215). -/
def State.reserveIndex (s : State) (p : IndexParams) (cs : List Nat) : Option (FMap (List Nat) × FMap (List Nat)) :=
  match cs with
  | [] => some ([], [])
  | c :: rest =>
    match s.reserveIn p c with
    | none => none
    | some g => (s.reserveIndex p rest).map (fun r => (r.1.set c g.1, r.2.set c g.2))

/-- CTR_CREATE (R213, R215, R216); refused in node drain (R427). Its index section is zeroed (R407). -/
def execCtrCreate (t : Nat) (h : MbxHdr) (p : IndexParams) (s : State) : Host.Outcome State Fault Refusal :=
  s.mbox t (.ctrCreate t h p) h 0x003C .any (fun s => withRidge h s (fun r =>
    if !p.ok || !p.cirques.all (fun c => (s.ridge r).p.cirques.contains c) then .no s .invalidArg
    else if (s.ridge r).state ≠ .opened || s.health.drain then .no s .stateConflict
    else
      match (List.range 16).find? (fun x => (s.indexes.get? (indexKey r x)).isNone) with
      | none => .no s .noSpace
      | some x =>
        match s.reserveIndex p p.cirques with
        | none => .no (s.bumpR r 3) .noPages
        | some (gs, ex) =>
          if s.boot.trngBad then .hw s .trng .security
          else
          let s := s.clearCtrs (fun c => match c with
            | .index q y _ => q == r && y == x
            | .ridge _ _ => false
            | .cirque _ _ => false
            | .bank _ _ => false
            | .node _ => false)
          let (w, s) := s.drawPattern (p.width / 64)
          let (tag, s) := s.drawPattern 1
          let gen := (s.indexGens.get? (indexKey r x)).getD 1
          let (wgen, s) := s.claim (gs.map (fun e => groupSlots e.1 e.2) ++ ex.map (fun e => e.2.map (fun k => e.1 * slotsPerCirque + k)))
          let new : Index :=
            { p := p, gen := gen, commit := 0, whiteW := w, whiteT := tag, wgen := wgen, parts := [], groups := gs, extra := ex }
          .ok { s with indexes := s.indexes.set (indexKey r x) new } [indexHandle x gen]))

/-- A command that names an index is in flight (R216). -/
def State.indexBusy (s : State) (r h : Nat) : Bool :=
  s.reqs.any (fun e => e.2.ridge == r && [0x28, 0x29, 0x2A, 0x2B].contains e.2.opcode && e.2.desc.index == h && e.2.phase != .posted)

/-- CTR_DESTROY (R216): a running merge is abandoned with the index. -/
def execCtrDestroy (t : Nat) (h : MbxHdr) (index : Nat) (s : State) : Host.Outcome State Fault Refusal :=
  s.mbox t (.ctrDestroy t h index) h 0x003D .any (fun s => withRidge h s (fun r =>
    match s.indexOf r index with
    | none => .no s .invalidArg
    | some x =>
      if s.indexBusy r index then .no s .busy
      else .ok { s with indexes := s.indexes.erase (indexKey r (indexNo index)),
                        indexGens := s.indexGens.set (indexKey r (indexNo index)) (nextIndexGen x.gen) } []))

-- Page-sketch regions (R236).

/-- Row groups in every cirque of a ridge, all or none. -/
def State.reserveGroups (s : State) (n : Nat) (cs : List Nat) : Option (FMap (List Nat)) :=
  match cs with
  | [] => some []
  | c :: rest =>
    match s.findGroups c n with
    | none => none
    | some gs => (s.reserveGroups n rest).map (fun m => m.set c gs)

/-- PSKR_CREATE (R236): the rows are FILLed with the stored form of zero, a row operation each (R179). -/
def execPskrCreate (t : Nat) (h : MbxHdr) (width : Nat) (seed : BitVec 64) (groups : Nat) (s : State) :
    Host.Outcome State Fault Refusal :=
  s.mbox t (.pskrCreate t h width seed groups) h 0x003E .any (fun s => withRidge h s (fun r =>
    if !(width == 256 || width == 512) || groups < 1 || 64365 < groups then .no s .invalidArg
    else if (s.ridge r).state ≠ .opened then .no s .stateConflict
    else if (s.ridge r).pskr.isSome || 0 < s.seqCount r then .no s .busy
    else
      match s.reserveGroups groups (s.ridge r).p.cirques with
      | none => .no (s.bumpR r 3) .noPages
      | some gs =>
        if s.boot.trngBad then .hw s .trng .security
        else
        let (w, s) := s.drawPattern (width / 64)
        let (wgen, s) := s.claim (gs.map (fun e => groupSlots e.1 e.2))
        let s := gs.foldl (fun s e => s.countRows e.1 (groups * 256)) s
        .ok (s.modRidge r (fun g => { g with pskr := some { width := width, seed := seed, groups := groups, white := w, wgen := wgen,
                                                            rowGroups := gs, rows := [], nextBank := [] } })) []))

/-- PSKR_DESTROY (R236). -/
def execPskrDestroy (t : Nat) (h : MbxHdr) (s : State) : Host.Outcome State Fault Refusal :=
  s.mbox t (.pskrDestroy t h) h 0x003F .any (fun s => withRidge h s (fun r =>
    if (s.ridge r).pskr.isNone then .no s .invalidArg
    else if 0 < s.seqCount r then .no s .busy
    else .ok (s.modRidge r (fun g => { g with pskr := none })) []))

-- Vectors (R210 to R214).

/-- The FP32 values of a vector's bytes. -/
def vecOf (int8 : Bool) (dim : Nat) (bs : List Byte) : List W32 :=
  if int8 then (List.range dim).map (fun i => fOfInt (signExt 8 ((bs.getD i 0#8).toNat))) else bfVec dim bs

/-- Whether every element is finite. -/
def vecFinite (int8 : Bool) (dim : Nat) (bs : List Byte) : Bool :=
  int8 || (chunkLe 2 dim bs).all bfFinite

/-- The cirque of an item of an index (R73): by its key. -/
def Index.home (x : Index) (key : Nat) : Nat := x.p.cirques.getD (index73 key x.p.cirques.length) 0

-- Visibility (R221, R222, R224).

/-- A tombstone of the key, above a sequence and at most S. -/
def IndexPart.dead (p : IndexPart) (key seq sn : Nat) : Bool :=
  p.tombs.any (fun e => e.1 == key && decide (seq < e.2) && decide (e.2 ≤ sn))

/-- The main items of a part with their ordinals (R218). -/
def IndexPart.mains (p : IndexPart) : List (Nat × MainItem) :=
  p.stripes.flatMap (fun e => e.2.zipIdx.map (fun i => (e.1 * stripeItems + i.2, i.1)))

/-- The QUERY items of a part that a snapshot sees (R224). -/
def IndexPart.visible (p : IndexPart) (c sn : Nat) : List QItem :=
  (p.mains.filter (fun e => decide (e.2.seq ≤ sn) && !p.dead e.2.key e.2.seq sn)).map (fun e =>
    { k := c, side := false, order := e.1, key := e.2.key, tag := e.2.tag, n := e.2.n, vec := e.2.vec, sketch := e.2.sketch }) ++
  (p.side.filter (fun e => decide (e.seq ≤ sn) && !p.dead e.key e.seq sn)).map (fun e =>
    { k := c, side := true, order := e.seq * 1024 + e.pos, key := e.key, tag := e.tag, n := e.n, vec := e.vec, sketch := e.sketch })

/-- A key is live in a part: some item of it is visible now. -/
def IndexPart.live (p : IndexPart) (key now : Nat) : Bool := (p.visible 0 now).any (fun i => i.key == key)

/-- A QUERY of an index admitted before a point in the order has not completed. -/
def State.queryBefore (s : State) (r h order : Nat) : Bool :=
  s.reqs.any (fun e => e.2.ridge == r && e.2.opcode == 0x28 && e.2.desc.index == h && e.2.phase != .posted && decide (e.2.order < order))

/-- The side entries of a part that are not free: those in use, and those a switch retired while a QUERY may still read them (R220, R235). -/
def State.sideHeld (s : State) (r h : Nat) (p : IndexPart) : List Nat :=
  p.side.map (fun e => e.entry) ++ p.retired.flatMap (fun e => if s.queryBefore r h e.2 then e.1 else [])

/-- Side positions in use (R221, R235). -/
def State.sideUsed (s : State) (r h : Nat) (p : IndexPart) : Nat := (s.sideHeld r h p).length

-- The merge (R234, R235).

/-- A stripe that a merge at M rewrites: it holds an item that a tombstone at or below M deletes, or it has a free ordinal while side
items at or below M remain. -/
def IndexPart.rewrites (p : IndexPart) (m no : Nat) : Bool :=
  let l := (p.stripes.get? no).getD []
  l.any (fun i => p.dead i.key i.seq m) || (decide (l.length < stripeItems) && p.side.any (fun e => decide (e.seq ≤ m)))

/-- The next stripe a merge rewrites, from one on. -/
def IndexPart.nextStripe (p : IndexPart) (m no n : Nat) : Option Nat :=
  match n with
  | 0 => none
  | n + 1 => if p.rewrites m no then some no else p.nextStripe m (no + 1) n

/-- A commanded merge completes when no cirque of its index merges (R234). -/
def State.mergesDone (s : State) (r h : Nat) : State :=
  match s.indexOf r h with
  | none => s
  | some x =>
    if x.parts.any (fun e => e.2.merge.isSome) then s
    else (s.reqs.filter (fun e => e.2.ridge == r && e.2.opcode == 0x2B && e.2.phase == .engine && e.2.desc.index == h)).foldl
      (fun s e => s.complete e.1 .ok 0 0 0) s

/-- A merge goes on from a stripe, or ends: with side items left, every stripe was full (R235). The second value says that it has ended. -/
def State.mergeStep (s : State) (r h c m no : Nat) : State × Bool :=
  match s.indexOf r h with
  | none => (s, false)
  | some x =>
    let key := indexKey r (indexNo h)
    let p := x.part c
    match p.nextStripe m no (x.p.stripes - no) with
    | some next => (s.modPart key c (fun p => { p with merge := some (m, next) }), false)
    | none =>
      let s := s.modPart key c (fun p => { p with merge := none })
      (if p.side.any (fun e => decide (e.seq ≤ m)) then s.bump (.index r (indexNo h) 5) else s, true)

/-- The side list or the tombstone table of a part has reached MERGE_AT (R234). -/
def Index.mergeDue (x : Index) (p : IndexPart) : Bool :=
  let at_ := x.p.sideCap * x.p.eighths
  decide (at_ ≤ 8 * p.side.length) || decide (at_ ≤ 8 * p.tombs.length)

/-- A merge goes on from a stripe. At its end another follows where a CTR_MERGE came meanwhile, or where commits after its snapshot have left
a list at MERGE_AT (R234). -/
def State.mergeFrom (s : State) (r h c m no : Nat) : State :=
  match s.mergeStep r h c m no with
  | (s, false) => s
  | (s, true) =>
    match s.indexOf r h with
    | none => s
    | some x =>
      let p := x.part c
      if p.again || (decide (m < x.commit) && x.mergeDue p) then
        let s := s.modPart (indexKey r (indexNo h)) c (fun p => { p with again := false })
        (s.mergeStep r h c x.commit 0).1.mergesDone r h
      else s.mergesDone r h

/-- Start a merge of a cirque: its snapshot is the last committed sequence. Where one runs, a commanded one follows it (R234). -/
def State.startMerge (s : State) (r h c : Nat) (commanded : Bool) : State :=
  match s.indexOf r h with
  | none => s
  | some x =>
    if (x.part c).merge.isSome then
      if commanded then s.modPart (indexKey r (indexNo h)) c (fun p => { p with again := true }) else s
    else s.mergeFrom r h c x.commit 0

/-- After a commit: cirques whose side list or tombstone table has reached MERGE_AT start their merge (R234). -/
def State.mergeIfDue (s : State) (r h : Nat) : State :=
  match s.indexOf r h with
  | none => s
  | some x => x.p.cirques.foldl (fun s c => if x.mergeDue (x.part c) then s.startMerge r h c false else s) s

/-- A side item as a main item. -/
def SideEnt.main (e : SideEnt) : MainItem := { key := e.key, tag := e.tag, seq := e.seq, sketch := e.sketch, n := e.n, vec := e.vec }

/-- The part after a stripe is rewritten and switched at merge snapshot M (R235): `order` is the admission order of the switch. -/
def IndexPart.switched (p : IndexPart) (m no order : Nat) : IndexPart :=
  let kept := ((p.stripes.get? no).getD []).filter (fun i => !p.dead i.key i.seq m)
  let old := p.side.filter (fun e => decide (e.seq ≤ m))
  let gone := old.filter (fun e => p.dead e.key e.seq m)
  let moved := (sortBy (fun a b => decide (a.seq < b.seq) || (a.seq == b.seq && decide (a.pos ≤ b.pos)))
    (old.filter (fun e => !p.dead e.key e.seq m))).take (stripeItems - kept.length)
  let side := p.side.filter (fun e => !(gone.any (fun g => g.seq == e.seq && g.pos == e.pos) ||
    moved.any (fun g => g.seq == e.seq && g.pos == e.pos)))
  let stripes := p.stripes.set no (kept ++ moved.map (fun e => e.main))
  let holds (key seq : Nat) : Bool := stripes.any (fun e => e.2.any (fun i => i.key == key && decide (i.seq < seq))) ||
    side.any (fun e => e.key == key && decide (e.seq < seq))
  { p with stripes := stripes, side := side,
           tombs := p.tombs.filter (fun t => decide (m < t.2) || holds t.1 t.2),
           retired := [((gone ++ moved).map (fun e => e.entry), order)]
           place := p.place.set no p.spare
           spare := p.placeOf no
           old := (p.stripes.get? no).getD [] }

/-- STRIPE_SWITCH (R235): the running merge of a cirque has written its next stripe into the spare; the spare is free once every
QUERY admitted before the last switch has completed. Its row moves are ordinary reads and writes (R191), counted as the whole granules
of what the new stripe holds (log entry 84). -/
def execStripeSwitch (t : Nat) (ridge index cirque : Nat) (s : State) : Host.Outcome State Fault Refusal :=
  let s := s.advance t
  match s.indexes.get? (indexKey ridge index) with
  | none => .next s
  | some x =>
    let h := indexHandle index x.gen
    let p := x.part cirque
    match p.merge with
    | none => .next s
    | some (m, no) =>
      if s.frozen || p.retired.any (fun e => s.queryBefore ridge h e.2) then .next s
      else
        let q := p.switched m no s.nextOrder
        let n := x.p.granulesOf ((q.stripes.get? no).getD []).length
        let s := ((s.dramRead cirque n).dramWrite cirque n).modPart (indexKey ridge index) cirque (fun _ => q)
        .next ((s.bump (.index ridge index 4)).mergeFrom ridge h cirque m (no + 1))

/-- CTR_MERGE (R234): a merge in every cirque of the index. -/
def execCtrMerge (t : Nat) (src : Src) (d : Desc) (s : State) : Host.Outcome State Fault Refusal :=
  s.command t src d [] handleLayout
    (fun s c => [((s.indexOf c.ridge c.d.index).isSome, .badHandle), (s.tagParams c.d false, .badParam)])
    (fun s c =>
      match s.indexOf c.ridge c.d.index with
      | none => s
      | some x =>
        let (s, _) := s.admitReq c .engine id
        (x.p.cirques.foldl (fun s k => s.startMerge c.ridge c.d.index k true) s).mergesDone c.ridge c.d.index)

-- INSERT and DELETE (R221 to R223).

/-- An item of an INSERT: key, tag and vector bytes. -/
def insertItems (p : IndexParams) (n : Nat) (bs : List Byte) : List (Nat × BitVec 64 × List Byte) :=
  (List.range n).map (fun i =>
    let off := i * (16 + p.vecBytes)
    (leAt bs off 8, BitVec.ofNat 64 (leAt bs (off + 8) 8), sliceBytes bs (off + 16) p.vecBytes))

/-- No element occurs twice. -/
def noRepeats (l : List Nat) : Bool :=
  match l with
  | [] => true
  | a :: rest => !rest.contains a && noRepeats rest

/-- The side entry of an item (R221), as the entry of a number. -/
def Index.sideEnt (x : Index) (seq pos entry : Nat) (i : Nat × BitVec 64 × List Byte) : SideEnt :=
  let v := vecOf (x.p.efmt = 1) x.p.dim i.2.2
  let n := dot214 v v
  { key := i.1, tag := i.2.1, seq := seq, pos := pos, sketch := sketchOf x.p.seed x.p.width (x.p.augment v n), n := n, vec := i.2.2,
    entry := entry }

/-- A command completes with SIDE_FULL and a retry-after that the spec does not compute (R221). -/
def State.sideFull (s : State) (slot r no : Nat) : State :=
  let (v, s) := s.drawNat
  (s.bump (.index r no 6)).complete slot .sideFull 0 (v % 4294967296) 0

/-- A command completes with STATE_CONFLICT after its source was read. -/
def State.conflictLate (s : State) (slot r op : Nat) : State := (s.countSC r op).complete slot .stateConflict 0 0 0

/-- The items of an INSERT are committed, or none (R221). -/
def State.commitInsert (s : State) (slot : Nat) (c : Cmd) (x : Index) (bs : List Byte) : State :=
  let h := c.d.index
  let no := indexNo h
  let items := insertItems x.p c.d.k bs
  let norms := items.map (fun i => let v := vecOf (x.p.efmt = 1) x.p.dim i.2.2; dot214 v v)
  if !items.all (fun i => vecFinite (x.p.efmt = 1) x.p.dim i.2.2) then
    s.failNow slot .nonfinite (ErrRec.of .nonfinite c.ridge .none)
  else if norms.any x.p.normBad then s.complete slot .normLimit 0 0 0
  else if !noRepeats (items.map (·.1)) || items.any (fun i => (x.part (x.home i.1)).live i.1 x.commit) then
    s.conflictLate slot c.ridge c.d.opcode
  else if x.p.cirques.any (fun q => decide (x.p.sideCap <
      s.sideUsed c.ridge h (x.part q) + (items.filter (fun i => x.home i.1 == q)).length)) then s.sideFull slot c.ridge no
  else
    let seq := x.commit + 1
    let key := indexKey c.ridge no
    let s := s.modIndex key (fun x => items.zipIdx.foldl (fun x e =>
      x.modPart (x.home e.1.1) (fun p =>
        let held := s.sideHeld c.ridge h p
        { p with side := p.side ++ [x.sideEnt seq e.2 (lowestNot held held.length 0) e.1] })) { x with commit := seq })
    (s.complete slot .ok 0 seq 0).mergeIfDue c.ridge h

/-- The keys of a DELETE are committed as tombstones, or none (R222). -/
def State.commitDelete (s : State) (slot : Nat) (c : Cmd) (x : Index) (bs : List Byte) : State :=
  let h := c.d.index
  let no := indexNo h
  let keys := chunkLe 8 c.d.k bs
  if !noRepeats keys || keys.any (fun k => !(x.part (x.home k)).live k x.commit) then s.conflictLate slot c.ridge c.d.opcode
  else if x.p.cirques.any (fun q => decide (x.p.sideCap < (x.part q).tombs.length + (keys.filter (fun k => x.home k == q)).length)) then
    s.sideFull slot c.ridge no
  else
    let seq := x.commit + 1
    let s := s.modIndex (indexKey c.ridge no) (fun x => keys.foldl (fun x k =>
      x.modPart (x.home k) (fun p => { p with tombs := p.tombs ++ [(k, seq)] })) { x with commit := seq })
    (s.complete slot .ok 0 seq 0).mergeIfDue c.ridge h

def indexChecks (s : State) (c : Cmd) : List (Bool × Status) :=
  match s.indexOf c.ridge c.d.index with
  | none => [(false, .badHandle)]
  | some x => [(c.inlineOk (c.d.itemBytes x.p), .badLength), (s.tagParams c.d false && s.srcParams c, .badParam)]

/-- INSERT (R221). -/
def execInsert (t : Nat) (src : Src) (d : Desc) (data : Option (List Byte)) (s : State) : Host.Outcome State Fault Refusal :=
  s.command t src d (inlineOf d data) insertLayout indexChecks (fun s c =>
    match s.indexOf c.ridge c.d.index with
    | none => s
    | some x =>
      let (s, got) := s.source c (c.d.itemBytes x.p) data
      let (s, slot) := s.admitReq c .engine id
      match got with
      | none => s.failNow slot .queryFault (ErrRec.of .queryFault c.ridge .none)
      | some bs => s.commitInsert slot c x bs)

/-- DELETE (R222). -/
def execDelete (t : Nat) (src : Src) (d : Desc) (data : Option (List Byte)) (s : State) : Host.Outcome State Fault Refusal :=
  s.command t src d (inlineOf d data) insertLayout indexChecks (fun s c =>
    match s.indexOf c.ridge c.d.index with
    | none => s
    | some x =>
      let (s, got) := s.source c (c.d.itemBytes x.p) data
      let (s, slot) := s.admitReq c .engine id
      match got with
      | none => s.failNow slot .queryFault (ErrRec.of .queryFault c.ridge .none)
      | some bs => s.commitDelete slot c x bs)

-- QUERY (R225 to R232).

/-- Checks 4 to 8 of a QUERY (R225). -/
def queryChecks (s : State) (c : Cmd) : List (Bool × Status) :=
  match s.indexOf c.ridge c.d.index with
  | none => [(false, .badHandle)]
  | some x =>
    [(decide (c.d.queryMax ≤ 65536) && c.inlineOk (c.d.queryBytes x.p), .badLength),
     (c.d.widen != 1 && decide (4 ≤ c.d.os) && (!c.d.qInt8 || x.p.efmt == 1) && s.tagParams c.d true && s.srcParams c && s.outParams c,
      .badParam)]

/-- The segments of the thin pass over one block of a bank (R217, R226), from the block's first row group and the tags of its ordinals in the
bank (those without an item hold plain zero): every occupied sketch row; under a filter LOAD of the tag row and THRESH of each sketch row,
then XORPOP of the rows with a match. -/
def Index.blockSegs (x : Index) (d : Desc) (tag c k : Nat) (tags : List (BitVec 64)) : List (List CairnOp) :=
  let sn := sketchesPerRow x.p.width
  let row (r : Nat) : Nat := groupRow (((x.groups.get? c).getD []).getD (k + r) 0)
  let rows := List.range (ceilDiv tags.length sn)
  let pop (r : Nat) : CairnOp := thinOp 8 (row (r + 1)) x.p.skw tag
  if !d.filterEn then [rows.map pop]
  else
    let thresh (r : Nat) : CairnOp := { thinOp 9 (row (r + 1)) x.p.skw tag with
      predEn := true, predInv := d.predInv, thr := x.p.width, tagq := r, pmask := d.pmask
      pval := d.pval ^^^ (BitVec.ofNat 64 x.whiteT &&& d.pmask) }
    let hit := rows.filter (fun r => (List.range sn).any (fun i => d.predTag (tags.getD (r * sn + i) 0)))
    [thinOp 0 (row 0) x.p.skw tag :: rows.map thresh] ++ (if hit.isEmpty then [] else [hit.map pop])

/-- The thin pass in a cirque over the occupied rows of its main region (R226): banks, the query sketch xor W as latch image (R216), and
descriptors. -/
def Index.thinSegs (x : Index) (d : Desc) (qs tag c : Nat) : List (Nat × Nat × List CairnOp) :=
  let pt := x.part c
  (List.range 256).flatMap (fun j =>
    pt.stripes.flatMap (fun e =>
      let tags := (List.range (ceilDiv (e.2.length - j) 256)).map (fun u => ((e.2[u * 256 + j]?).map (fun i => i.tag)).getD 0)
      (List.range (ceilDiv tags.length 224)).flatMap (fun b =>
        (x.blockSegs d tag c (pt.placeOf e.1 * x.p.stripeRows + b * (x.p.sketchRows + 1)) ((tags.drop (b * 224)).take 224)).map
          (fun l => (j, qs ^^^ x.whiteW, l)))))

/-- The sketch of a QUERY's query. -/
def Index.querySketch (x : Index) (q : Request) : Nat := sketchOf x.p.seed x.p.width (x.p.augmentQuery (q.query.getD 0 []))

/-- The thin pass of a QUERY begins in every cirque of its index (R226). -/
def State.beginQuery (s : State) (slot : Nat) (x : Index) : State :=
  let s := s.modReq slot (fun q => { q with phase := .thin, list := [] })
  match s.reqs.get? slot with
  | none => s
  | some q =>
    let qs := x.querySketch q
    x.p.cirques.foldl (fun s c => s.thinRows slot c q.ridge (x.thinSegs q.desc qs (granuleTag q.ridge x.wgen) c)) s

/-- A QUERY's operands are at hand (R225): a query that is not finite, or zero under cosine, ends it. -/
def State.queryPrepared (s : State) (slot : Nat) (bs : List Byte) : State :=
  match s.reqs.get? slot with
  | none => s
  | some q =>
    match s.indexOf q.ridge q.desc.index with
    | none => s
    | some x =>
      let v := vecOf q.desc.qInt8 x.p.dim bs
      if !vecFinite q.desc.qInt8 x.p.dim bs || (x.p.metric == 0 && v.all fIsZero) then s.queryNonfinite slot 0 []
      else
        let s := (s.modReq slot (fun q => { q with query := [v], data := [] })).dropQuery q
        s.beginQuery slot x

/-- The order of candidates in a cirque (R227): distance, main before side, ordinal or commit order. -/
def candLe (a b : Nat × QItem) : Bool :=
  decide (a.1 < b.1) || (a.1 == b.1 && ((!a.2.side && b.2.side) || (a.2.side == b.2.side && decide (a.2.order ≤ b.2.order))))

/-- The lead cirque's order: the cirque after the distance. -/
def leadLe (a b : Nat × QItem) : Bool :=
  decide (a.1 < b.1) || (a.1 == b.1 && (decide (a.2.k < b.2.k) || (a.2.k == b.2.k && candLe a b)))

/-- Items of 64 candidates for each cirque among some candidates (R228): `head` 0 for the first C, 1 for reserves. -/
def candItems (slot head : Nat) (cs : List Nat) (l : List QItem) : List Item :=
  cs.flatMap (fun c => (List.range (ceilDiv (l.filter (fun i => i.k == c)).length 64)).map (fun b =>
    { req := slot, page := c, head := head, block := b, run := 1, avoid := [] }))

/-- Create the dense items of a QUERY. -/
def State.denseQuery (s : State) (slot : Nat) (items : List Item) : State :=
  let s := (s.modReq slot (fun q => { q with phase := .dense, todo := q.todo ++ items })).topUp slot
  (match s.reqs.get? slot with
    | some q => (s.ridge q.ridge).p.cirques
    | none => []).foldl (fun s c => s.preempt c) s

/-- The distances of a QUERY's thin pass are in (R227): its candidates and reserves are chosen. `snap` is S, `result0` the number of
visible matching items. -/
def State.chooseCands (s : State) (slot : Nat) (q : Request) (x : Index) : State :=
  let qs := x.querySketch q
  let match_ := q.items.filter (fun i => q.desc.matchTag i.tag)
  let dist := match_.map (fun i => (hamming x.p.width i.sketch qs, i))
  let best := x.p.cirques.flatMap (fun c => (sortBy candLe (dist.filter (fun e => e.2.k == c))).take q.desc.queryMax)
  let order := ((sortBy leadLe best).take q.desc.queryMax).map (·.2)
  let s := (s.releaseHolder slot).modReq slot (fun q => { q with items := order, result0 := match_.length, list := [] })
  s.denseQuery slot (candItems slot 0 x.p.cirques (order.take q.desc.queryC))

/-- The physical stripe and the block of a bank row of an index (R217). -/
def Index.blockOf (x : Index) (c row : Nat) : Option (Nat × Nat) :=
  (indexIn ((x.groups.get? c).getD []) (row - 1171)).map (fun k => (k / x.p.stripeRows, k % x.p.stripeRows / (x.p.sketchRows + 1)))

/-- The thin pass of a QUERY has ended (R226, R233): `err` is what the logic die's own reads met, where it made any. -/
def State.thinQuery (s : State) (slot : Nat) (err : MemErr) : State :=
  match s.reqs.get? slot with
  | none => s
  | some q =>
    match s.indexOf q.ridge q.desc.index with
    | none => s
    | some x =>
      match q.list with
      | [] => s.chooseCands slot q x
      | e :: _ =>
        let c := e.1 / 256
        if err.aborts then
          let mine := q.items.filter (fun i => i.k == c && !i.side && i.order % stripeItems % 256 == e.1 % 256 &&
            x.blockOf c e.2 == some ((x.part c).placeOf (i.order / stripeItems), i.order % stripeItems / 256 / 224))
          let (v, s) := s.drawNat
          let o := ((mine[v % max 1 mine.length]?).map (·.order)).getD 0
          let comp : Comp := .stack (bankStack c (e.1 % 256))
          let s := (s.bumpN 2049).weigh comp 200 false
          s.failNow slot .uncorrectable { ErrRec.of (if err = .misplaced then .misplaced else .uncorr) q.ridge comp with page := o }
        else
          let s := if err = .corrected then (s.bumpN 2048).weigh (.stack (bankStack c (e.1 % 256))) 1 false else s
          s.chooseCands slot q x

/-- The score of an item (R228). -/
def queryScore (p : IndexParams) (q : List W32) (nq : W32) (i : QItem) : W32 :=
  let dot := dot214 q (vecOf (p.efmt = 1) p.dim i.vec)
  if p.metric = 0 then fDiv dot (fSqrt (fMul nq i.n))
  else if p.metric = 1 then dot
  else fSub (fAdd nq i.n) (fMul fTwo dot)

/-- The score is better, or as good with the lower key (R228). A score that is not a number stands at the open value `nan`. -/
def scoreLe (lower : Bool) (nan : W32) (a b : W32 × QItem) : Bool :=
  let v (x : W32) : W32 := if fIsNaN x then (if fIsNaN nan then 0#32 else nan) else x
  let x := v a.1
  let y := v b.1
  if lower then fLt x y || (!fLt y x && decide (a.2.key ≤ b.2.key)) else fLt y x || (!fLt x y && decide (a.2.key ≤ b.2.key))

/-- The result record (R231). -/
def queryRecord (q : Request) (x : Index) (node imm : Nat) (late widened : Bool) (reranked : Nat) (qs : Nat) (l : List (W32 × QItem)) :
    List Byte :=
  let short := decide (l.length < q.desc.k)
  leBytes 4 (1 + flagBit short 8 + flagBit widened 9 + flagBit late 10 + q.tag * 65536) ++
  leBytes 4 (l.length + x.p.metric * 2048) ++ leBytes 4 node ++ leBytes 4 (64 + 16 * l.length) ++ leBytes 8 q.exposure ++
  leBytes 8 q.snap ++ leBytes 8 (if short then q.result0 else 0) ++ leBytes 4 imm ++ leBytes 4 reranked ++ List.replicate 16 0#8 ++
  l.flatMap (fun e => leBytes 8 e.2.key ++ leBytes 4 e.1.toNat ++
    leBytes 4 (hamming x.p.width e.2.sketch qs + flagBit e.2.side 11))

/-- The k best of some candidates (R228). -/
def bestOf (x : Index) (q : Request) (nan : W32) (l : List QItem) : List (W32 × QItem) :=
  let v := q.query.getD 0 []
  let nq := dot214 v v
  (sortBy (scoreLe (x.p.metric == 2) nan) (l.map (fun i => (queryScore x.p v nq i, i)))).take q.desc.k

/-- A best candidate stands at position ⌈3C/4⌉ or later (R229), positions counted from 0. -/
def tailHit (c : Nat) (order : List QItem) (best : List (W32 × QItem)) : Bool :=
  best.any (fun e => (order.drop (ceilDiv (3 * c) 4)).contains e.2)

/-- The lead cirque's last step of a QUERY (R228 to R231): `approx` says that the reserves have been re-ranked. -/
def State.finishQuery (s : State) (slot : Nat) : State :=
  match s.reqs.get? slot with
  | none => s
  | some q =>
    let late := decide (q.deadline < s.now)
    if q.fail.isSome then s.finishFailed slot .uncorrectable
    else if late && q.lateDiscard then s.finishFailed slot .discarded
    else
      match s.indexOf q.ridge q.desc.index with
      | none => s
      | some x =>
        let no := indexNo q.desc.index
        let c := q.desc.queryC
        let (nan, s) := s.drawNat
        let nan := BitVec.ofNat 32 nan
        let first := q.items.take c
        if 2 ≤ q.desc.widen && !q.approx && tailHit c first (bestOf x q nan first) && !(q.items.drop c).isEmpty then
          ((s.bump (.index q.ridge no 2)).modReq slot (fun q => { q with approx := true })).denseQuery slot
            (candItems slot 1 x.p.cirques (q.items.drop c))
        else
          let widened := q.approx || (decide (2 ≤ q.desc.widen) && tailHit c first (bestOf x q nan first))
          let s := if widened && !q.approx then s.bump (.index q.ridge no 2) else s
          let used := if q.approx then q.items else first
          let best := bestOf x q nan used
          let short := decide (best.length < q.desc.k)
          let s := if short then s.bump (.index q.ridge no 1) else s
          let o := q.desc.outOf
          let rec_ := queryRecord q x s.nodeNo (if o.out = 2 then 0 else o.imm) late widened used.length (x.querySketch q) best
          let s := s.modReq slot (fun q => { q with flags := (if short then 2 else 0) + (if late then 8 else 0), final := .ok,
                                                    result0 := q.snap })
          s.deliverOut slot rec_

/-- What admission fixes of a QUERY: the snapshot and the items it sees (R224, R235). -/
def Index.fixQuery (x : Index) (q : Request) : Request :=
  { q with snap := x.commit, items := x.p.cirques.flatMap (fun c => (x.part c).visible c x.commit) }

end Sys2Proof.Machine
end

