-- ==== Sys2Proof/Machine/Lease.lean ====
section
/-! DEFINITION. Leases (R446 to R448): who holds the role, lease records sent and taken, expiry, the reclaim of orphans.
Log entries 42. -/

namespace Sys2Proof.Machine

open Sys2Proof

/-- A peer record counts: ROLE matches, EXPIRES has not passed, and it is another device's (R446, R447). -/
def LeaseRec.valid (p : LeaseRec) (role now own : Nat) : Bool := p.role == role && decide (now < p.expires) && p.device != own

/-- The node's record ranks above the peer's (R447). -/
def LeaseRec.below (p : LeaseRec) (epoch node device : Nat) : Bool :=
  decide (p.epoch < epoch) ||
  (p.epoch == epoch && (decide (node < p.node) || (node == p.node && decide (device < p.device))))

/-- Does a lease hold its role now (R447)? -/
def Lease.holdsNow (l : Lease) (now node device : Nat) : Bool :=
  decide (now < l.p.expires) &&
  (match l.peerRec with
    | none => true
    | some p => !p.valid l.p.role now device || p.below l.p.epoch node device)

/-- The node's number in the description in force. -/
def State.leaseNode (s : State) : Nat :=
  match s.fab.cur with
  | some f => f.node
  | none => 0

def State.modLease (s : State) (r : Nat) (f : Lease → Lease) : State := s.modRidge r (fun g => { g with lease := g.lease.map f })

/-- Re-examine a ridge's lease; a change of holding is recorded and counted (R448). -/
def State.leaseCheck (s : State) (r : Nat) : State :=
  match (s.ridge r).lease with
  | none => s
  | some l =>
    let h := l.holdsNow s.now s.leaseNode s.boot.deviceId.toNat
    if h = l.holding then s
    else
      let s := s.modLease r (fun l => { l with holding := h, lostAt := if h then l.lostAt else s.now, reclaimed := false })
      (s.bumpN 2063).report (ErrRec.of .lease r .none)

/-- Examine every lease: a new description or identity may order records anew. -/
def State.leaseCheckAll (s : State) : State := (s.ridges.map (·.1)).foldl State.leaseCheck s

/-- The 64 bytes of a lease record (R446). -/
def leaseBytes (l : Lease) (node now device : Nat) : List Byte :=
  leBytes 4 l.p.role ++ leBytes 4 l.p.epoch ++ leBytes 2 node ++ List.replicate 6 0#8 ++ leBytes 8 l.p.expires ++ leBytes 8 now ++
  leBytes 16 device ++ List.replicate 16 0#8

/-- A lease record from bytes. -/
def leaseParse (bs : List Byte) : LeaseRec :=
  { role := leAt bs 0 4, epoch := leAt bs 4 4, node := leAt bs 8 2, expires := leAt bs 16 8, sent := leAt bs 24 8,
    device := leAt bs 32 16 }

/-- A notification in the ridge's own lease region is the peer's record (R446). -/
def State.leaseNotify (s : State) (r h : Nat) : State :=
  match s.regions.get? (regionKey r h) with
  | none => s
  | some g => (s.modLease r (fun l => { l with peerRec := some (leaseParse (memSlice g.mem 0 64)) })).leaseCheck r

/-- The fields of a LEASE TLV are in range (R446). -/
def State.leaseOk (s : State) (r : Nat) (p : LeaseParams) : Bool :=
  p.role != 0 && decide (p.role < 4294967296) && decide (p.epoch < 4294967296) && decide (100 ≤ p.period) &&
  decide (p.period ≤ 100000) && (p.orphan == 0 || decide (p.orphan ≤ 3600)) &&
  (match p.peer with
    | some (node, n) => decide (node ≤ 511) && s.connOf r n
    | none => true)

/-- Put a lease on a ridge, keeping what a renewal keeps. -/
def State.grantLease (s : State) (r : Nat) (p : LeaseParams) (region : Nat) (old : Option Lease) : State :=
  let new : Lease := match old with
    | some l => { l with p := p, peerRec := if l.p.role = p.role then l.peerRec else none }
    | none => { p := p, region := region, peerRec := none, holding := true, lostAt := s.now, reclaimed := false, lastSend := s.now }
  (s.modRidge r (fun g => { g with lease := some new })).leaseCheck r

/-- BELAY_SET with a LEASE TLV (R446): the first creates the ridge's lease region, a later one renews the grant. -/
def execBelaySetLease (t : Nat) (h : MbxHdr) (p : LeaseParams) (s : State) : Host.Outcome State Fault Refusal :=
  s.mbox t (.belaySetLease t h p) h 0x0064 .ridge0 (fun s => withRidge h s (fun r =>
    if (s.ridge r).state ≠ .opened && (s.ridge r).lease.isNone then .no s .stateConflict
    else if !s.leaseOk r p then .no s .invalidArg
    else
      match (s.ridge r).lease with
      | some l => .ok (s.grantLease r p l.region (some l)) [l.region]
      | none =>
        match s.newRegion r .lease 64 with
        | none => .no s .noSpace
        | some (s, k) => .ok (s.grantLease r p k none) [k]))

/-- LEASE_GET (R378): the lease of a ridge and its peer's record. -/
def execLeaseGet (t : Nat) (h : MbxHdr) (s : State) : Host.Outcome State Fault Refusal :=
  s.mbox t (.leaseGet t h) h 0x0065 .ridge0 (fun s => withRidge h s (fun r =>
    match (s.ridge r).lease with
    | none => .ok s [0]
    | some l =>
      let peer := match l.peerRec with
        | some q => [1, q.role, q.epoch, q.node, q.expires, q.sent, q.device]
        | none => [0]
      .ok s ([1, l.p.role, l.p.epoch, l.p.expires, flagBit l.holding 0, l.region] ++ peer)))

/-- LEASE_RECORD_SEND: every PERIOD the node sends its record to the peer (R446). -/
def execLeaseRecordSend (t : Nat) (ridge : Nat) (s : State) : Host.Outcome State Fault Refusal :=
  let s := s.advance t
  match (s.ridge ridge).lease with
  | none => .next s
  | some l =>
    if s.frozen || s.now < l.lastSend + l.p.period * 1000 then .next s
    else
      let s := s.modLease ridge (fun l => { l with lastSend := s.now })
      match l.p.peer with
      | none => .next s
      | some (_, n) =>
        match s.kSend n 1 l.p.peerRegion 0 0 (leaseBytes l s.leaseNode s.now s.boot.deviceId.toNat) (.lease ridge) with
        | none => .next s
        | some (s, _) => .next s

/-- LEASE_EXPIRY: an EXPIRES has passed, the node's own or the peer's (R447). -/
def execLeaseExpiry (t : Nat) (ridge : Nat) (s : State) : Host.Outcome State Fault Refusal :=
  .next ((s.advance t).leaseCheck ridge)

/-- The sequences of a ridge that are not Closing. -/
def State.liveSeqs (s : State) (r : Nat) : List Nat :=
  (s.seqs.filter (fun e => e.2.ridge == r && e.2.state != .closing)).map (·.1)

/-- Free one sequence as if by FREE (R72, R448). -/
def State.reclaim (s : State) (r idx : Nat) : State :=
  let h := s.handleAt idx
  (s.modSeq idx (fun q => { q with state := .closing })).mirror h h 0x05 (descOf (mirHeader 0x05 r 0)).bytes none

/-- ORPHAN_RECLAIM: the ridge has not held its role for ORPHAN_T without a break; the record counts what is freed (R448, log
entry 42). -/
def execOrphanReclaim (t : Nat) (ridge : Nat) (s : State) : Host.Outcome State Fault Refusal :=
  let s := s.advance t
  match (s.ridge ridge).lease with
  | none => .next s
  | some l =>
    if s.frozen || l.holding || l.reclaimed || l.p.orphan = 0 || s.now < l.lostAt + l.p.orphan * 1000000000 then .next s
    else
      let ks := s.liveSeqs ridge
      let s := ks.foldl (fun s k => s.reclaim ridge k) (s.modLease ridge (fun l => { l with reclaimed := true }))
      .next ((s.bumpN 2064).report { ErrRec.of .lease ridge .none with count := min 65535 ks.length })

end Sys2Proof.Machine
end

