-- ==== Sys2Proof/Machine/Requests.lean ====
section
/-! DEFINITION. DEVELOP, REVERSE and QUERY from admission to completion (R91 to R96, R113 to R116, R130 to R145, R225 to R232): starts at
E_n, operands placed, phases that end, deadlines, and outputs delivered.
Log entries 65. -/

namespace Sys2Proof.Machine

open Sys2Proof

-- Starting (R95, R144, R145).

/-- The bytes a request fetches: a query, an input block, or a QUERY's query. -/
def State.operandBytes (s : State) (q : Request) : Nat :=
  if q.opcode = 0x28 then
    match s.indexOf q.ridge q.desc.index with
    | some x => q.desc.queryBytes x.p
    | none => 0
  else
    match s.seqs.get? (handleIdx q.desc.handle) with
    | some sq => q.desc.inputBytes sq.fmt.d
    | none => 0

/-- A request's operands are at hand (R96, R225). -/
def State.operands (s : State) (slot : Nat) (q : Request) (bytes : List Byte) : State :=
  if q.opcode = 0x28 then s.queryPrepared slot bytes else s.attend slot bytes

/-- A query that is not placed by the deadline (R95). -/
def State.queryLate (s : State) (slot : Nat) (q : Request) : State :=
  s.failNow slot .queryFault (ErrRec.of .queryFault q.ridge .none)

/-- A request starts: its operands are fetched; a fetch that would begin after the deadline cannot be in time (R95, R144). -/
def State.startReq (s : State) (slot : Nat) : State :=
  match s.reqs.get? slot with
  | none => s
  | some q =>
    if q.phase ≠ .waiting then s
    else if q.deadline < s.now ∧ q.desc.srcOf.qsrc ≠ 0 then s.queryLate slot q
    else
      match s.startFetch slot (s.operandBytes q) with
      | (s, none) => s
      | (s, some bytes) => s.operands slot q bytes

/-- E_n of a request has passed, and no activation time lies at or before it (R22, R144). -/
def State.isDue (s : State) (q : Request) : Bool :=
  match s.fab.cur with
  | some f => decide (openingOf f q.exposure ≤ s.now) && (match s.fab.pend with
    | some p => decide (openingOf f q.exposure < p.actTime)
    | none => true)
  | none => false

/-- Start every waiting request whose exposure has opened, in the order of admission (R144). -/
def State.startDue (s : State) : State :=
  let l := s.reqs.filter (fun e => e.2.phase == .waiting && s.isDue e.2)
  (sortBy (fun a b => decide (a.2.order ≤ b.2.order)) l).foldl (fun s e => s.startReq e.1) s

/-- A request that has been admitted: one past its deadline with LATE_DISCARD does no work; an open exposure starts it at once
(R144, R145). -/
def State.afterAdmit (s : State) (slot : Nat) : State :=
  match s.reqs.get? slot with
  | none => s
  | some q =>
    if q.lateDiscard && decide (q.deadline < s.now) then s.complete slot .discarded 0 0 0
    else if s.isDue q then s.startReq slot
    else s

/-- DEVELOP (R92). -/
def execDevelop (t : Nat) (src : Src) (d : Desc) (inl : List Byte) (s : State) : Host.Outcome State Fault Refusal :=
  s.command t src d inl developLayout attendChecks (fun s c =>
    match s.seqOf c.ridge c.d.handle with
    | none => s
    | some sq =>
      let (s, slot) := s.admitReq c .waiting (s.fixAttend c sq)
      s.afterAdmit slot)

/-- REVERSE (R130, R136): its gradient pages are allocated at admission, all or none. -/
def execReverse (t : Nat) (src : Src) (d : Desc) (inl : List Byte) (s : State) : Host.Outcome State Fault Refusal :=
  s.command t src d inl developLayout attendChecks (fun s c =>
    match s.seqOf c.ridge c.d.handle with
    | none => s
    | some sq =>
      let (s, slot) := s.admitReq c .waiting (s.fixAttend c sq)
      let late := c.d.lateDiscard && decide (s.deadlineFor c.d < s.now)
      if late then s.complete slot .discarded 0 0 0
      else
        match s.allocGrads (handleIdx c.d.handle) c.d.layer (sq.gradsNeeded c.d) with
        | .error e => s.writeFailed slot c.ridge e
        | .ok s => s.afterAdmit slot)

/-- QUERY (R224, R225). -/
def execQuery (t : Nat) (src : Src) (d : Desc) (inl : List Byte) (s : State) : Host.Outcome State Fault Refusal :=
  s.command t src d inl queryLayout queryChecks (fun s c =>
    match s.indexOf c.ridge c.d.index with
    | none => s
    | some x =>
      let (s, slot) := s.admitReq c .waiting x.fixQuery
      (s.bump (.index c.ridge (indexNo c.d.index) 0)).afterAdmit slot)

-- Phases.

/-- QUERY_PLACED: the operands of a fetching request are wholly placed (R95, R96). `data` is what a host read gave; one that ends after the
deadline is late. -/
def execQueryPlaced (t : Nat) (slot : Nat) (data : Option (List Byte)) (s : State) : Host.Outcome State Fault Refusal :=
  let s := s.advance t
  if s.frozen then .next s
  else
    match s.reqs.get? slot with
    | none => .next s
    | some q =>
      if q.phase ≠ .fetching then .next s
      else if q.deadline < s.now && (q.desc.srcOf.qsrc == 3 || !q.placed) then .next (s.queryLate slot q)
      else
        match s.placedBytes q data with
        | none => .next s
        | some bytes =>
          let len := s.operandBytes q
          if bytes.length < len then .next s
          else
            let s := if q.desc.srcOf.qsrc = 3 then s.event none 0x0D len else s
            .next (s.operands slot q (bytes.take len))

/-- THIN_PHASE_DONE: every segment of the request has ended (R108, R227). -/
def execThinPhaseDone (t : Nat) (slot : Nat) (err : MemErr) (s : State) : Host.Outcome State Fault Refusal :=
  let s := s.advance t
  match s.reqs.get? slot with
  | none => .next s
  | some q =>
    if s.frozen || q.phase ≠ .thin || s.segsOf slot ≠ 0 then .next s
    else if q.opcode = 0x28 then .next (s.thinQuery slot err)
    else .next (s.selectPages slot err)

/-- REQUEST_FINISH: the dense phase has nothing left (R145). -/
def execRequestFinish (t : Nat) (slot : Nat) (s : State) : Host.Outcome State Fault Refusal :=
  let s := s.advance t
  match s.reqs.get? slot with
  | none => .next s
  | some q =>
    if s.frozen || !s.denseDone slot q then .next s
    else if q.opcode = 0x28 then .next (s.finishQuery slot)
    else .next (s.finishAttend slot)

/-- What follows an output by its command: the cleared range of a GRAD_SEND, a REVERSE's dirty layer, a LEAVE that
waits for a CAIRN (R137, R139, R201). -/
def State.delivered (s : State) (slot : Nat) (q : Request) (ok : Bool) : State :=
  let s := if ok && q.opcode = 0x24 && q.desc.gClear then
      s.clearGrads (handleIdx q.desc.handle) q.desc.layer q.desc.rangeLo q.desc.rangeHi true
    else s
  let s := s.outputDone slot ok
  let s := if q.opcode = 0x30 then s.finishLeaves q.ridge q.region else s
  if ok then s else s.markDirty q .outFault

/-- OUTPUT_DELIVERED: a host write has ended, or the Kalad message that carries the output (R113). -/
def execOutputDelivered (t : Nat) (slot : Nat) (ok : Bool) (s : State) : Host.Outcome State Fault Refusal :=
  let s := s.advance t
  if s.frozen then .next s
  else
    match s.reqs.get? slot with
    | none => .next s
    | some q =>
      if q.phase ≠ .output then .next s
      else if q.desc.outOf.out = 2 then .next (s.delivered slot q ok)
      else
        match q.outDone with
        | none => .next s
        | some b => .next (s.delivered slot q b)

-- Deadlines (R95, R126, R145, R203).

/-- A request with LATE_DISCARD is given up at its deadline instant (R145). -/
def State.discard (s : State) (slot : Nat) : State := ((s.releaseHolder slot).abandon slot).finishFailed slot .discarded

/-- What the deadline instant of a request brings about, once it has passed (R95, R126, R145, R203). A COMPOSITE
stops waiting at the first instant after it. -/
def State.deadlineDue (s : State) (slot : Nat) : State :=
  match s.reqs.get? slot with
  | none => s
  | some q =>
    if s.frozen || s.now < q.deadline then s
    else
      match q.phase with
      | .armed => if s.now ≤ q.deadline then s else s.stopWaiting slot
      | .fetching => if q.placed then s else s.queryLate slot q
      | .waiting => if q.lateDiscard then s.discard slot else s
      | .thin => if q.lateDiscard then s.discard slot else s
      | .dense => if q.lateDiscard then s.discard slot else s
      | .engine => if q.opcode = 0x30 then s.cairnDeadline slot q else s
      | .output => s
      | .held => s
      | .forkWait => s
      | .posted => s

/-- DEADLINE_INSTANT: the deadline instant of a request passes. Pins end by their own instants (R88). -/
def execDeadlineInstant (t : Nat) (slot : Nat) (s : State) : Host.Outcome State Fault Refusal := .next ((s.advance t).deadlineDue slot)

end Sys2Proof.Machine
end

