-- ==== Sys2Proof/Machine/KRx.lean ====
section
/-! DEFINITION. Receiving on Kalad (R259 to R294): the classification of R328, the checks of R269 in their order, placement,
acknowledgement, and the sender's reactions.
Log entries 37, 38, 44, 65, 69. -/

namespace Sys2Proof

open Sys2Proof.Machine

-- What a packet says of itself.

/-- A PKT_DROP injection that a packet of breakout x and connection n meets (R433). -/
def InjTarget.dropsFrom (t : InjTarget) (x n : Nat) : Bool :=
  match t with
  | .pktDropBreakout b => b == x
  | .pktDropConn m => m == n
  | .checkDram _ _ _ _ _ _ => false
  | .checkFrame _ _ _ _ _ => false
  | .checkLocal _ _ _ _ => false
  | .ctxEvict _ => false
  | .cellStall _ _ _ => false
  | .linkRetrain _ => false

/-- The bytes a READ_REQ names: RESP_REGION, RESP_ADDR, LENGTH (R264). -/
def KPkt.readBody (p : KPkt) : Nat × Nat × Nat :=
  ((leNat (p.wire.take 4).reverse), (leNat ((p.wire.drop 4).take 8).reverse), (leNat ((p.wire.drop 12).take 4).reverse))

/-- The outer headers pass R259: no fragment, no IPv4 options or IPv6 extension headers, a right UDP checksum; on IPv4 a checksum of 0
says that the sender computed none. -/
def KPkt.l3Ok (p : KPkt) : Bool :=
  !p.outer.fragment && !p.outer.options && (if p.outer.udpSum = 0 then isV4 p.srcAddr else p.outer.udpOk)

/-- Check 12: PSIZE, PLEN, the datagram's length and the padding agree under R263. -/
def KPkt.lengthOk (p : KPkt) (seg : Nat) : Bool :=
  let h := p.hdr
  if h.op = 2 then
    h.psize == 0 && p.wire.length == 16 && h.plen == 16 && h.offset == 0 && decide (1 ≤ p.readBody.2.2) &&
    decide (p.readBody.2.2 ≤ 16777216)
  else
    p.wire.length == 1024 * 2 ^ h.psize && h.offset % seg == 0 &&
    (if h.last then decide (h.plen ≤ seg) && p.wire.length == wireSize h.plen else h.plen == seg && p.wire.length == seg) &&
    (if h.op = 4 then decide (h.offset + h.plen ≤ 8192) && (!h.last || decide (128 ≤ h.offset + h.plen))
     else decide (h.offset + h.plen ≤ 16777216))

/-- Reserved bits of the header, of a NACK's IMM and of the extension are 0 (R10, R261, R262, R287). -/
def KPkt.reservedOk (p : KPkt) : Bool :=
  p.hdr.reservedOk && (p.hdr.op != 7 || p.hdr.imm % 256 == 0) && (match p.ext with
    | none => true
    | some e => e.2.2 == 0)

def KPkt.isControl (p : KPkt) : Bool := p.hdr.op == 5 || p.hdr.op == 6 || p.hdr.op == 7

/-- The key of OFS and of OFL for a packet (R323). -/
def KPkt.ofsKey (p : KPkt) : Nat :=
  2 + (p.breakout % 8) * 16 + (p.dscp % 64) * 256 + (p.hdr.ridge % 32) * 16384 + (p.ecn % 4) * 524288
def KPkt.oflKey (p : KPkt) : Nat := 1 + (p.hdr.ridge % 32) * 256 + (p.srcPort % 65536) * 65536 + p.srcAddr * 4294967296
def KPkt.rflKey (p : KPkt) (r : Nat) : Nat := 6 + r * 256 + (p.hdr.op % 16) * 65536 + p.srcAddr * 4294967296

/-- A packet of the setup channel reaches its record's own part when it is a single-packet COMMAND message (R266). -/
def KPkt.isSetup (p : KPkt) : Bool :=
  p.hdr.conn == 0 && p.hdr.op == 4 && p.hdr.first && p.hdr.last && p.hdr.psn == 0 && p.hdr.msn == 0 && !p.hdr.sec && p.ext.isNone

end Sys2Proof

namespace Sys2Proof.Machine

open Sys2Proof

-- Frames on the wire (R295, R307).

/-- The MAC rate of a breakout in Gb/s, which is bits in each ns (R295). -/
def State.rateOf (s : State) (x : Nat) : Nat :=
  let mode := ((s.ports.get? (x / 4)).getD { mode := 0, mtu := 9000 }).mode
  if mode = 0 then 800 else if mode = 1 then 400 else 200

/-- dur(f) of R307, rounded up to whole ns. -/
def State.durOf (s : State) (x bytes : Nat) : Nat := ceilDiv ((bytes + 20) * 8) (s.rateOf x)

/-- Bytes of the frame that carried a received packet. -/
def rxFrameBytes (p : KPkt) : Nat :=
  22 + (if isV4 p.srcAddr then 20 else 40) + 8 + 40 + p.wire.length + (if p.ext.isSome then 24 else 4)

/-- 16 receive errors of a breakout weigh 1 on each of its lanes (R423). -/
def State.lineError (s : State) (x : Nat) : State :=
  match s.brks.get? x with
  | none => s
  | some b =>
    if b.errs + 1 < 16 then { s with brks := s.brks.set x { b with errs := b.errs + 1 } }
    else { s with brks := s.brks.set x { b with errs := 0 } }.weighLanes x 1 false

-- Failure of messages and connections (R280, R281).

/-- A message that has failed: its owner completes with the outcome of a transport fault, whose record carries the last NACK code, 0
without one (R280, R281). -/
def State.failOwner (s : State) (n r code : Nat) (o : MsgOwner) : State :=
  match o with
  | .none => s
  | .output k => s.modReq k (fun q => { q with outDone := some false, nack := code })
  | .query k =>
    (match s.reqs.get? k with
      | some q => if q.phase = .fetching then s.failNow k .queryFault { ErrRec.of .queryFault r .none with detail := [code] } else s
      | none => s)
  | .completion slot => ((s.freeSlot slot).unadmit n).report { ErrRec.of .outFault r .none with handle := n, detail := [code] }
  | .mirror h tag slot => s.mirFail n h tag slot
  | .lease _ => s

/-- A message that is done (R277). -/
def State.doneOwner (s : State) (n : Nat) (o : MsgOwner) : State :=
  match o with
  | .none => s
  | .output k => s.modReq k (fun q => { q with outDone := some true })
  | .query _ => s
  | .completion slot => (s.freeSlot slot).unadmit n
  | .mirror _ _ _ => s
  | .lease _ => s

/-- One message fails with a NACK code: the packets that have not left are dropped (R281). -/
def State.failMsg (s : State) (n code msn : Nat) : State :=
  match s.conns.get? n with
  | none => s
  | some c =>
    match c.msgs.find? (fun m => m.msn == msn) with
    | none => s
    | some m =>
      (s.modConn n (fun c => { c with msgs := c.msgs.filter (fun m => m.msn != msn),
                                      waiting := c.waiting.filter (fun p => p.msn != msn) })).failOwner n c.ridge code m.owner

/-- The bytes that a ridge's parked packets give back (R298). -/
def State.unpark (s : State) (n : Nat) : State :=
  match s.conns.get? n with
  | none => s
  | some c =>
    let bytes := c.parked.foldl (fun k e => k + rxFrameBytes e.2) 0
    { s.modConn n (fun c => { c with parked := [] }) with
      ingress := s.ingress.set c.ridge ((s.ingress.get? c.ridge).getD 0 - bytes) }

/-- The queries that a connection was to fetch and that are not wholly placed fail with it, whether or not their READ_REQ is acknowledged
(R95, R280). -/
def State.failQueries (s : State) (n : Nat) : State :=
  (s.reqs.filter (fun e => e.2.phase == .fetching && !e.2.placed && e.2.desc.srcOf.qsrc == 2 && e.2.desc.srcOf.conn == n)).foldl
    (fun s e => s.failNow e.1 .queryFault (ErrRec.of .queryFault e.2.ridge .none)) s

/-- Resolve everything a connection carries (R280). A message that is done has no owner left to tell. -/
def State.resolveConn (s : State) (n : Nat) : State :=
  match s.conns.get? n with
  | none => s
  | some c =>
    let s := (s.unpark n).modConn n (fun c => { c with msgs := [], waiting := [], unacked := [], rxMsgs := [], rtoAt := none,
                                                       oldestUnacked := none, mirOut := [] })
    let s := (c.msgs.filter (fun m => !m.done)).foldl (fun s m => s.failOwner n c.ridge 0 m.owner) s
    (c.mirOut.foldl (fun s e => s.mirFail n e.2.2.1 e.1 e.2.2.2) s).failQueries n

/-- A connection enters Failed (R268, R280). -/
def State.failConn (s : State) (n : Nat) : State :=
  match s.conns.get? n with
  | none => s
  | some c =>
    if c.state = .failed then s
    else
      let s := (s.modConn n (fun c => { c with state := .failed })).bumpR c.ridge 88
      let s := (s.report { ErrRec.of .connFail c.ridge .none with handle := n }).raiseCause c.ridge causeConnFail
      s.resolveConn n

-- Acknowledgements as the sender meets them (R277 to R279).

/-- Messages of which every packet is acknowledged (R277). -/
def Conn.doneMsgs (c : Conn) : List TxMsg :=
  c.msgs.filter (fun m => !m.done && !c.unacked.any (·.msn == m.msn) && !c.waiting.any (·.msn == m.msn) && m.retryAt.isNone)

/-- Close out the messages that are done; a COMMAND stays listed until the watermark passes it, since a BUSY may ask for it again (R277,
R281). -/
def State.kSettle (s : State) (n : Nat) : State :=
  match s.conns.get? n with
  | none => s
  | some c =>
    let done := c.doneMsgs
    let told (m : TxMsg) : TxMsg := if done.any (fun d => d.msn == m.msn) then { m with done := true } else m
    let s := s.modConn n (fun c => { c with
      msgs := (c.msgs.map told).filter (fun m => !m.done || (m.op == 4 && !serLe m.msn c.peerMark)) })
    done.foldl (fun s m => s.doneOwner n m.owner) s

/-- The round-trip estimate after a sample (R278). -/
def Conn.sample (c : Conn) (now rtt : Nat) : Conn :=
  let step (a x d : Nat) : Nat := ((a : Int) + ((x : Int) - (a : Int)) / d).toNat
  let srtt := step c.srtt rtt 8
  let dev := if srtt ≤ rtt then rtt - srtt else srtt - rtt
  { c with srtt := srtt, rttvar := step c.rttvar dev 4,
           rttSamples := (now, rtt) :: c.rttSamples.filter (fun e => decide (now ≤ e.1 + 64000000)) }

/-- The lowest sample of the last 64 ms (R279). -/
def Conn.baseRtt (c : Conn) : Nat := c.rttSamples.foldl (fun m e => if m = 0 then e.2 else min m e.2) 0

/-- Hold the window within its limits (R279). -/
def Conn.window (c : Conn) (w : Nat) : Conn := { c with cwnd := max c.seg (min c.p.cwndMax w) }

/-- alpha is held in units of 2^-20 (R279). -/
def alphaOne : Nat := 1048576

/-- The window grows by an acknowledgement (R279). -/
def Conn.grow (c : Conn) (now bytes : Nat) : Conn :=
  if bytes = 0 || now < c.lastDec + c.srtt then c else c.window (c.cwnd + c.seg * bytes / max 1 c.cwnd)

/-- Once in a smoothed round trip alpha follows the CE marks, and marks shrink the window (R279). -/
def Conn.round (c : Conn) (now : Nat) : Conn :=
  if now < c.lastRound + c.srtt then c
  else
    let f := if c.pktAcked = 0 then 0 else min alphaOne (c.ceAcked * alphaOne / c.pktAcked)
    let a := ((c.alpha : Int) + ((f : Int) - (c.alpha : Int)) / 16).toNat
    let c := { c with alpha := a, lastRound := now, ceAcked := 0, pktAcked := 0 }
    if f = 0 then c else { c.window (c.cwnd - c.cwnd * a / (2 * alphaOne)) with lastDec := now }

/-- A sample above base_rtt + T_DELAY shrinks the window, at most once in a smoothed round trip (R279). -/
def Conn.delayCut (c : Conn) (now rtt : Nat) : Conn :=
  let excess := rtt - c.baseRtt - c.p.delayUs * 1000
  if excess = 0 || now < c.lastDec + c.srtt then c
  else { c.window (max (c.cwnd / 2) (c.cwnd - c.cwnd * (4 * excess) / (5 * max 1 rtt))) with lastDec := now }

/-- The PSNs a SACK body shows received above its cumulative PSN (R264). -/
def sackPsns (cum : Nat) (body : List Byte) : List Nat :=
  (body.zipIdx).flatMap (fun e => ((List.range 8).filter (fun j => e.1.toNat.testBit j)).map (fun j => serAdd cum (8 * e.2 + j + 1)))

/-- Resend the holes a SACK shows (R278). -/
def State.resendHoles (s : State) (n : Nat) (sack : List Nat) : State :=
  match s.conns.get? n with
  | none => s
  | some c =>
    let holes := c.unacked.filter (fun p => decide (s.reorderTh ≤ (sack.filter (fun k => serLt p.psn k)).length) &&
      (p.retx == 0 || decide (p.resentAt + c.srtt ≤ s.now)))
    holes.foldl (fun s p => s.kResend n p) s

/-- An ACK or SACK (R277 to R279). -/
def State.kAckIn (s : State) (n : Nat) (p : KPkt) : State :=
  match s.conns.get? n with
  | none => s
  | some c =>
    let cum := p.hdr.psn
    let sack := if p.hdr.op = 6 then sackPsns cum p.wire else []
    if !(serLt cum c.txPsn && sack.all (fun k => serLt k c.txPsn)) || c.state ≠ .opened then s.bumpR c.ridge 87
    else
      let hit := c.unacked.filter (fun q => serLe q.psn cum || sack.contains q.psn)
      let rest := c.unacked.filter (fun q => !(serLe q.psn cum || sack.contains q.psn))
      let bytes := hit.foldl (fun k q => k + q.bytes.length) 0
      let fresh := (hit.filter (fun q => q.retx == 0)).getLast?
      let ce := p.hdr.imm
      let moved := serLt c.cumAck cum
      let c := { c with
        unacked := rest
        cumAck := if moved then cum else c.cumAck
        peerMark := if serLt c.peerMark p.hdr.msn && serLt p.hdr.msn c.txMsn then p.hdr.msn else c.peerMark
        backoff := if moved then 0 else c.backoff
        ceAcked := c.ceAcked + (ce + 4294967296 - c.ceSeen) % 4294967296
        ceSeen := ce
        pktAcked := c.pktAcked + hit.length }
      let c := match fresh with
        | some q => c.sample s.now (s.now - q.sentAt)
        | none => c
      let c := (c.grow s.now bytes).round s.now
      let c := match fresh with
        | some q => c.delayCut s.now (s.now - q.sentAt)
        | none => c
      let c := { c with rtoAt := if rest.isEmpty then none else if hit.isEmpty then c.rtoAt else some (s.now + c.rto) }
      let s := s.modConn n (fun _ => c)
      ((s.kSettle n).resendHoles n sack).kFill n

/-- A packet is to leave again after a CTX_RETRY, at most 64 times (R281). -/
def State.retryPkt (s : State) (n code psn at_ : Nat) : State :=
  match s.conns.get? n with
  | none => s
  | some c =>
    match c.unacked.find? (fun q => q.psn == psn) with
    | none => s
    | some q =>
      if 64 ≤ q.tries then s.failMsg n code q.msn
      else s.modConn n (fun c => { c with unacked := c.unacked.map (fun q =>
        if q.psn = psn then { q with tries := q.tries + 1, retryAt := some at_ } else q) })

/-- A message is to leave again whole after a BUSY, at most 64 times (R281). -/
def State.retryWhole (s : State) (n code msn at_ : Nat) : State :=
  match s.conns.get? n with
  | none => s
  | some c =>
    match c.msgs.find? (fun m => m.msn == msn) with
    | none => s
    | some m =>
      if 64 ≤ m.tries then s.failMsg n code msn
      else s.modConn n (fun c => { c with msgs := c.msgs.map (fun m =>
        if m.msn = msn then { m with tries := m.tries + 1, retryAt := some at_, done := false } else m) })

/-- A NACK (R281). One of a reserved code is only counted: codes to 15 have a counter each, the rest take the last (log entry 73). -/
def State.kNackIn (s : State) (n : Nat) (p : KPkt) : State :=
  match s.conns.get? n with
  | none => s
  | some c =>
    let code := p.hdr.imm >>> 24
    let at_ := s.now + (p.hdr.imm >>> 8) % 65536 * 1000
    let s := s.bumpR c.ridge (112 + min code 15)
    match NackCode.ofCode code with
    | none => s
    | some .ctxRetry => s.retryPkt n code p.hdr.psn at_
    | some .busy => s.retryWhole n code p.hdr.msn at_
    | some .staleEpoch => (s.failMsg n code p.hdr.msn).kFill n
    | some .badRegion => (s.failMsg n code p.hdr.msn).kFill n
    | some .ridgeMismatch => (s.failMsg n code p.hdr.msn).kFill n
    | some .malformed => (s.failMsg n code p.hdr.msn).kFill n
    | some .length => (s.failMsg n code p.hdr.msn).kFill n
    | some .seq =>
      let again := c.unacked.filter (fun q => serLe (p.hdr.offset % serMod) q.psn)
      let s := s.modConn n (fun c => { c with cwnd := c.seg, lastDec := s.now })
      again.foldl (fun s q => s.kResend n q) s

-- The receive window (R272, R273, R275, R276).

/-- Advance the cumulative PSN over what the bitmap holds. -/
def Conn.advanceCum (fuel : Nat) (c : Conn) : Conn :=
  match fuel with
  | 0 => c
  | fuel + 1 =>
    let k := serAdd c.rxCum 1
    if c.rxBits.contains k then Conn.advanceCum fuel { c with rxCum := k, rxBits := c.rxBits.filter (· != k) } else c

/-- A PSN has been received (R276). -/
def Conn.markPsn (c : Conn) (psn : Nat) : Conn := Conn.advanceCum 1025 { c with rxBits := c.rxBits ++ [psn] }

/-- The highest PSN received (R276). -/
def Conn.topPsn (c : Conn) : Nat := c.rxBits.foldl (fun t k => if serLt t k then k else t) c.rxCum

/-- A received PSN opens a new hole: PSNs between the highest received so far and it are missing (R276). -/
def Conn.newHole (c : Conn) (psn : Nat) : Bool := serLt (serAdd c.topPsn 1) psn

/-- A message counts as resolved for the watermark: complete or refused; a complete COMMAND only once it is admitted, since it may
yet be deferred (R273, R285). -/
def RxMsg.resolved (m : RxMsg) : Bool := m.mark == .refused || (m.mark == .complete && (m.op != 4 || m.notified))

/-- A message's entry has no further use. -/
def RxMsg.spent (m : RxMsg) : Bool := m.mark == .refused || (m.mark == .complete && (m.notified || (m.op != 1 && m.op != 4)))

/-- Advance the watermark over resolved messages, dropping entries with no further use (R273). -/
def Conn.advanceMark (fuel : Nat) (c : Conn) : Conn :=
  match fuel with
  | 0 => c
  | fuel + 1 =>
    let k := serAdd c.watermark 1
    match c.rxMsgs.get? k with
    | none => c
    | some m =>
      if m.resolved then
        Conn.advanceMark fuel { c with watermark := k, rxMsgs := if m.spent then c.rxMsgs.erase k else c.rxMsgs }
      else c

/-- The duplicate rule (R275). -/
def Conn.duplicate (c : Conn) (psn msn : Nat) : Bool :=
  serLe msn c.watermark || serLe psn c.rxCum || c.rxBits.contains psn ||
  (match c.rxMsgs.get? msn with
    | some m => m.mark == .complete || m.mark == .refused
    | none => false)

/-- Check 10 of R269. -/
def Conn.inWindow (c : Conn) (psn msn : Nat) : Bool :=
  decide (serDist c.rxCum psn < 1025) && decide (serDist c.watermark msn < 1025)

/-- A message not met before. -/
def RxMsg.fresh (p : KPkt) : RxMsg :=
  { mark := .placing, op := p.hdr.op, placed := 0, total := none, region := p.hdr.region, addr := p.hdr.addr, imm := p.hdr.imm,
    bytes := [], notified := false, psn := p.hdr.psn, ent := 0 }

/-- The message a packet belongs to; a resent deferred one starts anew (R285). -/
def Conn.msgFor (c : Conn) (p : KPkt) : RxMsg :=
  match c.rxMsgs.get? p.hdr.msn with
  | some m => if m.mark = .deferred then RxMsg.fresh p else m
  | none => RxMsg.fresh p

/-- The message takes a packet: bytes counted, L known from the LAST, complete when every byte is placed (R272). -/
def RxMsg.take (m : RxMsg) (p : KPkt) (ent : Nat) : RxMsg :=
  let placed := m.placed + p.hdr.plen
  let total := if p.hdr.last then some (p.hdr.offset + p.hdr.plen) else m.total
  { m with placed := placed, total := total, psn := p.hdr.psn, ent := ent,
           mark := if total = some placed then .complete else .placing,
           bytes := if p.hdr.op = 4 then m.bytes ++ [(p.hdr.offset, p.wire.take p.hdr.plen)] else m.bytes }

-- Checks 11 to 13 (R269).

/-- The REG result of a region handle among the ridge's banks, uncounted: its permissions (R323, R328). -/
def State.regFlags (s : State) (r h : Nat) : Nat :=
  match s.lWinner (s.lBanks r .reg) .reg (regKey r h) with
  | some w => w.2.2.result
  | none => 0

def RegionKind.isQuery (k : RegionKind) : Bool :=
  match k with
  | .query => true
  | .composite _ _ _ _ => false
  | .scratch _ _ _ => false
  | .lease => false
  | .completion _ => false

/-- Check 13: the region permits the opcode and holds the bytes; a COMMAND needs CMD_RING and the peer's completion target. A
READ_RESP goes only to a region that a READ_REQ of this node named. -/
def State.regionOk (s : State) (c : Conn) (p : KPkt) : Bool :=
  let h := p.hdr
  if h.op = 4 then c.p.cmdRing.isSome && c.target.isSome
  else
    match s.regions.get? (regionKey c.ridge h.region) with
    | none => false
    | some g =>
      let f := s.regFlags c.ridge h.region
      if h.op = 0 then f.testBit 18 && decide (h.addr + h.offset + h.plen ≤ g.size)
      else if h.op = 1 then f.testBit 19 && decide (h.addr + h.offset + h.plen ≤ g.size)
      else if h.op = 2 then f.testBit 20 && decide (h.addr + p.readBody.2.2 ≤ g.size)
      else g.kind.isQuery && decide (h.addr + h.offset + h.plen ≤ g.size)

-- Acknowledging and refusing.

/-- The entropy value of a packet from the peer (R260): its source port above the peer's base, by the node's own E. -/
def Conn.entOf (c : Conn) (p : KPkt) : Nat := (p.srcPort + 65536 - c.peerBase % 65536) % 65536

/-- A duplicate is counted and acknowledged, at most once in a µs on a connection (R275, R276). -/
def State.kDuplicate (s : State) (n : Nat) (c : Conn) (p : KPkt) : State :=
  let s := (s.bumpR c.ridge 84).modConn n (fun c =>
    if c.inWindow p.hdr.psn c.watermark && !serLe p.hdr.psn c.rxCum && !c.rxBits.contains p.hdr.psn then c.markPsn p.hdr.psn else c)
  if s.now < c.lastDupAck + 1000 then s
  else (s.modConn n (fun c => { c with lastDupAck := s.now })).kAck n (c.entOf p)

/-- The acknowledgement rules after a data packet has been received (R276): `hole` and `complete` say what it brought. -/
def State.kAckRules (s : State) (n : Nat) (p : KPkt) (hole complete : Bool) : State :=
  match s.conns.get? n with
  | none => s
  | some c =>
    let s := s.modConn n (fun c => { c with sinceAck := c.sinceAck + 1, oldestUnacked := some (c.oldestUnacked.getD s.now),
                                            oldestEnt := if c.oldestUnacked.isSome then c.oldestEnt else c.entOf p })
    if complete || p.hdr.ar || hole || s.ackEvery ≤ c.sinceAck + 1 then s.kAck n (c.entOf p) else s

/-- A message is refused with a final code: its PSN counts as received and is acknowledged as any other, and the watermark may pass it
(R272, R273, R276). -/
def State.kRefuse (s : State) (n : Nat) (p : KPkt) (code : NackCode) : State :=
  match s.conns.get? n with
  | none => s
  | some c =>
    if c.inWindow p.hdr.psn p.hdr.msn && !c.duplicate p.hdr.psn p.hdr.msn then
      let new : RxMsg := { c.msgFor p with mark := .refused, bytes := [] }
      let s := s.modConn n (fun c => ({ c with rxMsgs := c.rxMsgs.set p.hdr.msn new }.markPsn p.hdr.psn).advanceMark 1025)
      (s.kNack n code p.hdr.psn p.hdr.msn 0 (c.entOf p) p.hdr).kAckRules n p (c.newHole p.hdr.psn) false
    else s.kNack n code p.hdr.psn p.hdr.msn 0 (c.entOf p) p.hdr

-- Placement (R271) and what a packet sets off.

/-- Serve a READ_REQ: one READ_RESP message of the bytes it names, whose IMM is the MSN of the READ_REQ (R262, R264). -/
def State.serveRead (s : State) (n : Nat) (c : Conn) (p : KPkt) : State :=
  let b := p.readBody
  let bytes := match s.regions.get? (regionKey c.ridge p.hdr.region) with
    | some g => memSlice g.mem p.hdr.addr b.2.2
    | none => []
  match s.kSend n 3 b.1 b.2.1 p.hdr.msn bytes .none with
  | none => s
  | some (s, _) => s

/-- The request whose query a READ_RESP has placed wholly, by its deadline (R95). -/
def State.queryArrived (s : State) (r region : Nat) : State :=
  match s.reqs.find? (fun e => e.2.ridge == r && e.2.region == region && e.2.phase == .fetching && decide (s.now ≤ e.2.deadline)) with
  | some (k, _) => s.modReq k (fun q => { q with placed := true })
  | none => s

/-- Check 14: place a packet (R271, R272). -/
def State.kPlace (s : State) (n : Nat) (c : Conn) (p : KPkt) : State :=
  let h := p.hdr
  let hole := c.newHole h.psn
  let m := (c.msgFor p).take p (c.entOf p)
  let s := if h.op = 0 || h.op = 1 || h.op = 3 then
      s.modRegion (regionKey c.ridge h.region) (fun g => { g with mem := memPut g.mem (h.addr + h.offset) (p.wire.take h.plen) })
    else s
  let m := if h.op = 2 then { m with mark := .complete } else m
  let s := s.modConn n (fun c => (({ c with rxMsgs := c.rxMsgs.set h.msn m }.markPsn h.psn).advanceMark 1025))
  let s := if h.op = 2 then s.serveRead n c p else s
  let s := if h.op = 3 && m.mark == .complete then s.queryArrived c.ridge h.region else s
  s.kAckRules n p hole (m.mark == .complete)

/-- A PKT_RX record with the number of the failing check, for the sampled PSNs (R459, R461). -/
def State.filmRx (s : State) (n : Nat) (c : Conn) (p : KPkt) (check : Nat) : State :=
  if p.hdr.psn % 2 ^ s.trace.sel.k = 0 then
    s.film 0x03 .ioRing c.ridge [n, p.hdr.psn, p.hdr.msn, p.hdr.op + 16 * check, p.breakout, p.hdr.plen]
  else s

/-- A CE mark on a data packet is counted on its connection (R279). -/
def State.ceMarked (s : State) (n : Nat) (p : KPkt) : State :=
  if p.ecn = 3 && p.hdr.op ≠ 2 then s.modConn n (fun c => { c with ceCount := c.ceCount + 1 }) else s

/-- Checks 8 to 14 of R269. -/
def State.kCheck8 (s : State) (n : Nat) (c : Conn) (p : KPkt) : State :=
  let h := p.hdr
  if h.op = 5 || h.op = 6 then (s.filmRx n c p 0).kAckIn n p
  else if h.op = 7 then (s.filmRx n c p 0).kNackIn n p
  else
    let s := s.ceMarked n p
    if c.duplicate h.psn h.msn then (s.filmRx n c p 9).kDuplicate n c p
    else if !c.inWindow h.psn h.msn then (s.filmRx n c p 10).kNack n .seq h.psn h.msn (serAdd c.rxCum 1) (c.entOf p) h
    else if !s.epochOk h.epoch then (s.filmRx n c p 11).kRefuse n p .staleEpoch
    else if !p.lengthOk c.seg then (s.filmRx n c p 12).kRefuse n p .length
    else if !s.regionOk c p then (s.filmRx n c p 13).kRefuse n p .badRegion
    else (s.filmRx n c p 0).kPlace n c p

-- Check 5: the trailer (R259, R287, R288).

/-- The previous phase's key is still held for a packet of that phase (R288). -/
def Conn.phaseOk (c : Conn) (phase : Bool) (now : Nat) : Bool :=
  phase == c.rxPhase || (match c.oldKeyAt with
    | some t => decide (now < t)
    | none => true)

/-- The first verified packet of a new phase: its key is taken, the old one held for 1 ms (R288). -/
def Conn.enterPhase (c : Conn) (phase : Bool) (now : Nat) : Conn :=
  if phase = c.rxPhase || c.oldKeyAt.isSome then c
  else
    let k := (c.keys.drop 32).take 32
    { c with rxPhase := phase, oldKeyAt := some (now + 1000000), oldKeys := k,
             keys := c.keys.take 32 ++ rekey k ++ c.keys.drop 64 }

/-- SEC matches the connection, and the ICRC or the tag verifies. -/
def Conn.trailerOk (c : Conn) (p : KPkt) (now : Nat) : Bool :=
  p.hdr.sec == c.crossRack &&
  (match p.ext with
    | none => !c.crossRack && p.icrc == crc32c (khdrBytes p.hdr ++ p.wire)
    | some e => c.crossRack && p.authOk && c.phaseOk e.1 now)

/-- The connection once a packet has verified: in the packet's phase, and used now (R283, R288). -/
def Conn.verified (c : Conn) (p : KPkt) (now : Nat) : Conn :=
  { c.enterPhase (match p.ext with
      | some e => e.1
      | none => c.rxPhase) now with lru := now }

/-- Checks 5 to 7 of R269, for a packet whose context is on die. On a connection that is not Open it is dropped and counted as an
unclassified one is (R268, log entry 73); a control packet that breaks protocol is dropped and logged (R270). -/
def State.kCheck5 (s : State) (n : Nat) (p : KPkt) : State :=
  match s.conns.get? n with
  | none => s
  | some c =>
    let h := p.hdr
    if !c.trailerOk p s.now then ((s.filmRx n c p 5).bumpN (if c.crossRack then 4 else 3)).lineError p.breakout
    else
      let s := s.modConn n (fun c => c.verified p s.now)
      match s.conns.get? n with
      | none => s
      | some c =>
        if c.state ≠ .opened then s.bumpN 2
        else if h.ver ≠ 1 || 8 ≤ h.op || !p.reservedOk || h.ridge = 0 || 16 < h.ridge then
          if p.isControl then (s.filmRx n c p 6).kViolation n NackCode.malformed.code h else (s.filmRx n c p 6).kRefuse n p .malformed
        else if h.ridge ≠ c.ridge then
          if p.isControl then (s.filmRx n c p 7).kViolation n NackCode.ridgeMismatch.code h else (s.filmRx n c p 7).kRefuse n p .ridgeMismatch
        else s.kCheck8 n c p

-- Check 4: the context (R282 to R284).

def State.parkedOf (s : State) (r : Nat) : Nat :=
  s.conns.foldl (fun k e => if e.2.ridge = r then k + e.2.parked.length else k) 0

/-- Park a packet whose context is not on die, or refuse it with CTX_RETRY when the ridge's parking is full (R284). -/
def State.park (s : State) (n : Nat) (c : Conn) (p : KPkt) : State :=
  if (s.ridge c.ridge).p.parkShare ≤ s.parkedOf c.ridge then
    if p.isControl then s else s.kNack n .ctxRetry p.hdr.psn p.hdr.msn 0 (c.entOf p) p.hdr
  else
    let s := if c.parked.isEmpty then (s.bumpR c.ridge 85).event none 0x07 1 else s
    let s := s.modConn n (fun c => { c with parked := c.parked ++ [(s.now, p)] })
    let s := { s with ingress := s.ingress.set c.ridge ((s.ingress.get? c.ridge).getD 0 + rxFrameBytes p) }
    s.maxCtr (.node 5) s.parkedCount

-- Check 3: classification (R328).

/-- What a filter's action does to a packet: dropped, counted (R323). -/
def actDrops (a : Nat) : Bool := a == 1 || a == 3
def actCounts (a : Nat) : Bool := a == 2 || a == 3

/-- One operator filter table: true when the packet is dropped. -/
def State.opFilter (s : State) (t : LoupeTable) (key dflt : Nat) : State × Bool :=
  match s.lSearch 0 t key with
  | (s, .hit e) =>
    let a := e.result % 4
    let s := if actCounts a then s.bumpN (1024 + (e.result / 4) % 1024) else s
    if actDrops a then (s.bumpN 13, true) else (s, false)
  | (s, .miss) => if dflt = 1 then (s.bumpN 13, true) else (s, false)
  | (s, .bad) => (s, true)

/-- The operator filters, when privileged banks are configured (R325, R328). -/
def State.opFilters (s : State) (p : KPkt) : State × Bool :=
  if s.loupe.privBanks = 0 then (s, false)
  else
    let (s, a) := s.opFilter .ofs p.ofsKey s.loupe.ofsDefault
    let (s, b) := s.opFilter .ofl p.oflKey s.loupe.oflDefault
    (s, a || b)

/-- The ridge filter, when the ridge holds RFL entries (R328). -/
def State.ridgeFilter (s : State) (r : Nat) (p : KPkt) : State × Bool :=
  let banks := s.lBanks r .rfl
  if !banks.any (fun b => (s.lBank b).entries.any (fun e => e.2.table == .rfl)) then (s, false)
  else
    match s.lSearch r .rfl (p.rflKey r) with
    | (s, .hit e) =>
      let a := e.result % 4
      let s := if actCounts a then s.bumpR r (192 + (e.result / 4) % 64) else s
      if actDrops a then (s.bumpR r 160, true) else (s, false)
    | (s, .miss) => (s, false)
    | (s, .bad) => (s, true)

/-- Classify a packet of a connection (R328): the connection's ridge, or none. -/
def State.classify (s : State) (p : KPkt) : State × Bool :=
  let (s, dropped) := s.opFilters p
  match s.loupe.cmap.get? p.hdr.conn with
  | none => (s, false)
  | some m =>
    let (t, k) := clsKey m.ridge p.srcAddr
    let (s, res) := s.lSearch m.ridge t k
    let (s, cut) := s.ridgeFilter m.ridge p
    let s := if p.hdr.op ≤ 4 then (s.lSearch m.ridge .reg (regKey m.ridge p.hdr.region)).1 else s
    match res with
    | .hit e => (s, !dropped && !cut && e.result % 65536 == m.peer && e.result / 65536 % 32 == m.ridge)
    | .miss => (s, false)
    | .bad => (s, false)

-- The whole path.

/-- What the node's power and stop states make of a packet before any check (R393, R468, R479): none when it goes on. -/
def State.kGate (s : State) (p : KPkt) : Option State :=
  let linkUp := match s.brks.get? p.breakout with
    | some b => b.link
    | none => false
  if !linkUp || s.dead then some s
  else if s.trace.held then some (s.bumpN 2307)
  else if s.power.transit = .entering && p.isControl && p.hdr.conn ≠ 0 then none
  else if s.asleep then
    if s.power.state = 3 && s.power.transit == .none then some s
    else if p.isControl then some s
    else some (s.bumpN 2342)
  else none

/-- A received frame is metered to the ridge (R449). -/
def State.meterRx (s : State) (r x bytes : Nat) : State :=
  s.modRidge r (fun g => { g with meter := { g.meter with rx := g.meter.rx + s.durOf x bytes } })

/-- A packet of ridge r that finds room in the ingress is counted (R294, R457). -/
def State.rxCounted (s : State) (r : Nat) (p : KPkt) : State :=
  ((s.bumpR r 81).event none 0x01 1).event none 0x03 p.wire.length

/-- A packet passes from classification to its context (R269, R298). -/
def State.kAdmit (s : State) (n : Nat) (p : KPkt) : State :=
  match s.conns.get? n with
  | none => s
  | some c =>
    let s := s.meterRx c.ridge p.breakout (rxFrameBytes p)
    if (s.ridge c.ridge).p.ingressShare < (s.ingress.get? c.ridge).getD 0 + rxFrameBytes p then
      s.bumpR c.ridge (130 + 4 * p.breakout)
    else
      let s := s.rxCounted c.ridge p
      if c.onDie then s.kCheck5 n p else s.park n c p

/-- An unclassified packet (R24, R269). -/
def State.kUnclass (s : State) : State := s.bumpN 2

/-- Checks 1 to 3 of R269: the state of a packet that goes on, or the outcome of one that does not. -/
def State.kFront (s : State) (p : KPkt) : State × Bool :=
  if !p.l3Ok then (s.bumpN 0, false)
  else if s.fab.cur.isNone then (s.bumpN 1, false)
  else
    match s.fire (·.dropsFrom p.breakout p.hdr.conn) with
    | some s => (s, false)
    | none => (s, true)

/-- A received Kalad packet (R269). Data on the setup channel that is no setup record is unclassified. -/
def State.kRecv (s : State) (p : KPkt) : State :=
  match s.kGate p with
  | some s => s
  | none =>
    match s.kFront p with
    | (s, false) => s
    | (s, true) =>
      if p.hdr.conn = 0 then s.kUnclass
      else
        match s.classify p with
        | (s, true) => s.kAdmit p.hdr.conn p
        | (s, false) => s.kUnclass

-- The rows of received packets.

/-- WRITE (R271). -/
def execWrite (t : Nat) (p : KPkt) (s : State) : Host.Outcome State Fault Refusal := .next ((s.advance t).kRecv p)

/-- WRITE_IMM (R262, R274). -/
def execWriteImm (t : Nat) (p : KPkt) (s : State) : Host.Outcome State Fault Refusal := .next ((s.advance t).kRecv p)

/-- READ_REQ (R264). -/
def execReadReq (t : Nat) (p : KPkt) (s : State) : Host.Outcome State Fault Refusal := .next ((s.advance t).kRecv p)

/-- READ_RESP (R264). -/
def execReadResp (t : Nat) (p : KPkt) (s : State) : Host.Outcome State Fault Refusal := .next ((s.advance t).kRecv p)

/-- COMMAND (R262, R274). -/
def execCommand (t : Nat) (p : KPkt) (s : State) : Host.Outcome State Fault Refusal := .next ((s.advance t).kRecv p)

/-- ACK (R277). -/
def execAck (t : Nat) (p : KPkt) (s : State) : Host.Outcome State Fault Refusal := .next ((s.advance t).kRecv p)

/-- SACK (R277, R278). -/
def execSack (t : Nat) (p : KPkt) (s : State) : Host.Outcome State Fault Refusal := .next ((s.advance t).kRecv p)

/-- NACK (R281). -/
def execNack (t : Nat) (p : KPkt) (s : State) : Host.Outcome State Fault Refusal := .next ((s.advance t).kRecv p)

end Sys2Proof.Machine
end

