-- ==== Sys2Proof/Machine/KConn.lean ====
section
/-! DEFINITION. Connections (R265 to R268, R274, R281, R284 to R288): declaration and setup, notification and admission of messages,
timers, and the end of a connection.
Log entries 3, 5, 21, 22, 23, 38, 39. -/

namespace Sys2Proof

open Sys2Proof.Machine

-- The boundary table (R18, R265).

/-- An address is cross-rack: the longest prefix of the boundary table that covers it says so; without one it is in-rack
(log entry 21). -/
def Fabric.crossRack (f : Fabric) (a : Nat) : Bool :=
  ((f.boundary.filter (fun e => Prefix.covers e.1 a)).foldl (fun w e => match w with
    | none => some e
    | some v => if v.1.len < e.1.len then some e else some v) (none : Option (Prefix × Bool))).any (·.2)

/-- S is one of the four segment sizes. -/
def segOk (n : Nat) : Bool := n == 1024 || n == 2048 || n == 4096 || n == 8192

/-- The parameters of a peer's record are in range. -/
def SetupRec.paramsOk (r : SetupRec) (keyLen : Nat) : Bool :=
  segOk r.seg && decide (1 ≤ r.e) && decide (r.e ≤ 64) && decide (1 ≤ r.conn) && r.keyData.length == keyLen &&
  (match r.target with
    | some (_, _, n) => decide (1 ≤ n) && decide (n ≤ 4096)
    | none => true)

end Sys2Proof

namespace Sys2Proof.Machine

open Sys2Proof

-- Setup records (R266).

/-- The bytes of a record: its type and the fields the table of R266 lists for it, in that order and in network byte order, padded to 64 and
followed by the key data (log entry 22). -/
def setupBody (kind : Nat) (r : SetupRec) : List Byte :=
  let t := match r.target with
    | some (region, addr, n) => beBytes 4 region ++ beBytes 8 addr ++ beBytes 2 n
    | none => List.replicate 14 0#8
  let own := beBytes 4 r.conn ++ beBytes 4 r.seg ++ beBytes 1 r.e ++ beBytes 3 r.psn ++ beBytes 3 r.msn ++ t
  let fields :=
    if kind = 1 then beBytes 2 r.versions ++ beBytes 4 r.label ++ own
    else if kind = 2 then beBytes 2 r.versions ++ own
    else beBytes 1 r.reason
  sliceBytes (beBytes 1 kind ++ fields) 0 64 ++ r.keyData

/-- Send a setup record on the egress and class of a connection (R266): one COMMAND packet of connection 0, with PSN 0 and so entropy value
0, and the ICRC of an in-rack packet. -/
def State.kSetup (s : State) (n kind : Nat) (r : SetupRec) : State :=
  match s.conns.get? n with
  | none => s
  | some c =>
    let body := setupBody kind r
    let wire := sliceBytes body 0 (wireSize body.length)
    let hdr := KOut.bytes { op := 4, first := true, last := true, sec := false, ridge := c.ridge, psize := psizeOf wire.length, conn := 0,
                            psn := 0, msn := 0, offset := 0, addr := 0, region := 0, epoch := s.epochNow, plen := body.length, imm := 0 }
    s.kLaunch c c.p.entBase 2 (hdr ++ wire ++ beBytes 4 (crc32c (hdr ++ wire)).toNat)
      { ridge := c.ridge, cls := c.p.cls, queue := n, bytes := kFrameBytes c.p.peerAddr false wire.length, conn := 0, psn := 0, msn := 0,
        op := 4, plen := body.length, retx := 0, srcPort := c.p.entBase, queuedAt := s.now, data := [] }

/-- The node's own completion target as its records name it: 64 entries from address 0 (R267). -/
def Conn.ownTarget (c : Conn) : Option (Nat × Nat × Nat) := some (c.own, 0, 64)

/-- The CONNECT of a connection. -/
def Conn.connect (c : Conn) (n : Nat) : SetupRec :=
  let r : SetupRec := { versions := 2, label := c.p.label, conn := n, seg := c.p.seg, e := c.p.e, psn := c.initPsn, msn := c.initMsn,
                        target := c.ownTarget, reason := 0, body := [],
                        keyData := if c.crossRack then sliceBytes (Config.kemPublic c.kemDraw) 0 1216 else [] }
  { r with body := setupBody 1 r }

/-- The ACCEPT that answers a CONNECT of this key data: cross-rack its own key data hold an X25519 public key and the ML-KEM-768 ciphertext
under the initiator's key, 32 + 1,088 bytes. -/
def Conn.accept (c : Conn) (n : Nat) (peerKeys : List Byte) : SetupRec :=
  let r : SetupRec := { versions := 1, label := c.p.label, conn := n, seg := c.seg, e := c.p.e, psn := c.initPsn, msn := c.initMsn,
                        target := c.ownTarget, reason := 0, body := [],
                        keyData := if c.crossRack then sliceBytes (Config.kemReply c.kemDraw peerKeys) 0 1120 else [] }
  { r with body := setupBody 2 r }

/-- A REFUSE with its reason. -/
def refuseRec (label reason : Nat) : SetupRec :=
  let r : SetupRec := { versions := 0, label := label, conn := 0, seg := 0, e := 0, psn := 0, msn := 0, target := none,
                        reason := reason, keyData := [], body := [] }
  { r with body := setupBody 3 r }

/-- The keys of a cross-rack connection (R286): sending key, receiving key, sending salt, receiving salt. -/
def Conn.derive (c : Conn) (peerKeys connectBody acceptBody : List Byte) : List Byte :=
  if !c.crossRack then []
  else
    let ss := Config.kemShared c.kemDraw peerKeys
    let th := beBytes 48 (Config.sha384 (connectBody ++ acceptBody)).toNat
    let prk := Config.hkdf (c.p.psk ++ ss) [] 48
    let k (t : String) (n : Nat) : List Byte := Config.hkdf prk (asciiBytes t ++ th) n
    let i2r := k "kalad i2r key" 32
    let r2i := k "kalad r2i key" 32
    let ni := k "kalad i2r salt" 4
    let nr := k "kalad r2i salt" 4
    if c.p.initiate then i2r ++ r2i ++ ni ++ nr else r2i ++ i2r ++ nr ++ ni

/-- A connection as declared, its initial sequences and ephemeral keys drawn. -/
def Conn.declared (r : Nat) (p : ConnParams) (cross : Bool) (peer own psn msn draw : Nat) : Conn :=
  { ridge := r, p := p, state := .declared, crossRack := cross, peer := peer, peerConn := 0, peerE := 0, peerBase := 0, seg := p.seg,
    connects := 0, connectAt := 0, target := none, targetIdx := 0, own := own, sent := none, kemDraw := draw,
    txPsn := psn, txMsn := msn, initPsn := psn, initMsn := msn, unacked := [], msgs := [], waiting := [],
    cumAck := serAdd psn (serMod - 1), peerMark := serAdd msn (serMod - 1),
    cwnd := min (16 * p.seg) p.cwndMax, alpha := alphaOne, srtt := 0, rttvar := 0, backoff := 0,
    rttSamples := [], rtoAt := none, ceAcked := 0, pktAcked := 0, ceSeen := 0, lastDec := 0, lastRound := 0,
    rxCum := 0, rxBits := [], rxMsgs := [], watermark := 0, ceCount := 0, sinceAck := 0, oldestUnacked := none, oldestEnt := 0,
    lastDupAck := 0,
    nackHold := [], nackSeen := [], cmdQ := [], cmdAdmitted := 0, mirOut := [], mirTag := 0, onDie := false, lru := 0, parked := [],
    keyPhase := false, txc := 0, rxPhase := false, oldKeyAt := none, keys := [], oldKeys := [], closingAt := none, closer := none }

/-- A connection that becomes Open with what the peer's record says and the source port of its packet, whose entropy value is 0 (R260, R266,
R267). -/
def Conn.opening (c : Conn) (r : SetupRec) (base seg : Nat) (keys : List Byte) (now : Nat) : Conn :=
  { c with state := .opened, peerConn := r.conn, peerE := r.e, peerBase := base, seg := seg, target := r.target, targetIdx := 0,
           rxCum := serAdd r.psn (serMod - 1), watermark := serAdd r.msn (serMod - 1),
           cwnd := min (16 * seg) c.p.cwndMax, keys := keys, lru := now }

/-- Send CONNECT: the connection is Connecting (R266, R268). -/
def State.sendConnect (s : State) (n : Nat) : State :=
  match s.conns.get? n with
  | none => s
  | some c =>
    let r := c.connect n
    (s.modConn n (fun c => { c with state := .connecting, connects := c.connects + 1, connectAt := s.now, sent := some r })).kSetup n 1 r

-- CONN_CREATE (R265).

/-- The IP datagram of a segment fits the port's MTU. -/
def State.mtuOk (s : State) (p : ConnParams) (cross : Bool) : Bool :=
  match s.ports.get? (p.breakout / 4) with
  | some q => decide (kFrameBytes p.peerAddr cross p.seg - 22 ≤ q.mtu)
  | none => false

/-- A network ring of a ridge. -/
def State.netRing (s : State) (r i : Nat) : Bool :=
  match s.rings.get? (ringKey r i) with
  | some g => !g.host
  | none => false

/-- Every parameter is in its range (R265). -/
def State.connParamsOk (s : State) (r : Nat) (p : ConnParams) : Bool :=
  match s.fab.cur with
  | none => false
  | some f =>
    decide (p.label < 4294967296) && decide (p.peerAddr < 2 ^ 128) && decide (1 ≤ p.peerPort) && decide (p.peerPort ≤ 65535) &&
    f.portAddrs.any (fun a => a.breakout == p.breakout) && decide (p.cls ≤ 7) && segOk p.seg && s.mtuOk p (f.crossRack p.peerAddr) &&
    decide (1 ≤ p.e) && decide (p.e ≤ 64) && decide (1024 ≤ p.entBase) && decide (p.entBase + p.e ≤ 65536) &&
    decide (p.seg ≤ p.cwndMax) && decide (p.cwndMax ≤ 1024 * p.seg) && decide (1 ≤ p.delayUs) && decide (p.delayUs ≤ 255) &&
    (match p.cmdRing with
      | some i => s.netRing r i
      | none => true) &&
    p.psk.length == 32 &&
    (p.initiate || !s.conns.any (fun e => e.2.ridge == r && !e.2.p.initiate && e.2.p.label == p.label))

/-- Connections of a ridge. -/
def State.connCount (s : State) (r : Nat) : Nat := (s.conns.filter (fun e => e.2.ridge == r)).length

/-- The PEER value of an address of a ridge, with its CLS entry: an old one, or a new one; none when the table is full (R324,
R327). -/
def State.peerFor (s : State) (r addr : Nat) : Option (State × Nat) :=
  match s.loupe.peers.find? (fun e => e.1 == r && e.2.1 == addr) with
  | some e => some (s, e.2.2)
  | none =>
    let used := (s.loupe.peers.filter (fun e => e.1 == r)).map (·.2.2)
    let v := lowestNot used used.length 0
    let (t, k) := clsKey r addr
    (s.lAdd r t k (v + r * 65536) true).map (fun s =>
      ({ s with loupe := { s.loupe with peers := s.loupe.peers ++ [(r, addr, v)] } }, v))

/-- Draw the initial sequences and ephemeral keys of a connection. -/
def State.drawSeqs (s : State) : (Nat × Nat × Nat) × State :=
  let k := s.draws
  let (v, s) := s.draw
  ((v.toNat % serMod, v.toNat / serMod % serMod, k), s)

/-- The context of a new connection takes a free on-die entry of its ridge's share. -/
def State.placeContext (s : State) (n r : Nat) : State :=
  if (s.onDieOf r).length < (s.ridge r).p.ctxShare then s.modConn n (fun c => { c with onDie := true, lru := s.now }) else s

/-- The lowest of a ridge's cirques (R267). -/
def lowestOf (l : List Nat) : Nat := l.tail.foldl min (l.headD 0)

/-- CONN_CREATE (R265, R324). -/
def execConnCreate (t : Nat) (h : MbxHdr) (p : ConnParams) (s : State) : Host.Outcome State Fault Refusal :=
  s.mbox t (.connCreate t h p) h 0x0028 .any (fun s => withRidge h s (fun r =>
    if (s.ridge r).state ≠ .opened then .no s .stateConflict
    else if !s.connParamsOk r p then .no s .invalidArg
    else if (s.ridge r).p.connAllow ≤ s.connCount r then .no s .noSpace
    else if s.boot.trngBad && s.fab.cur.any (fun f => Fabric.crossRack f p.peerAddr) then .hw s .trng .security
    else
      match s.conns.fresh 1 131072, s.peerFor r p.peerAddr with
      | some n, some (s', peer) =>
        (match s'.newRegion r (.completion (lowestOf (s.ridge r).p.cirques)) 8192 with
          | none => .no s .noSpace
          | some (s', own) =>
            let cross := match s'.fab.cur with
              | some f => f.crossRack p.peerAddr
              | none => false
            let ((psn, msn, k), s') := s'.drawSeqs
            let s' := { s' with conns := s'.conns.set n (Conn.declared r p cross peer own psn msn k)
                                loupe := { s'.loupe with cmap := s'.loupe.cmap.set n { ridge := r, peer := peer, cls := p.cls } } }
            let s' := s'.placeContext n r
            .ok (if p.initiate then s'.sendConnect n else s') [n])
      | _, _ => .no s .noSpace))

-- Ending a connection (R268).

/-- A connection is Closed: what it carries is resolved, its context, target and map entry go, and its CLS entry with the last
connection to the address (R268, R280, R324). -/
def State.closeConn (s : State) (n : Nat) : State :=
  match s.conns.get? n with
  | none => s
  | some c =>
    let s := (s.resolveConn n).endRegion c.ridge c.own
    let s := { s with rings := s.rings.mapVals (fun _ g =>
      if g.order.contains n then
        { g with order := g.order.filter (· != n), sqHead := (g.sqHead + (g.order.filter (· == n)).length) % g.entries }
      else g) }
    let s := { s with conns := s.conns.erase n, loupe := { s.loupe with cmap := s.loupe.cmap.erase n } }
    if s.conns.any (fun e => e.2.ridge == c.ridge && e.2.p.peerAddr == c.p.peerAddr) then s
    else
      let (t, k) := clsKey c.ridge c.p.peerAddr
      let s := s.lRemove c.ridge t k
      { s with loupe := { s.loupe with peers := s.loupe.peers.filter (fun e => !(e.1 == c.ridge && e.2.1 == c.p.peerAddr)) } }

/-- Nothing of a connection is outstanding: every message sent is done, and every one received is complete or refused (R268, R272). -/
def Conn.quiet (c : Conn) : Bool :=
  c.msgs.all (·.done) && c.unacked.isEmpty && c.waiting.isEmpty &&
  c.rxMsgs.all (fun e => e.2.mark == .complete || e.2.mark == .refused)

/-- A message about one connection of a ridge. -/
def withConn (h : MbxHdr) (n : Nat) (s : State) (body : Nat → Conn → MRes) : MRes :=
  withRidge h s (fun r =>
    match s.conns.get? n with
    | none => .no s .invalidArg
    | some c => if c.ridge = r then body r c else .no s .invalidArg)

/-- CONN_RESET: a Failed connection is Declared again with new initial sequences; the side that initiates sends CONNECT (R268). -/
def execConnReset (t : Nat) (h : MbxHdr) (conn : Nat) (s : State) : Host.Outcome State Fault Refusal :=
  s.mbox t (.connReset t h conn) h 0x0029 .any (fun s => withConn h conn s (fun r c =>
    if c.state ≠ .failed then .no s .stateConflict
    else if s.boot.trngBad && c.crossRack then .hw s .trng .security
    else
      let ((psn, msn, k), s) := s.drawSeqs
      let new : Conn := { Conn.declared r c.p c.crossRack c.peer c.own psn msn k with
                          onDie := c.onDie, lru := c.lru, cmdQ := c.cmdQ, cmdAdmitted := c.cmdAdmitted }
      let s := { s with conns := s.conns.set conn new }
      .ok (if c.p.initiate then s.sendConnect conn else s) []))

/-- CONN_CLOSE: no new sends; at most 1 ms for what is outstanding, then the context is released (R268). -/
def execConnClose (t : Nat) (h : MbxHdr) (conn : Nat) (s : State) : Host.Outcome State Fault Refusal :=
  s.mbox t (.connClose t h conn) h 0x002A .any (fun s => withConn h conn s (fun _ c =>
    if c.closingAt.isSome then .no s .busy
    else if c.state ≠ .opened || c.quiet then .ok (s.closeConn conn) []
    else .wait (s.modConn conn (fun c => { c with closingAt := some (s.now + 1000000), closer := some h.fn }))))

/-- CONN_CLOSE_TIMEOUT: the wait ends, or nothing is outstanding any more (R268). -/
def execConnCloseTimeout (t : Nat) (conn : Nat) (s : State) : Host.Outcome State Fault Refusal :=
  let s := s.advance t
  match s.conns.get? conn with
  | none => .next s
  | some c =>
    match c.closingAt with
    | none => .next s
    | some at_ =>
      if s.frozen || (s.now < at_ && !c.quiet) then .next s
      else .next ((s.closeConn conn).answerBusy c.closer .ok 0 [])

def CState.code (c : CState) : Nat :=
  match c with
  | .declared => 0
  | .connecting => 1
  | .opened => 2
  | .failed => 3

/-- CONN_GET: state, version, S, round trip and window (R268). -/
def execConnGet (t : Nat) (h : MbxHdr) (conn : Nat) (s : State) : Host.Outcome State Fault Refusal :=
  s.mbox t (.connGet t h conn) h 0x002B .any (fun s => withConn h conn s (fun _ c =>
    .ok s [c.state.code, if c.state = .opened then 1 else 0, c.seg, c.srtt, c.cwnd]))

-- The setup channel (R266).

/-- A setup packet passes checks 1 to 5 as far as they apply to connection 0. -/
def State.setupFront (s : State) (p : KPkt) : State × Bool :=
  match s.kGate p with
  | some s => (s, false)
  | none =>
    match s.kFront p with
    | (s, false) => (s, false)
    | (s, true) =>
      match s.opFilters p with
      | (s, true) => (s.kUnclass, false)
      | (s, false) =>
        if !p.isSetup then (s.kUnclass, false)
        else if p.icrc ≠ crc32c (khdrBytes p.hdr ++ p.wire) then ((s.bumpN 3).lineError p.breakout, false)
        else if p.hdr.ver ≠ 1 || !p.hdr.reservedOk then (s.kUnclass, false)
        else (s, true)

/-- A setup packet of a declared connection is received by its ridge (R294, R449); one from an unclassified source changes nothing but
KLD_UNCLASS_CNT (R24). -/
def State.setupRx (s : State) (r : Nat) (p : KPkt) : State :=
  ((s.meterRx r p.breakout (rxFrameBytes p)).bumpR r 81).event none 0x01 1

/-- The ACCEPT declaration a CONNECT matches: its ridge, LABEL and source (R266). -/
def State.acceptDecl (s : State) (p : KPkt) (r : SetupRec) : Option (Nat × Conn) :=
  s.conns.find? (fun e => e.2.ridge == p.hdr.ridge && !e.2.p.initiate && e.2.p.label == r.label && e.2.p.peerAddr == p.srcAddr &&
    e.2.state != .failed)

/-- CONNECT (R266): answered with ACCEPT or REFUSE, or dropped. -/
def execConnect (t : Nat) (p : KPkt) (r : SetupRec) (s : State) : Host.Outcome State Fault Refusal :=
  match (s.advance t).setupFront p with
  | (s, false) => .next s
  | (s, true) =>
    match s.acceptDecl p r with
    | none => .next s.kUnclass
    | some (n, c) =>
      let s := s.setupRx c.ridge p
      if c.state = .opened then
        match c.sent with
        | some a => if c.peerConn = r.conn then .next (s.kSetup n 2 a) else .next s.kUnclass
        | none => .next s.kUnclass
      else if !r.versions.testBit 1 then .next (s.kSetup n 3 (refuseRec r.label 1))
      else if !r.paramsOk (if c.crossRack then 1216 else 0) then .next (s.kSetup n 3 (refuseRec r.label 3))
      else
        let seg := min r.seg c.p.seg
        let a := { c with seg := seg }.accept n r.keyData
        let s := s.modConn n (fun c => { c.opening r p.srcPort seg (c.derive r.keyData r.body a.body) s.now with sent := some a })
        .next (s.kSetup n 2 a)

/-- The connection an ACCEPT or REFUSE answers: the lowest one Connecting to its source in its ridge. -/
def State.connectingTo (s : State) (p : KPkt) : Option (Nat × Conn) :=
  s.conns.find? (fun e => e.2.ridge == p.hdr.ridge && e.2.state == .connecting && e.2.p.peerAddr == p.srcAddr)

/-- ACCEPT (R266): the connection is Open. One whose version or parameters do not fit is dropped. -/
def execAccept (t : Nat) (p : KPkt) (r : SetupRec) (s : State) : Host.Outcome State Fault Refusal :=
  match (s.advance t).setupFront p with
  | (s, false) => .next s
  | (s, true) =>
    match s.connectingTo p with
    | none => .next s.kUnclass
    | some (n, c) =>
      let s := s.setupRx c.ridge p
      if r.versions ≠ 1 || !r.paramsOk (if c.crossRack then 1120 else 0) || c.p.seg < r.seg then .next s.kUnclass
      else
        let own := (c.sent.map (·.body)).getD []
        .next (s.modConn n (fun c => c.opening r p.srcPort r.seg (c.derive r.keyData own r.body) s.now))

/-- REFUSE (R268). -/
def execRefuse (t : Nat) (p : KPkt) (r : SetupRec) (s : State) : Host.Outcome State Fault Refusal :=
  match (s.advance t).setupFront p with
  | (s, false) => .next s
  | (s, true) =>
    match s.connectingTo p with
    | none => .next s.kUnclass
    | some (n, c) =>
      let s := s.setupRx c.ridge p
      if 1 ≤ r.reason ∧ r.reason ≤ 3 then .next (s.failConn n) else .next s.kUnclass

/-- CONNECT_RESEND: every 100 µs, ten sends in all (R266). -/
def execConnectResend (t : Nat) (conn : Nat) (s : State) : Host.Outcome State Fault Refusal :=
  let s := s.advance t
  match s.conns.get? conn with
  | none => .next s
  | some c =>
    if s.frozen || c.state ≠ .connecting || s.now < c.connectAt + 100000 then .next s
    else if 10 ≤ c.connects then .next (s.failConn conn)
    else .next (s.sendConnect conn)

-- Timers (R276, R278, R281, R283, R288).

/-- RTO_EXPIRY (R278, R279). -/
def execRtoExpiry (t : Nat) (conn : Nat) (s : State) : Host.Outcome State Fault Refusal :=
  let s := s.advance t
  match s.conns.get? conn with
  | none => .next s
  | some c =>
    match c.rtoAt with
    | none => .next s
    | some at_ =>
      if s.frozen || c.state ≠ .opened || s.now < at_ || c.unacked.isEmpty then .next s
      else
        let s := (s.fetchFor conn).bumpR c.ridge 83
        if s.retryMax < c.backoff + 1 then .next (s.failConn conn)
        else
          let s := s.modConn conn (fun c =>
            let c := { c with backoff := c.backoff + 1, cwnd := c.seg, lastDec := s.now }
            { c with rtoAt := some (s.now + c.rto) })
          .next (c.unacked.foldl (fun s p => s.kResend conn p) s)

/-- ACK_DELAY_EXPIRY (R276). -/
def execAckDelayExpiry (t : Nat) (conn : Nat) (s : State) : Host.Outcome State Fault Refusal :=
  let s := s.advance t
  match s.conns.get? conn with
  | none => .next s
  | some c =>
    match c.oldestUnacked with
    | none => .next s
    | some at_ =>
      if s.frozen || c.state ≠ .opened || s.now < at_ + s.ackDelay * 1000 then .next s
      else .next ((s.fetchFor conn).kAck conn c.oldestEnt)

/-- A message that a BUSY deferred leaves again whole, under new PSNs (R281). -/
def State.resendWhole (s : State) (n : Nat) (m : TxMsg) : State :=
  match s.conns.get? n with
  | none => s
  | some c =>
    let sz := if m.op = 2 then 16 else c.seg
    let pk := cutMsg (m.bytes.length / (max 1 sz) + 1) sz 0 m.msn m.op m.region m.addr m.imm m.bytes
    (s.modConn n (fun c => { c with
      msgs := c.msgs.map (fun q => if q.msn = m.msn then { q with retryAt := none } else q)
      waiting := c.waiting ++ pk })).kFill n

/-- A packet that a CTX_RETRY deferred leaves again with its PSN (R281). -/
def State.resendPkt (s : State) (n : Nat) (p : TxPkt) : State :=
  (s.modConn n (fun c => { c with unacked := c.unacked.map (fun q => if q.psn = p.psn then { q with retryAt := none } else q) })).kResend n p

/-- An instant that was set has come. -/
def isDueAt (at_ : Option Nat) (now : Nat) : Bool :=
  match at_ with
  | some t => decide (t ≤ now)
  | none => false

/-- RETRY_AFTER_EXPIRY: the packets, then the messages, whose retry-after has run out (R281). -/
def execRetryAfterExpiry (t : Nat) (conn : Nat) (s : State) : Host.Outcome State Fault Refusal :=
  let s := s.advance t
  match s.conns.get? conn with
  | none => .next s
  | some c =>
    if s.frozen || c.state ≠ .opened then .next s
    else
      let pkts := c.unacked.filter (fun p => isDueAt p.retryAt s.now)
      let msgs := c.msgs.filter (fun m => isDueAt m.retryAt s.now)
      .next (msgs.foldl (fun s m => s.resendWhole conn m) (pkts.foldl (fun s p => s.resendPkt conn p) s))

/-- OLD_KEY_EXPIRY: the previous phase's key is dropped; the timer of an evicted context fetches it (R283, R288). -/
def execOldKeyExpiry (t : Nat) (conn : Nat) (s : State) : Host.Outcome State Fault Refusal :=
  let s := s.advance t
  match s.conns.get? conn with
  | none => .next s
  | some c =>
    if isDueAt c.oldKeyAt s.now then .next ((s.fetchFor conn).modConn conn (fun c => { c with oldKeyAt := none, oldKeys := [] }))
    else .next s

/-- CONTEXT_FETCH_DONE: parked packets are processed in arrival order, from check 5; an uncorrectable context fails the
connection (R284). -/
def execContextFetchDone (t : Nat) (conn : Nat) (ok : Bool) (s : State) : Host.Outcome State Fault Refusal :=
  let s := s.advance t
  match s.conns.get? conn with
  | none => .next s
  | some c =>
    if s.frozen || c.onDie || c.parked.isEmpty then .next s
    else if !ok then .next (((s.bumpN 2049).report { ErrRec.of .uncorr c.ridge .none with handle := conn }).failConn conn)
    else
      let s := ((s.unpark conn).makeRoom c.ridge).modConn conn (fun c => { c with onDie := true, lru := s.now })
      .next (c.parked.foldl (fun s e => s.kCheck5 conn e.2) s)

-- Notification and admission (R274, R285).

/-- The next message to notify or take, in MSN order: complete, not yet notified, every lower MSN resolved. -/
def Conn.nextNotice (c : Conn) : Option (Nat × RxMsg) :=
  let top := serAdd c.watermark 1
  let l := c.rxMsgs.filter (fun e => e.2.mark == .complete && !e.2.notified && (e.2.op == 1 || e.2.op == 4) && serLe e.1 top)
  l.foldl (fun w e => match w with
    | none => some e
    | some v => if serDist v.1 top < serDist e.1 top then some e else some v) none

/-- A completion placed in the node's own target is that of a mirrored command, or a violation, logged the first time (R267, R270). -/
def State.ownCompletion (s : State) (n : Nat) (c : Conn) (m : RxMsg) : State :=
  match s.regions.get? (regionKey c.ridge m.region) with
  | none => s
  | some g =>
    let bs := memSlice g.mem m.addr 128
    let tag := leAt bs 0 2
    if m.region = c.own && c.mirOut.any (fun e => e.1 == tag) then s.mirDone n tag (leAt bs 3 1) (leAt bs 24 8)
    else s.kViolation n 0 0

/-- A WRITE_IMM is notified to the region's owner (R124, R267, R446). -/
def State.notifyImm (s : State) (n : Nat) (c : Conn) (m : RxMsg) : State :=
  match s.regions.get? (regionKey c.ridge m.region) with
  | none => s
  | some g =>
    match g.kind with
    | .composite _ _ _ _ => s.contribution c.ridge m.region m.addr m.imm
    | .lease => s.leaseNotify c.ridge m.region
    | .completion _ => s.ownCompletion n c m
    | .scratch _ _ _ => s
    | .query => s

/-- Entries of a network ring in use: commands notified and not yet started (log entry 23). -/
def State.ringUsed (s : State) (r i : Nat) : Nat :=
  s.conns.foldl (fun k e => if e.2.ridge = r ∧ e.2.p.cmdRing = some i then k + e.2.cmdQ.length else k) 0

/-- A complete COMMAND can be admitted (R285). -/
def State.cmdRoom (s : State) (c : Conn) : Bool :=
  s.slotFree c.ridge &&
  (match c.p.cmdRing with
    | none => false
    | some i => (match s.rings.get? (ringKey c.ridge i) with
      | some g => decide (s.ringUsed c.ridge i < g.entries)
      | none => false)) &&
  (match c.target with
    | none => false
    | some (_, _, n) => decide (c.cmdAdmitted < n))

/-- A connection's COMMAND takes the next entry of its ring (R64, R274). -/
def State.joinRing (s : State) (c : Conn) (n : Nat) : State :=
  match c.p.cmdRing with
  | none => s
  | some i => s.modRing (ringKey c.ridge i) (fun g => { g with order := g.order ++ [n], sqTail := (g.sqTail + 1) % g.entries })

/-- The bytes of a COMMAND message in order. -/
def RxMsg.command (m : RxMsg) : List Byte := (sortBy (fun a b => decide (a.1 ≤ b.1)) m.bytes).flatMap (·.2)

/-- MESSAGE_NOTIFY: one message is notified, admitted or deferred (R274, R285). -/
def execMessageNotify (t : Nat) (conn : Nat) (s : State) : Host.Outcome State Fault Refusal :=
  let s := s.advance t
  match s.conns.get? conn with
  | none => .next s
  | some c =>
    if s.frozen || c.state ≠ .opened then .next s
    else
      match c.nextNotice with
      | none => .next s
      | some (msn, m) =>
        let pass (s : State) : State := s.modConn conn (fun c =>
          let c := { c with rxMsgs := c.rxMsgs.adjust msn (fun m => { m with notified := true, bytes := [] }) }
          if serLe msn c.watermark then { c with rxMsgs := c.rxMsgs.erase msn } else c.advanceMark 1025)
        if m.op = 1 then .next ((pass s).notifyImm conn c m)
        else if s.cmdRoom c then
          .next (((pass s).modConn conn (fun c => { c with cmdQ := c.cmdQ ++ [m.command], cmdAdmitted := c.cmdAdmitted + 1 })).joinRing c conn)
        else
          let s := s.modConn conn (fun c => { c with rxMsgs := c.rxMsgs.adjust msn (fun m =>
            { m with mark := .deferred, bytes := [], placed := 0, total := none }) })
          .next (s.kNack conn .busy m.psn msn 0 m.ent 0)

end Sys2Proof.Machine
end

