-- ==== Sys2Proof/Machine/Time.lean ====
section
/-! DEFINITION. Network time (R300 to R305): the servo's states, steps and slews, holdover, the 1PPS pins.
Log entries 6, 25, 43. -/

namespace Sys2Proof.Machine

open Sys2Proof

-- Records and state changes.

/-- HOLD_MS: time since the last valid Sync, saturating (R317). -/
def State.holdMs (s : State) : Nat :=
  if s.time.synced then min 65535 ((s.now - s.time.lastSync) / 1000000) else 0

/-- A record of cause TIME to ridge 0 (R303, R304, R420). -/
def State.timeRecord (s : State) : State :=
  s.report { ErrRec.of .time 31 .none with detail := [(s.time.offset % 18446744073709551616).toNat, s.time.st.code, s.holdMs] }

/-- The time state changes: its counts start afresh, and the PF is told (R302, R403). -/
def State.setTState (s : State) (st : TState) : State :=
  { s with time := { s.time with st := st, lockCnt := 0, faultCnt := 0 } }.raiseCause 0 causeTime

/-- Entry to FAULT (R303, R319). -/
def State.timeFault (s : State) : State := ((s.setTState .fault).bumpN 12).timeRecord

/-- Entry to HOLDOVER, from LOCKED or FAULT: the counter keeps the last rate the servo measured (R302, R304). -/
def State.holdover (s : State) : State :=
  if s.time.st = .locked ∨ s.time.st = .fault then
    let s := s.setTState .holdover
    ({ s with time := { s.time with holdFrom := s.now, holdRecs := 0, rate := s.time.servo } }).timeRecord
  else s

-- Steps (R303, R316).

/-- A list whose pending takeover the step has passed takes over at the step instant, and its boundaries run from there. -/
def Sched.stepped (g : Sched) (now : Nat) : Sched :=
  match g.pend with
  | none => g
  | some (es, at_) => if at_ ≤ now then { run := { entries := es, base := now }, pend := none } else g

/-- Step the counter to the measured fabric time; the counts of R302 start afresh. -/
def State.stepTime (s : State) : State :=
  let new := ((s.time.now : Int) - s.time.left).toNat % 2 ^ 64
  { s with time := { s.time with now := new, left := 0, lockCnt := 0, faultCnt := 0 }
           brks := s.brks.mapVals (fun _ b => { b with gates := b.gates.mapVals (fun _ g => g.stepped new),
                                                       shutter := b.shutter.stepped new,
                                                       idleAt := max b.idleAt new, decidedAt := new }) }

/-- A step is allowed in a time state: in ACQUIRING always, else only while every tenant ridge is Absent. -/
def State.mayStep (s : State) : Bool := s.time.st == .acquiring || !s.tenantExists

/-- The rate the servo measures in ppb, within the 100 ppm of R303 (log entry 6). -/
def servoMeasure (offset rate : Int) : Int := max (-100000) (min 100000 (Config.servoRate offset rate))

/-- The rate of a slew in ppb: the full 100 ppm toward fabric time in FAULT, else the servo's (R303). -/
def slewRate (st : TState) (offset servo : Int) : Int :=
  if st = .fault then (if 0 < offset then -100000 else if offset < 0 then 100000 else 0) else servo

/-- Slew on a phase measurement. -/
def State.slew (s : State) : State :=
  let m := servoMeasure s.time.offset s.time.rate
  { s with time := { s.time with servo := m, rate := slewRate s.time.st s.time.offset m } }

-- PTP (R301, R302).

/-- The PTP and 1PPS logic runs: not in A3, where the I/O ring is off (R475, R477). -/
def State.ptpOn (s : State) : Bool := !(s.power.state == 3) && !s.dead

/-- A PTP message is counted; one of another domain or on another port changes nothing else (R24, R301). -/
def State.ptpFront (s : State) (domain breakout : Nat) : State × Bool :=
  let s := s.event none 0x14 1
  match s.fab.cur with
  | none => (s.bumpN 10, false)
  | some f => if f.ptpDomain = domain ∧ f.ptpPorts.contains breakout = true then (s, true) else (s.bumpN 10, false)

/-- The first of two data sets is better (R301): the fields in the order of IEEE 1588-2019, lower is better. -/
def lexLess (a b : List Nat) : Bool :=
  match a, b with
  | [], _ => false
  | _ :: _, [] => false
  | x :: xs, y :: ys => decide (x < y) || (x == y && lexLess xs ys)

/-- The fields of a data set in comparison order. -/
def announceKey (a : Announce) (breakout : Nat) : List Nat :=
  [a.priority1, a.clockClass, a.accuracy, a.variance, a.priority2, a.gmIdentity, a.stepsRemoved, breakout]

/-- The best of the data sets heard (R301). -/
def bestMaster (l : List (Nat × Announce)) : Option (Nat × Announce) :=
  l.foldl (fun w e => match w with
    | none => some e
    | some v => if lexLess (announceKey e.2 e.1) (announceKey v.2 v.1) then some e else some v) none

/-- A clock's latest Announce on a port replaces its earlier one, and the best master is selected (R301). -/
def State.hear (s : State) (breakout : Nat) (a : Announce) : State :=
  let heard := s.time.heard.filter (fun e => !(e.1 == breakout && e.2.gmIdentity == a.gmIdentity)) ++ [(breakout, a)]
  { s with time := { s.time with heard := heard, master := bestMaster heard } }

/-- The selected master's Announce timeout: it is heard no more, and the best of the others is selected (R301, R302). -/
def State.unhear (s : State) : State :=
  let heard := match s.time.master with
    | some m => s.time.heard.filter (· != m)
    | none => s.time.heard
  { s with time := { s.time with heard := heard, master := bestMaster heard } }

/-- The 1PPS role in force. -/
def State.ppsRole (s : State) : PpsRole :=
  match s.fab.cur with
  | some f => f.pps
  | none => .none

/-- The announced Sync interval in ns, clamped to 2^-7 s to 1 s; 0x7F counts as 1 s (R302). -/
def syncNs (logInterval : Int) : Nat :=
  if logInterval = 0x7F || 0 ≤ logInterval then 1000000000
  else 1000000000 / 2 ^ (min 7 (-logInterval).toNat)

/-- The lock and fault counts after a Sync that steps nothing, and the changes they cause (R302). -/
def State.countSync (s : State) : State :=
  let a := s.time.offset.natAbs
  let lock := if a ≤ 200 then s.time.lockCnt + 1 else 0
  let fault := if s.time.stepThUs * 1000 < a then s.time.faultCnt + 1 else 0
  let s := { s with time := { s.time with lockCnt := lock, faultCnt := fault } }
  match s.time.st with
  | .unset => s
  | .acquiring => if 16 ≤ lock then s.setTState .locked else s
  | .locked => if 8 ≤ fault && s.tenantExists then s.timeFault else s
  | .holdover => if 16 ≤ lock then s.setTState .locked else if 8 ≤ fault && s.tenantExists then s.timeFault else s
  | .fault => if 16 ≤ lock then s.setTState .locked else s

/-- A frame of ridge 0 that the I/O ring sends: class 7 (R301, log entry 25). -/
def State.ioFrame (s : State) (x queue bytes : Nat) : State :=
  s.enqueue x { ridge := 0, cls := 7, queue := queue, bytes := bytes, conn := 0, psn := 0, msn := 0, op := 0, plen := 0, retx := 0,
                srcPort := 0, queuedAt := s.now, data := [] }

/-- The queues of ridge 0 for PTP and for ARP and neighbour discovery (R306). -/
def ptpQueue : Nat := 200000
def arpQueue : Nat := 200001

/-- PTP_SYNC (R302, R303): `offset` is the node's time less the master's. -/
def execPtpSync (t : Nat) (domain breakout : Nat) (offset logInterval : Int) (s : State) : Host.Outcome State Fault Refusal :=
  let s := s.advance t
  if !s.ptpOn then .next s
  else
    match s.ptpFront domain breakout with
    | (s, false) => .next s
    | (s, true) =>
      let s := s.bumpN 9
      match s.time.master with
      | none => .next s
      | some (b, _) =>
        if b ≠ breakout then .next s
        else
          let first := s.time.st == .unset
          let s := { s with time := { s.time with offset := offset, left := offset, lastSync := s.now, synced := true,
                                                  syncInt := syncNs logInterval } }
          let s := s.ioFrame breakout ptpQueue 68
          let s := if first then s.setTState .acquiring else s
          if (first || s.time.stepThUs * 1000 < offset.natAbs) && s.mayStep then .next s.stepTime
          else
            let s := s.countSync
            .next (if s.time.ppsPhase && s.time.st != .fault then s else s.slew)

/-- PTP_ANNOUNCE: the best master of the configured domain and ports is selected (R301). -/
def execPtpAnnounce (t : Nat) (domain breakout : Nat) (a : Announce) (s : State) : Host.Outcome State Fault Refusal :=
  let s := s.advance t
  if !s.ptpOn then .next s
  else
    match s.ptpFront domain breakout with
    | (s, false) => .next s
    | (s, true) =>
      .next (s.hear breakout a)

/-- PTP_DELAY_RESP: the path delay is measured (R301). -/
def execPtpDelayResp (t : Nat) (domain breakout : Nat) (delay : Nat) (s : State) : Host.Outcome State Fault Refusal :=
  let s := s.advance t
  if !s.ptpOn then .next s
  else
    match s.ptpFront domain breakout with
    | (s, false) => .next s
    | (s, true) =>
      let mine := match s.time.master with
        | some (b, _) => b == breakout
        | none => false
      .next (if mine then { s with time := { s.time with delay := delay } } else s)

/-- SYNC_TIMEOUT: no valid Sync for 4 Sync intervals, or the master's Announce timeout (R302). -/
def execSyncTimeout (t : Nat) (announce : Bool) (s : State) : Host.Outcome State Fault Refusal :=
  let s := s.advance t
  if announce then .next s.unhear.holdover
  else if s.now < s.time.lastSync + 4 * s.time.syncInt then .next s
  else .next s.holdover

/-- HOLDOVER_SECOND: one record more at every whole second of holdover (R304). -/
def execHoldoverSecond (t : Nat) (s : State) : Host.Outcome State Fault Refusal :=
  let s := s.advance t
  if s.time.st ≠ .holdover || s.now < s.time.holdFrom + (s.time.holdRecs + 1) * 1000000000 then .next s
  else .next ({ s with time := { s.time with holdRecs := s.time.holdRecs + 1 } }.timeRecord)

/-- NT_STEP (R303). -/
def execNtStep (t : Nat) (h : MbxHdr) (s : State) : Host.Outcome State Fault Refusal :=
  s.mbox t (.ntStep t h) h 0x0049 .ridge0 (fun s =>
    match s.time.st with
    | .unset => .no s .stateConflict
    | .acquiring => .ok s.stepTime []
    | .locked => if s.tenantExists then .no s .busy else .ok s.stepTime []
    | .holdover => if s.tenantExists then .no s .busy else .ok s.stepTime []
    | .fault => if s.tenantExists then .no s .busy else .ok s.stepTime [])

-- 1PPS (R305).

/-- The signed distance of an instant from the nearest whole second. -/
def secondOffset (now : Nat) : Int :=
  let f := now % 1000000000
  if f ≤ 500000000 then (f : Int) else (f : Int) - 1000000000

/-- The offset an edge at this instant measures: what of the last one is left, and the distance of PTP-derived time from the nearest
whole second (R305). -/
def State.ppsOffset (s : State) : Int :=
  s.time.left + secondOffset (((s.now : Int) - s.time.left).toNat % 2 ^ 64)

/-- PPS_IN_EDGE: the phase measurement of a second that PTP supplies; without one the edge is ignored and counted. -/
def execPpsInEdge (t : Nat) (s : State) : Host.Outcome State Fault Refusal :=
  let s := s.advance t
  if s.ppsRole ≠ .input || !s.ptpOn then .next s
  else if s.time.st = .unset then .next (s.bumpN 11)
  else .next ({ s with time := { s.time with ppsPhase := true, lastPps := s.now, offset := s.ppsOffset, left := s.ppsOffset } }.slew)

/-- PPS_LOSS: no edge for 3 s; the phase comes from Sync again, and the change is counted. -/
def execPpsLoss (t : Nat) (s : State) : Host.Outcome State Fault Refusal :=
  let s := s.advance t
  if !s.time.ppsPhase || s.now < s.time.lastPps + 3000000000 then .next s
  else .next { s with time := { s.time with ppsPhase := false, ppsChanges := s.time.ppsChanges + 1 } }

/-- PPS_OUT_EDGE: at every whole second, not in UNSET or ACQUIRING. -/
def execPpsOutEdge (t : Nat) (s : State) : Host.Outcome State Fault Refusal :=
  let s := s.advance t
  if s.ppsRole ≠ .output || s.now % 1000000000 ≠ 0 || s.time.st = .unset || s.time.st = .acquiring || !s.ptpOn then .next s
  else if s.time.lastPpsOut = s.now then .next s
  else .next (({ s with time := { s.time with lastPpsOut := s.now } }).emit (.pps s.now))

end Sys2Proof.Machine
end

