-- ==== Sys2Proof/Machine/Port.lean ====
section
/-! DEFINITION. Ethernet (R295 to R299, R306 to R319): ports, links, the egress decision with shutters, gates, shapers and the round
robin, and takeovers.
Log entries 24, 44, 66. -/

namespace Sys2Proof.Machine

open Sys2Proof

-- Links (R299).

def State.modBrk (s : State) (x : Nat) (f : Breakout → Breakout) : State := { s with brks := s.brks.adjust x f }
def State.brk (s : State) (x : Nat) : Breakout := (s.brks.get? x).getD (Breakout.reset 0)

/-- A breakout of a port's mode (R295); in recovery mode the ports are disabled (R359). -/
def State.brkExists (s : State) (x : Nat) : Bool :=
  match s.ports.get? (x / 4) with
  | some p => decide (x % 4 < 2 ^ p.mode) && !s.boot.recovery
  | none => false

/-- A breakout loses link: its frames are discarded; ridge 0 is told (R299, R403, R423). -/
def State.linkLost (s : State) (x : Nat) (injected : Bool) : State :=
  if !(s.brk x).link then s
  else
    let s := (s.modBrk x (fun b => { b with link := false, queue := [], sending := none })).bumpN (16 + x)
    let s := s.weighLanes x 50 injected
    (s.report { ErrRec.of .link 31 (.lane (((s.lanesOf x)[0]?).getD 0)) with injected := injected }).raiseCause 0 causeLink

/-- LINK_DOWN. -/
def execLinkDown (t : Nat) (breakout : Nat) (s : State) : Host.Outcome State Fault Refusal :=
  .next ((s.advance t).linkLost breakout false)

/-- LINK_UP: a breakout's link comes up; the PF is told (R403, R484). -/
def execLinkUp (t : Nat) (breakout : Nat) (s : State) : Host.Outcome State Fault Refusal :=
  let s := s.advance t
  if (s.brk breakout).link || !s.brkExists breakout || s.power.state = 3 || s.dead || s.sns.lost.contains (.eth (breakout / 4)) then .next s
  else .next ((s.modBrk breakout (fun b => { b with link := true })).raiseCause 0 causeLink)

/-- PORT_SET (R296): an accepted one retrains the port's links. -/
def execPortSet (t : Nat) (h : MbxHdr) (port mode mtu : Nat) (macs : List Nat) (s : State) : Host.Outcome State Fault Refusal :=
  s.mbox t (.portSet t h port mode mtu macs) h 0x0048 .ridge0 (fun s =>
    if 1 < port || 2 < mode || mtu < 1500 || 9000 < mtu || macs.length ≠ 2 ^ mode || macs.any (fun m => decide (2 ^ 48 ≤ m)) then
      .no s .invalidArg
    else if s.conns.any (fun e => e.2.p.breakout / 4 == port) then .no s .busy
    else
      let s := (List.range 4).foldl (fun s b => s.linkLost (4 * port + b) false) s
      let s := { s with ports := s.ports.set port { mode := mode, mtu := mtu } }
      .ok ((macs.zipIdx).foldl (fun s e => s.modBrk (4 * port + e.2) (fun b => { b with mac := e.1 })) s) [])

-- Frames received beside Kalad (R24, R297).

/-- ARP_RX: a request for an address of the description is answered; a reply is counted and changes nothing else (R17, R24; the counter is
log entry 73's). -/
def execArpRx (t : Nat) (breakout target : Nat) (request : Bool) (s : State) : Host.Outcome State Fault Refusal :=
  let s := s.advance t
  if !s.ptpOn || !(s.brk breakout).link || s.trace.held then .next s
  else
    match s.fab.cur with
    | none => .next s
    | some f =>
      if request && f.portAddrs.any (fun a => a.breakout == breakout && (a.ipv6 == target || a.ipv4 == some target)) then
        .next ((s.emit (.arpReply breakout target)).ioFrame breakout arpQueue 64)
      else if request then .next s
      else .next (s.bumpN 7)

/-- ETH_FRAME_DROP (R297, R423). -/
def execEthFrameDrop (t : Nat) (breakout : Nat) (kind : BadFrame) (s : State) : Host.Outcome State Fault Refusal :=
  let s := s.advance t
  if !(s.brk breakout).link then .next s
  else
    match kind with
    | .etherType => .next (s.bumpN 7)
    | .pause => .next ((s.bumpN 7).bumpN 8)
    | .fcs => .next ((s.bumpN 6).lineError breakout)

-- Cyclic lists (R311 to R315).

def CycList.cycle (l : CycList) : Nat := l.entries.foldl (fun n e => n + e.2) 0

/-- Where an instant lies in the cycle; boundaries fall at base + k × cycle. -/
def CycList.offset (l : CycList) (t : Nat) : Nat := (((t : Int) - (l.base : Int)) % ((max 1 l.cycle : Nat) : Int)).toNat

/-- The entry that holds an offset: its value, what is left of it, and the entries after it in cyclic order. -/
def entryFrom (es : List (Nat × Nat)) (before : List (Nat × Nat)) (off : Nat) : Option (Nat × Nat × List (Nat × Nat)) :=
  match es with
  | [] => none
  | e :: rest =>
    if off < e.2 then some (e.1, e.2 - off, rest ++ before.reverse ++ [e]) else entryFrom rest (e :: before) (off - e.2)

/-- The entry in force at an instant: its value, its end, and the entries that follow. -/
def CycList.at_ (l : CycList) (t : Nat) : Nat × Nat × List (Nat × Nat) :=
  match entryFrom l.entries [] (l.offset t) with
  | some (v, left, rest) => (v, t + left, rest)
  | none => (0, t + 1000000, [])

/-- An instant is a cycle boundary. -/
def CycList.boundary (l : CycList) (t : Nat) : Bool := l.offset t == 0

/-- The list that governs at an instant: the pending one from its takeover on (R312). -/
def Sched.listAt (g : Sched) (t : Nat) : CycList :=
  match g.pend with
  | none => g.run
  | some (es, at_) => if at_ ≤ t then { entries := es, base := at_ } else g.run

/-- The takeover instant that still lies ahead. -/
def Sched.next (g : Sched) (t : Nat) : Option Nat :=
  match g.pend with
  | none => none
  | some (_, at_) => if t < at_ then some at_ else none

/-- The ridge whose shutter slot contains an instant, and the slot's end (R307, R312). -/
def Breakout.slotAt (b : Breakout) (t : Nat) : Nat × Nat :=
  let (r, e, _) := (b.shutter.listAt t).at_ t
  match b.shutter.next t with
  | some at_ => (r, min e at_)
  | none => (r, e)

/-- A list that has never been set: the open gate of cold reset (R311). -/
def Breakout.gate (b : Breakout) (r : Nat) : Sched := (b.gates.get? r).getD { run := CycList.openGate, pend := none }

/-- From an instant where an entry ends, the first entry that closes a class; none when no entry does. -/
def closesIn (c at_ : Nat) (es : List (Nat × Nat)) : Option Nat :=
  match es with
  | [] => none
  | e :: rest => if e.1.testBit c then closesIn c (at_ + e.2) rest else some at_

/-- The first instant from t on at which a list closes a class. -/
def CycList.closes (l : CycList) (c t : Nat) : Option Nat :=
  let (m, e, rest) := l.at_ t
  if m.testBit c then closesIn c e rest else some t

/-- The next instant at which the gate of a class is closed, under whichever list governs then (R307). -/
def Sched.closes (g : Sched) (c t : Nat) : Option Nat :=
  let a := (g.listAt t).closes c t
  match g.pend, g.next t with
  | some (es, _), some at_ =>
    let b := ({ entries := es, base := at_ } : CycList).closes c at_
    (match a with
      | some x => if x < at_ then some x else b
      | none => b)
  | _, _ => a

-- Round robin (R307).

def classKey (r c : Nat) : Nat := 8 * r + c
def queueKey (r c q : Nat) : Nat := classKey r c * 1048576 + q

/-- Queues that hold frames of a class, ascending. -/
def Breakout.queuesOf (b : Breakout) (r c : Nat) : List Nat :=
  (b.queue.filter (fun f => f.ridge == r && f.cls == c)).foldl
    (fun l f => if l.contains f.queue then l else insertBy (fun x y => decide (x ≤ y)) f.queue l) []

/-- The head frame of a queue. -/
def Breakout.headOf (b : Breakout) (r c q : Nat) : Option TxFrame := b.queue.find? (fun f => f.ridge == r && f.cls == c && f.queue == q)

/-- The queue after one in cyclic order. -/
def queueAfter (l : List Nat) (q : Nat) : Nat := ((l.find? (fun x => decide (q < x))).orElse (fun _ => l.head?)).getD q

/-- The next queue in deficit round robin, its deficit after its frame, and the deficits met on the way. -/
def Breakout.roundRobin (fuel : Nat) (b : Breakout) (r c : Nat) (qs : List Nat) (q : Nat) (defs : FMap Nat) :
    Option (Nat × TxFrame × FMap Nat) :=
  match fuel with
  | 0 => none
  | fuel + 1 =>
    let d := (defs.get? (queueKey r c q)).getD 0
    match b.headOf r c q with
    | some f =>
      if f.bytes ≤ d then some (q, f, defs.set (queueKey r c q) (d - f.bytes))
      else
        let n := queueAfter qs q
        Breakout.roundRobin fuel b r c qs n (defs.set (queueKey r c n) ((defs.get? (queueKey r c n)).getD 0 + 8192))
    | none =>
      let n := queueAfter qs q
      let defs := defs.erase (queueKey r c q)
      Breakout.roundRobin fuel b r c qs n (defs.set (queueKey r c n) ((defs.get? (queueKey r c n)).getD 0 + 8192))

/-- The head frame of the next queue of a class. -/
def Breakout.pick (b : Breakout) (r c : Nat) : Option (Nat × TxFrame × FMap Nat) :=
  let qs := b.queuesOf r c
  if qs.isEmpty then none
  else Breakout.roundRobin (4 * qs.length + 4) b r c qs ((b.turn.get? (classKey r c)).getD 0) b.deficit

-- Shapers (R309, R310).

/-- Credit over a stretch of open time: `waits` says whether a frame of the class was waiting (R309). -/
def Shaper.accrue (h : Shaper) (ns : Nat) (waits : Bool) : Shaper :=
  let up := h.credit + ((h.idle * ns : Nat) : Int)
  { h with credit := if waits then min (((h.hi * 1000 : Nat)) : Int) up
                     else if h.credit < 0 then min 0 up
                     else 0 }

/-- A change takes effect, with the credit RESET_MODE names (R310). -/
def Shaper.apply (h : Shaper) : Shaper :=
  match h.pend with
  | none => h
  | some (en, idle, hi, full) =>
    { h with enabled := en, idle := idle, hi := hi, credit := if full then ((hi * 1000 : Nat) : Int) else 0, pend := none }

/-- Bring a class's credit up to an instant: frozen unless the gate and the shutter slot were open since (R309). -/
def Breakout.credit (b : Breakout) (k now : Nat) (h : Shaper) : Shaper :=
  let r := k / 8
  let c := k % 8
  let isOpen := (b.slotAt b.decidedAt).1 == r && (((b.gate r).listAt b.decidedAt).at_ b.decidedAt).1.testBit c
  let oldest := (b.queue.filter (fun f => f.ridge == r && f.cls == c)).foldl
    (fun m f => match m with
      | none => some f.queuedAt
      | some x => some (min x f.queuedAt)) (none : Option Nat)
  let h' :=
    if !isOpen || now ≤ h.at_ then h
    else
      match oldest with
      | none => h.accrue (now - h.at_) false
      | some q =>
        let from_ := max h.at_ (min q now)
        ((if h.at_ < from_ then h.accrue (from_ - h.at_) false else h).accrue (now - from_) true)
  ({ h' with at_ := max h.at_ now }).apply

-- Idle time (R319, R457).

/-- The share of a ridge in one cycle, and up to an offset of it. -/
def slotShare (r : Nat) (es : List (Nat × Nat)) (off : Nat) : Nat :=
  match es with
  | [] => 0
  | e :: rest => (if e.1 = r then min e.2 off else 0) + slotShare r rest (off - e.2)

/-- Slot time of a ridge in a list from its base to an instant. -/
def CycList.slotTime (l : CycList) (r t : Nat) : Nat :=
  (t - l.base) / max 1 l.cycle * slotShare r l.entries l.cycle + slotShare r l.entries ((t - l.base) % max 1 l.cycle)

/-- Account idle slot time of every ridge of a breakout up to an instant (R319). -/
def State.accountIdle (s : State) (x now : Nat) : State :=
  let b := s.brk x
  if now ≤ b.idleAt then s
  else
    let l := b.shutter.run
    let rs := l.entries.foldl (fun rs e => if rs.contains e.1 then rs else rs ++ [e.1]) []
    let s := rs.foldl (fun s r => s.bumpBy (.ridge r (131 + 4 * x)) (l.slotTime r now - l.slotTime r b.idleAt)) s
    let s := match b.queue.head? with
      | some f => s.event none 0x0B (cyclesIn (max b.idleAt f.queuedAt) now)
      | none => s
    s.modBrk x (fun b => { b with idleAt := now })

-- The decision (R307, R308).

/-- What a breakout sends at an instant: class by class from 7 down, the first whose gate is open, whose credit is not below 0 and
whose head frame fits. -/
def State.choose7 (s : State) (x : Nat) (b : Breakout) (r slotEnd : Nat) (cs : List Nat) : Option (Nat × Nat × TxFrame × FMap Nat) :=
  match cs with
  | [] => none
  | c :: rest =>
    let creditOk := match b.shapers.get? (classKey r c) with
      | some h => !h.enabled || decide (0 ≤ h.credit)
      | none => true
    let found := if !creditOk then none else b.pick r c
    match found with
    | none => State.choose7 s x b r slotEnd rest
    | some (q, f, defs) =>
      let e := s.now + s.durOf x f.bytes
      let fits := decide (e ≤ slotEnd) && (match (b.gate r).closes c s.now with
        | some u => decide (e ≤ u)
        | none => true)
      if fits then some (c, q, f, defs) else State.choose7 s x b r slotEnd rest

/-- Take a frame out of a queue: the first equal one. -/
def dropFrame (l : List TxFrame) (f : TxFrame) : List TxFrame :=
  match l with
  | [] => []
  | g :: rest => if g = f then rest else g :: dropFrame rest f

/-- The peer's node number for PKT_TX: 0x1FF when it is not in the map (R459). -/
def State.peerNode (s : State) (n : Nat) : Nat :=
  match s.conns.get? n, s.fab.cur with
  | some c, some f => (match f.map.find? (fun e => e.addrs.contains c.p.peerAddr) with
    | some e => e.node
    | none => 0x1FF)
  | _, _ => 0x1FF

/-- Start a frame: counted, metered, recorded (R307, R319, R449, R459). -/
def State.startFrame7 (s : State) (x r c q : Nat) (f : TxFrame) (defs : FMap Nat) : State :=
  let dur := s.durOf x f.bytes
  let cost (h : Shaper) : Shaper :=
    let bits := (f.bytes + 20) * 8
    let rate := s.rateOf x * 1000
    { h with credit := h.credit + (((bits * 1000 : Nat) : Int) * ((h.idle : Int) - (rate : Int))) / (rate : Int), at_ := s.now + dur }
  let s := s.modBrk x (fun b => { b with
    queue := dropFrame b.queue f
    busyTo := s.now + dur
    sending := some f
    turn := b.turn.set (classKey r c) q
    deficit := defs
    shapers := b.shapers.adjust (classKey r c) (fun h => if h.enabled then cost h else h)
    idleAt := s.now + dur })
  let s := ((s.bumpBy (.ridge r (128 + 4 * x)) 1).bumpBy (.ridge r (129 + 4 * x)) f.bytes).event none 0x0A 1
  let s := s.modRidge r (fun g => { g with meter := { g.meter with tx := g.meter.tx + dur } })
  let s := s.emit (.frame x s.now f.bytes r f.conn f.psn f.data)
  if f.conn ≠ 0 ∧ f.psn % 2 ^ s.trace.sel.k = 0 then
    s.film 0x02 .ioRing r [f.conn, f.psn, f.msn, f.op + 16 * min 15 f.retx, s.peerNode f.queue + 4096 * x, f.plen]
  else s

/-- EGRESS_DECISION: at the end of a frame or at a schedule event, the breakout starts a frame that fits, or stays idle (R307).
While a cut is held it starts none (R468); in A2 it sends only for ridge 0 (R475, R480); entering or leaving a sleep state, none. -/
def execEgressDecision (t : Nat) (breakout : Nat) (s : State) : Host.Outcome State Fault Refusal :=
  let s := s.advance t
  let b := s.brk breakout
  if s.now < b.busyTo || !s.brkExists breakout || s.trace.held then .next s
  else
    let s := s.accountIdle breakout s.now
    let s := s.modBrk breakout (fun b => { b with sending := none, shapers := b.shapers.mapVals (fun k h => b.credit k s.now h) })
    let s := s.modBrk breakout (fun b => { b with decidedAt := s.now })
    let b := s.brk breakout
    let (r, e) := b.slotAt s.now
    if !b.link || s.dead || (s.asleep && !(r == 0 && s.power.state == 2 && s.power.transit == .none)) then .next s
    else
      match s.choose7 breakout b r e [7, 6, 5, 4, 3, 2, 1, 0] with
      | none => .next s
      | some (c, q, f, defs) => .next (s.startFrame7 breakout r c q f defs)

-- Settings (R310 to R314).

/-- A message about a ridge's timing on a breakout: ridge 0 names any ridge, 0 to 16; a VF its own. -/
def withRidge0 (h : MbxHdr) (s : State) (body : Nat → MRes) : MRes :=
  match h.target with
  | none => .no s .invalidArg
  | some r => if r ≤ 16 then body r else .no s .invalidArg

/-- The idle slope a shaper has when its pending change is in force, 0 when it is not enabled. -/
def Shaper.slope (h : Shaper) : Nat := if h.apply.enabled then h.apply.idle else 0

/-- Enabled idle slopes of a ridge on a breakout, one class apart. -/
def Breakout.slopes (b : Breakout) (r except : Nat) : Nat :=
  b.shapers.foldl (fun n e => if e.1 / 8 = r ∧ e.1 ≠ except then n + e.2.slope else n) 0

/-- CBS_SET (R310). -/
def execCbsSet (t : Nat) (h : MbxHdr) (breakout cls idle hi : Nat) (enable full : Bool) (s : State) : Host.Outcome State Fault Refusal :=
  s.mbox t (.cbsSet t h breakout cls idle hi enable full) h 0x004A .any (fun s => withRidge0 h s (fun r =>
    let b := s.brk breakout
    let rate := s.rateOf breakout * 1000
    let mtu := ((s.ports.get? (breakout / 4)).getD { mode := 0, mtu := 9000 }).mtu
    let k := classKey r cls
    if !s.brkExists breakout || 7 < cls || idle < 1 || rate < idle || hi < (mtu + 22) * 8 || 2 ^ 24 < hi ||
       rate < b.slopes r k + (if enable then idle else 0) then .no s .invalidArg
    else
      let old : Shaper := (b.shapers.get? k).getD { enabled := false, idle := 0, hi := 0, credit := 0, at_ := s.now, pend := none }
      let new : Shaper := { old with pend := some (enable, idle, hi, full) }
      let busy := match b.sending with
        | some f => f.ridge == r && f.cls == cls && decide (s.now < b.busyTo)
        | none => false
      let put : Shaper := if busy then new else { new.apply with at_ := s.now }
      .ok (s.modBrk breakout (fun b => { b with shapers := b.shapers.set k put })) []))

/-- The entries of a gate list are valid (R311). -/
def gateOk (es : List (Nat × Nat)) : Bool :=
  decide (1 ≤ es.length) && decide (es.length ≤ 64) &&
  es.all (fun e => decide (e.1 < 256) && decide (100 ≤ e.2) && decide (e.2 ≤ 1000000)) &&
  decide (es.foldl (fun n e => n + e.2) 0 ≤ 10000000)

/-- The slots of a shutter schedule are valid (R314). -/
def shutterOk (es : List (Nat × Nat)) : Bool :=
  let c := es.foldl (fun n e => n + e.2) 0
  decide (1 ≤ es.length) && decide (es.length ≤ 256) &&
  es.all (fun e => decide (e.1 ≤ 16) && decide (1000 ≤ e.2) && decide (e.2 ≤ 1000000)) &&
  decide (10000 ≤ c) && decide (c ≤ 10000000) && es.any (fun e => e.1 == 0)

/-- A takeover time is valid: 100 µs ahead, on a boundary of the running list (R312). -/
def State.takeoverOk (s : State) (run : CycList) (at_ : Nat) : Bool := decide (s.now + 100000 ≤ at_) && run.boundary at_

/-- GATE_SET (R311, R312). -/
def execGateSet (t : Nat) (h : MbxHdr) (breakout : Nat) (entries : List (Nat × Nat)) (takeover : Nat) (s : State) :
    Host.Outcome State Fault Refusal :=
  s.mbox t (.gateSet t h breakout entries takeover) h 0x004B .any (fun s => withRidge0 h s (fun r =>
    let g := (s.brk breakout).gate r
    if !s.brkExists breakout || !gateOk entries || !s.takeoverOk g.run takeover then .no s .invalidArg
    else
      let new : Sched := { g with pend := some (entries, takeover) }
      .ok (s.modBrk breakout (fun b => { b with gates := b.gates.set r new })) []))

/-- SHT_SET (R312, R314). -/
def execShtSet (t : Nat) (h : MbxHdr) (breakout : Nat) (slots : List (Nat × Nat)) (takeover : Nat) (s : State) :
    Host.Outcome State Fault Refusal :=
  s.mbox t (.shtSet t h breakout slots takeover) h 0x004C .ridge0 (fun s =>
    let g := (s.brk breakout).shutter
    if !s.brkExists breakout || !shutterOk slots || !s.takeoverOk g.run takeover then .no s .invalidArg
    else
      let new : Sched := { g with pend := some (slots, takeover) }
      .ok (s.modBrk breakout (fun b => { b with shutter := new })) [])

/-- Start and end offsets of a ridge's slots. -/
def slotOffsets (r at_ : Nat) (es : List (Nat × Nat)) : List Nat :=
  match es with
  | [] => []
  | e :: rest => (if e.1 = r then [at_, at_ + e.2] else []) ++ slotOffsets r (at_ + e.2) rest

/-- SHT_GET (R314): the offsets of the ridge's own slots. -/
def execShtGet (t : Nat) (h : MbxHdr) (breakout : Nat) (s : State) : Host.Outcome State Fault Refusal :=
  s.mbox t (.shtGet t h breakout) h 0x004D .any (fun s => withRidge0 h s (fun r =>
    if !s.brkExists breakout then .no s .invalidArg
    else .ok s (slotOffsets r 0 (s.brk breakout).shutter.run.entries)))

/-- A pending list takes over when its instant has come (R312). -/
def Sched.takeover (g : Sched) (now : Nat) : Sched :=
  match g.pend with
  | none => g
  | some (es, at_) => if at_ ≤ now then { run := { entries := es, base := at_ }, pend := none } else g

/-- GATE_TAKEOVER. -/
def execGateTakeover (t : Nat) (ridge breakout : Nat) (s : State) : Host.Outcome State Fault Refusal :=
  let s := s.advance t
  .next (s.modBrk breakout (fun b => { b with gates := b.gates.adjust ridge (·.takeover s.now) }))

/-- SHUTTER_TAKEOVER: idle time up to it is counted under the old schedule. -/
def execShutterTakeover (t : Nat) (breakout : Nat) (s : State) : Host.Outcome State Fault Refusal :=
  let s := s.advance t
  match (s.brk breakout).shutter.pend with
  | none => .next s
  | some (_, at_) =>
    if s.now < at_ then .next s
    else
      let s := s.accountIdle breakout at_
      .next (s.modBrk breakout (fun b => { b with shutter := b.shutter.takeover s.now }))

end Sys2Proof.Machine
end

