-- ==== Sys2Proof/Machine/Fabric.lean ====
section
/-! DEFINITION. The fabric description (R17 to R24), composition epochs (R445), meters (R449, R450), and exposure boundaries with the
tempo (R144, R352).
Log entries 27, 43, 63, 66. -/

namespace Sys2Proof

open Sys2Proof.Machine

/-- No number stands twice in a list. -/
def noTwice (l : List Nat) : Bool :=
  match l with
  | [] => true
  | x :: rest => !rest.contains x && noTwice rest

/-- A prefix is an address and a length of it. -/
def Prefix.ok (p : Prefix) : Bool := decide (p.addr < 2 ^ 128) && decide (p.len ≤ 128)

/-- The description a FABRIC_SET names (R18): the Kalad UDP port defaults to 19742 and the exposure period to 2 ms; none where the message
omits another field. -/
def FabricMsg.desc (m : FabricMsg) : Option Fabric := do
  let node ← m.node
  let portAddrs ← m.portAddrs
  let nextHops ← m.nextHops
  let rack ← m.rack
  let boundary ← m.boundary
  let map ← m.map
  let epoch ← m.epoch
  let (ptpDomain, ptpPorts, pps) ← m.timeSource
  let t0 ← m.t0
  let deadlineUs ← m.deadlineUs
  let actTime ← m.actTime
  return { node, portAddrs, nextHops, kaladPort := m.kaladPort.getD 19742, rack, boundary, map, epoch, ptpDomain, ptpPorts, pps, t0,
           periodUs := m.periodUs.getD 2000, deadlineUs, actTime }

/-- Every field of a description lies in its range (R18). -/
def Fabric.rangesOk (f : Fabric) : Bool :=
  decide (f.node ≤ 511) &&
  noTwice (f.portAddrs.map (·.breakout)) && f.portAddrs.all (fun a => decide (a.breakout < 8) && decide (a.ipv6 < 2 ^ 128) &&
    (match a.ipv4 with
      | some v => isV4 v
      | none => true)) &&
  noTwice (f.nextHops.map (·.breakout)) && f.nextHops.all (fun n => decide (n.breakout < 8) && decide (n.gateway < 2 ^ 48) &&
    decide (n.prefixes.length ≤ 16) && n.prefixes.all (fun p => p.1.ok && decide (p.2 < 2 ^ 48))) &&
  decide (1 ≤ f.kaladPort) && decide (f.kaladPort ≤ 65535) && decide (f.rack < 4294967296) &&
  decide (f.boundary.length ≤ 64) && f.boundary.all (fun p => p.1.ok) &&
  decide (f.map.length ≤ 512) && f.map.all (fun e => decide (e.node ≤ 511) && decide (e.rack < 4294967296)) &&
  decide (f.epoch < 65536) && decide (f.ptpDomain < 256) && f.ptpPorts.all (fun x => decide (x < 8)) &&
  decide (f.t0 < 2 ^ 64) && decide (100 ≤ f.periodUs) && decide (f.periodUs ≤ 100000) &&
  decide (1 ≤ f.deadlineUs) && decide (f.deadlineUs < f.periodUs) && decide (f.actTime < 2 ^ 64)

/-- A map epoch is later than another (R19). -/
def epochLater (new old : Nat) : Bool :=
  let d := (new + 65536 - old % 65536) % 65536
  decide (1 ≤ d) && decide (d ≤ 32767)

/-- A description is valid against the one in force, if any (R19 to R21). DESIGN CHOICE: the exposure boundaries of R19 are those at T0
and after it, although the schedule goes on below T0 (R142): an activation time before the current T0 is refused (log entry 74). -/
def Fabric.validFor (f : Fabric) (cur : Option Fabric) (now : Nat) : Bool :=
  f.rangesOk && f.map.any (fun e => e.node == f.node) && noTwice (f.map.map (·.node)) &&
  (match cur with
    | none => f.actTime == 0
    | some c =>
      epochLater f.epoch c.epoch &&
      (if f.actTime = 0 then f.t0 == c.t0 && f.periodUs == c.periodUs
       else decide (now + 1000000 ≤ f.actTime) && decide (c.t0 ≤ f.actTime) && (f.actTime - c.t0) % c.period == 0))

end Sys2Proof

namespace Sys2Proof.Machine

open Sys2Proof

-- Meters (R449, R450).

/-- A ridge's open set as it stands: OWN_NS runs with the cirques owned, and the times of DRAM and SRAM transfers are open
(log entry 27). -/
def Ridge.meterNow (g : Ridge) (r now : Nat) : Meter :=
  { g.meter with
    own := g.p.cirques.length * (now - g.meter.openAt), closeAt := now
    dram := Config.openCount 5 r g.meter.openAt now, sram := Config.openCount 6 r g.meter.openAt now }

/-- Close a ridge's open set and open the next; the eighth closed set pushes out the oldest. -/
def State.turnMeter (s : State) (r epoch : Nat) : State :=
  let g := s.ridge r
  if r = 0 || g.state = .absent then s
  else
    let s := if 7 ≤ g.meters.length then s.bumpN (2066 + r) else s
    s.modRidge r (fun g => { g with meters := (g.meterNow r s.now :: g.meters).take 7,
                                    meter := { Meter.zero with epoch := epoch, openAt := s.now } })

/-- At the activation of a new map epoch every open set closes. -/
def State.turnMeters (s : State) (epoch : Nat) : State :=
  (s.ridges.map (·.1)).foldl (fun s r => s.turnMeter r epoch) (s.chargeAll false)

/-- A set as METER_READ returns it. -/
def Meter.vals (m : Meter) : List Nat := [m.epoch, m.openAt, m.closeAt, m.own, m.cell, m.dram, m.sram, m.tx, m.rx]

/-- METER_READ (R450): the open set, then the closed ones, newest first. -/
def execMeterRead (t : Nat) (h : MbxHdr) (s : State) : Host.Outcome State Fault Refusal :=
  s.mbox t (.meterRead t h) h 0x0066 .any (fun s => withRidge h s (fun r =>
    let s := s.chargeAll (s.frozen)
    .ok s (((s.ridge r).meterNow r s.now).vals ++ (s.ridge r).meters.flatMap Meter.vals)))

-- A description becomes current (R19 to R23, R445).

/-- The clocks heard in the description's PTP domain and on its ports stay; the best of them is the master (R301). -/
def State.keepMaster (s : State) (f : Fabric) (old : Option Fabric) : State :=
  let heard := s.time.heard.filter (fun e => (old.map (·.ptpDomain)) == some f.ptpDomain && f.ptpPorts.contains e.1)
  { s with time := { s.time with heard := heard, master := bestMaster heard } }

/-- A description becomes current: the epoch left is the previous one up to the drain deadline; meters turn; leases are examined;
requests of exposures now open start (R22, R144). -/
def State.becomeCurrent (s : State) (f : Fabric) : State :=
  let old := s.fab.cur
  let s := { s with fab := { s.fab with cur := some f, pend := none, prevEpoch := old.map (fun (o : Fabric) => o.epoch),
                                        drainAt := if old.isSome then s.now + s.fab.drainUs * 1000 else 0 } }
  let s := ((s.keepMaster f old).turnMeters f.epoch).raiseAll causeSchedule
  let s := s.leaseCheckAll
  if s.frozen then s else s.startDue

/-- A tagged request that has not started and whose E_n, under the running schedule, falls at or after an activation time (R22). -/
def Request.pastActivation (q : Request) (f : Fabric) (act : Nat) : Bool :=
  q.tagged && (q.phase == .waiting || q.phase == .armed) && decide (act ≤ openingOf f q.exposure)

/-- The admitted commands whose tag names an exposure of a pending schedule complete with STATE_CONFLICT (R22), an armed COMPOSITE after
it is disarmed. -/
def State.conflictPending (s : State) (act : Nat) : State :=
  match s.fab.cur with
  | none => s
  | some f => (s.reqs.filter (fun e => e.2.pastActivation f act)).foldl (fun s e =>
      let s := if e.2.opcode = 0x22 then s.disarm e.2.ridge e.2.desc.handle else s
      (s.countSC e.2.ridge e.2.opcode).complete e.1 .stateConflict 0 0 0) s

/-- FABRIC_SET (R18 to R22): a required field absent is invalid as a field out of range is (R19). -/
def execFabricSet (t : Nat) (h : MbxHdr) (m : FabricMsg) (s : State) : Host.Outcome State Fault Refusal :=
  s.mbox t (.fabricSet t h m) h 0x0010 .ridge0 (fun s =>
    match m.desc with
    | none => .no s .invalidArg
    | some d =>
      if !d.validFor s.fab.cur s.now then .no s .invalidArg
      else if d.actTime = 0 then .ok (s.becomeCurrent d) []
      else .ok (({ s with fab := { s.fab with pend := some d } }.raiseAll causeSchedule).conflictPending d.actTime) [])

/-- A description as FABRIC_GET returns it: its scalar fields, then its lists with their lengths. -/
def fabricVals (f : Fabric) : List Nat :=
  [f.node, f.kaladPort, f.rack, f.epoch, f.ptpDomain,
   (match f.pps with
     | .none => 0
     | .input => 1
     | .output => 2), f.t0, f.periodUs, f.deadlineUs, f.actTime] ++
  (f.portAddrs.length :: f.portAddrs.flatMap (fun a => [a.breakout, a.ipv6, a.ipv4.getD 0])) ++
  (f.nextHops.length :: f.nextHops.flatMap (fun n => [n.breakout, n.gateway, n.prefixes.length] ++
    n.prefixes.flatMap (fun p => [p.1.addr, p.1.len, p.2]))) ++
  (f.boundary.length :: f.boundary.flatMap (fun p => [p.1.addr, p.1.len, flagBit p.2 0])) ++
  (f.map.length :: f.map.flatMap (fun e => [e.node, e.rack, e.addrs.length] ++ e.addrs)) ++
  (f.ptpPorts.length :: f.ptpPorts)

/-- FABRIC_GET: the current description and any pending one (R21). -/
def execFabricGet (t : Nat) (h : MbxHdr) (s : State) : Host.Outcome State Fault Refusal :=
  s.mbox t (.fabricGet t h) h 0x0011 .ridge0 (fun s =>
    let part (o : Option Fabric) : List Nat := match o with
      | some f => 1 :: fabricVals f
      | none => [0]
    .ok s (part s.fab.cur ++ part s.fab.pend))

/-- FABRIC_ACTIVATION: a pending description becomes current at its activation time, in every power state (R19, R486). -/
def execFabricActivation (t : Nat) (s : State) : Host.Outcome State Fault Refusal :=
  let s := s.advance t
  match s.fab.pend with
  | none => .next s
  | some f => if s.now < f.actTime then .next s else .next (s.becomeCurrent f)

/-- DRAIN_DEADLINE: from now on the previous epoch is refused (R23, R445). -/
def execDrainDeadline (t : Nat) (s : State) : Host.Outcome State Fault Refusal :=
  let s := s.advance t
  if s.now < s.fab.drainAt then .next s else .next { s with fab := { s.fab with drainAt := 0 } }

/-- EPOCH_DRAIN: DRAIN_PERIOD of later epoch changes (R445). -/
def execEpochDrain (t : Nat) (h : MbxHdr) (periodUs : Nat) (s : State) : Host.Outcome State Fault Refusal :=
  s.mbox t (.epochDrain t h periodUs) h 0x0067 .ridge0 (fun s =>
    if periodUs < 100 || 10000000 < periodUs then .no s .invalidArg
    else .ok { s with fab := { s.fab with drainUs := periodUs } } [periodUs, s.fab.drainAt])

/-- EPOCH_DRAIN with END_NOW: the current deadline is the instant of acceptance (R445). -/
def execEpochDrainEndNow (t : Nat) (h : MbxHdr) (s : State) : Host.Outcome State Fault Refusal :=
  s.mbox t (.epochDrainEndNow t h) h 0x0067 .ridge0 (fun s =>
    let at_ := if s.now < s.fab.drainAt then s.now else s.fab.drainAt
    .ok { s with fab := { s.fab with drainAt := at_ } } [s.fab.drainUs, at_])

-- Exposure boundaries (R144, R146, R352).

/-- The tempo level of an issue rate of k in 16. -/
def tempoOf (k : Nat) : Nat := if 16 ≤ k then 3 else if 12 ≤ k then 2 else if 8 ≤ k then 1 else 0

/-- Publish the tempo at E_n: the lowest issue rate of the exposure before decides, once network time has been locked (R352). -/
def State.tempo (s : State) (n : Nat) : State :=
  let level := tempoOf s.sns.lowK
  let locked := s.time.st != .unset && s.time.st != .acquiring
  let s := { s with sns := { s.sns with lowK := s.sns.issueK } }
  if !locked then s
  else
    (s.ridges.map (·.1)).foldl (fun s r =>
      if (s.ridge r).tempoLevel = level then s
      else
        let s := s.modRidge r (fun g => { g with tempoLevel := level, tempoExp := n })
        if r = 0 || (s.ridge r).state ≠ .absent then s.raiseCause r causeTempo else s) s

/-- EXPOSURE_BOUNDARY: exposure n opens; requests that wait for it start, and the tempo is published (R144, R352),
once for each exposure (R146). Outside A0 and A1
a boundary passes with no work (R486); while a cut is held the engines start nothing (R468). -/
def execExposureBoundary (t : Nat) (n : Nat) (s : State) : Host.Outcome State Fault Refusal :=
  let s := s.advance t
  match s.fab.cur with
  | none => .next s
  | some f =>
    if s.now < openingOf f n || openingOf f (n + 1) ≤ s.now || s.asleep || s.dead || s.sns.boundaryAt == some (openingOf f n) then .next s
    else
      let s := { s with sns := { s.sns with boundaryAt := some (openingOf f n) } }
      let s := s.tempo n
      let s := s.film 0x0A .ioRing 31 [n, (s.ridge 0).tempoLevel, s.sns.issueK]
      if s.frozen then .next s else .next s.startDue

end Sys2Proof.Machine
end

