-- ==== Sys2Proof/Machine/Ridges.lean ====
section
/-! DEFINITION. The life of a tenant ridge (R341 to R350): opening, modifying, draining, closing and the zeroing that ends it.
Log entries 46, 66. -/

namespace Sys2Proof

open Sys2Proof.Machine

/-- The width code of an OPEN width (R326, R339): 1, 2 or 4 units. -/
def widthCode (w : Nat) : Nat := if w = 1 then 0 else if w = 2 then 1 else 2

/-- Every parameter of RIDGE_OPEN lies in its range (R342). -/
def RidgeParams.rangesOk (p : RidgeParams) : Bool :=
  !p.cirques.isEmpty && p.cirques.all (fun c => decide (c < 16)) &&
  decide (1 ≤ p.descAllow) && decide (p.descAllow ≤ 262144) && decide (1 ≤ p.ringShare) && decide (p.ringShare ≤ 8192) &&
  decide (1 ≤ p.slotAllow) && decide (p.slotAllow ≤ 262144) && decide (p.connAllow ≤ 131072) && decide (p.ctxShare ≤ 8192) &&
  decide (p.parkShare ≤ 4096) && (p.connAllow == 0 || (decide (1 ≤ p.ctxShare) && decide (1 ≤ p.parkShare))) &&
  decide (65536 ≤ p.ingressShare) && decide (p.ingressShare ≤ 31457280) && p.ingressShare % 65536 == 0 &&
  !p.banks.isEmpty && noTwice (p.banks.map (·.1)) && p.banks.all (fun b => decide (b.1 < 16) && (b.2 == 1 || b.2 == 2 || b.2 == 4)) &&
  decide (p.depth ≤ 8) && decide (p.scratch ≤ 1)

/-- The parameters as the ridge holds them: the cirques of the mask in ascending number (R73). -/
def RidgeParams.held (p : RidgeParams) : RidgeParams := { p with cirques := (List.range 16).filter (fun c => p.cirques.contains c) }

end Sys2Proof

namespace Sys2Proof.Machine

open Sys2Proof

-- Opening (R342, R345).

/-- A quantity summed over the tenant ridges that are not Absent. -/
def State.sumRidges (s : State) (f : RidgeParams → Nat) : Nat :=
  s.ridges.foldl (fun n e => if e.1 ≠ 0 && e.2.state ≠ .absent then n + f e.2.p else n) 0

/-- The sums of R342 hold with a further ridge, its cirques and banks are unassigned, and none is being zeroed. -/
def State.roomFor (s : State) (p : RidgeParams) : Bool :=
  decide (s.sumRidges (·.descAllow) + p.descAllow ≤ 262144) && decide (s.sumRidges (·.ringShare) + p.ringShare ≤ 8192) &&
  decide (s.sumRidges (·.slotAllow) + p.slotAllow ≤ 262144) && decide (s.sumRidges (·.connAllow) + p.connAllow ≤ 131072) &&
  decide (s.sumRidges (·.ctxShare) + p.ctxShare ≤ 8192) && decide (s.sumRidges (·.parkShare) + p.parkShare ≤ 4096) &&
  decide (s.sumRidges (·.ingressShare) + p.ingressShare ≤ 31457280) && p.cirques.all s.unassigned &&
  p.banks.all (fun b => (s.lBank b.1).owner == 31 && !s.privBank b.1)

/-- A ridge in a state, with what outlives its closing: its epochs (R344, R364), the published tempo (R352), and the shadow
fraction and watchdog period that ridge 0 set for its number (R428, R464). -/
def Ridge.again (g : Ridge) (st : RState) (p : RidgeParams) : Ridge :=
  { Ridge.fresh st with p := p, keyEpoch := g.keyEpoch, ridgeEpoch := g.ridgeEpoch, tempoLevel := g.tempoLevel, tempoExp := g.tempoExp,
                        shadow := g.shadow, watchdogMs := g.watchdogMs }

/-- RIDGE_OPEN: the checks of R342 in their order; the ridge is Opening and its resources are its own. -/
def execRidgeOpen (t : Nat) (h : MbxHdr) (p : RidgeParams) (s : State) : Host.Outcome State Fault Refusal :=
  s.mbox t (.ridgeOpen t h p) h 0x0018 .ridge0 (fun s => withRidge h s (fun r =>
    if !p.rangesOk then .no s .invalidArg
    else if (s.ridge r).state ≠ .absent then .no s .busy
    else if p.scratch = 1 && !s.boot.scratchAllow then .no s .accessDenied
    else if !s.roomFor p then .no s .noSpace
    else
      let s := s.modRidge r (fun g => { g.again .absent p.held with waiter := some h.fn })
      let s := p.banks.foldl (fun s b => s.modBankL b.1 (fun q => { q with owner := r })) s
      .wait (s.setRState r .opening)))

/-- The counters of a ridge's view (R407, R408): its own section, those of its cirques, its indexes and its banks. -/
def Ridge.views (g : Ridge) (r : Nat) (c : Ctr) : Bool :=
  match c with
  | .ridge q _ => q == r
  | .index q _ _ => q == r
  | .cirque k _ => g.p.cirques.contains k
  | .bank b _ => g.p.banks.any (fun e => e.1 == b)
  | .node _ => false

/-- Gate lists and shapers of a ridge are what they are after cold reset (R311, R345). -/
def State.clearTiming (s : State) (r : Nat) : State :=
  { s with brks := s.brks.mapVals (fun _ b => { b with gates := b.gates.erase r, shapers := b.shapers.keep (fun k _ => k / 8 != r) }) }

/-- The banks of a ridge go back unassigned, their entries and shadows zero (R347). -/
def State.freeBanks (s : State) (g : Ridge) : State :=
  let s := g.p.banks.foldl (fun s b => s.modBankL b.1 (fun _ => { owner := 31, width := 2, entries := [], shadow := [] })) s
  { s with loupe := { s.loupe with copies := s.loupe.copies.filter (fun e => !(g.p.banks.any (fun b => b.1 == e.1))) } }

/-- What every RIDGE message answers (R378): the ridge's state and epochs (R363, R364). -/
def State.ridgeVals (s : State) (r : Nat) : List Nat := [(s.ridge r).state.code, (s.ridge r).keyEpoch, (s.ridge r).ridgeEpoch]

/-- An accepted RIDGE message, once its change is made. -/
def MRes.okRidge (s : State) (r : Nat) : MRes := .ok s (s.ridgeVals r)

/-- RIDGE_OPENED: the key is drawn and the ridge is Open, or, with the TRNG failed, Absent again (R345). -/
def execRidgeOpened (t : Nat) (ridge : Nat) (trngOk : Bool) (s : State) : Host.Outcome State Fault Refusal :=
  let s := s.advance t
  let g := s.ridge ridge
  if s.frozen || g.state ≠ .opening then .next s
  else if !trngOk || s.boot.trngBad then
    let s := (s.freeBanks g).modRidge ridge (fun g => g.again .opening RidgeParams.none)
    let s := (s.setRState ridge .absent).report (ErrRec.of .trng ridge .security)
    .next (s.answerBusy g.waiter .hwFault 0 [])
  else
    let n := s.draws
    let s := s.draw.2
    let s := s.modRidge ridge (fun g => { g with key := some n, keyEpoch := g.keyEpoch + 1, ridgeEpoch := g.ridgeEpoch + 1, waiter := none })
    let s := g.p.banks.foldl (fun s b => s.modBankL b.1 (fun q => { q with width := widthCode b.2, entries := [], shadow := [] })) s
    let s := g.p.cirques.foldl (fun s c => s.chargeCirque c) (s.clearTiming ridge)
    let s := s.clearCtrs (fun c => g.views ridge c)
    let s := s.modRidge ridge (fun g => { g with meter := { Meter.zero with epoch := s.epochNow, openAt := s.now } })
    let s := s.modFunc ridge (fun f => { f with ready := true })
    let s := s.setRState ridge .opened
    .next (s.answerBusy g.waiter .ok 0 (s.ridgeVals ridge))

-- Changes of an Open ridge (R343, R344).

/-- A ridge holds a scratch region. -/
def State.holdsScratch (s : State) (r : Nat) : Bool :=
  s.regions.any (fun e => e.2.ridge == r && (match e.2.kind with
    | .scratch _ _ _ => true
    | .composite _ _ _ _ => false
    | .lease => false
    | .completion _ => false
    | .query => false))

/-- RIDGE_MODIFY (R343): each counts in RIDGE_EPOCH (R364). -/
def execRidgeModify (t : Nat) (h : MbxHdr) (pfDepth scratchEn : Option Nat) (s : State) : Host.Outcome State Fault Refusal :=
  s.mbox t (.ridgeModify t h pfDepth scratchEn) h 0x0019 .ridge0 (fun s => withRidge h s (fun r =>
    let en := scratchEn.getD (s.ridge r).p.scratch
    if 8 < pfDepth.getD 0 || 1 < en then .no s .invalidArg
    else if (s.ridge r).state ≠ .opened then .no s .stateConflict
    else if scratchEn = some 1 && !s.boot.scratchAllow then .no s .accessDenied
    else if scratchEn = some 0 && s.holdsScratch r then .no s .stateConflict
    else .okRidge (s.modRidge r (fun g => { g with ridgeEpoch := g.ridgeEpoch + 1,
                                                   p := { g.p with pfDepth := some (pfDepth.getD g.p.depth), scratchEn := some en } })) r))

/-- RIDGE_DRAIN: from Open alone (R344). -/
def execRidgeDrain (t : Nat) (h : MbxHdr) (s : State) : Host.Outcome State Fault Refusal :=
  s.mbox t (.ridgeDrain t h) h 0x001A .ridge0 (fun s => withRidge h s (fun r =>
    if (s.ridge r).state ≠ .opened then .no s .busy
    else .okRidge ((s.modRidge r (fun g => { g with refused := false })).setRState r .draining) r))

/-- RIDGE_OPEN_AGAIN: from Draining while no command has been refused (R344). -/
def execRidgeOpenAgain (t : Nat) (h : MbxHdr) (s : State) : Host.Outcome State Fault Refusal :=
  s.mbox t (.ridgeOpenAgain t h) h 0x001B .ridge0 (fun s => withRidge h s (fun r =>
    if (s.ridge r).state ≠ .draining || (s.ridge r).refused then .no s .busy
    else .okRidge (s.setRState r .opened) r))

-- Closing (R347).

/-- Rows that step 7 zeroes in each stack: 128 banks of 64,366 rows (R344, R347). -/
def rowsPerStack : Nat := 8238848

/-- A ridge enters Closing: admission stops, and every row is still to be zeroed. -/
def State.startClose (s : State) (r : Nat) (force : Bool) (waiter : Option Fn) : State :=
  let perStack := (s.ridge r).p.cirques.flatMap (fun c => [(2 * c, rowsPerStack), (2 * c + 1, rowsPerStack)])
  (s.modRidge r (fun g => { g with force := force, waiter := waiter, rowsLeft := perStack })).setRState r .closing

/-- RIDGE_CLOSE: from Draining, or from Open with FORCE (R344). -/
def execRidgeClose (t : Nat) (h : MbxHdr) (force : Bool) (s : State) : Host.Outcome State Fault Refusal :=
  s.mbox t (.ridgeClose t h force) h 0x001C .ridge0 (fun s => withRidge h s (fun r =>
    let st := (s.ridge r).state
    if st = .draining || (st = .opened && force) then .wait (s.startClose r force (some h.fn))
    else .no s .busy))

/-- RIDGE_GET: state, epochs, and the rows still to be zeroed (R344). -/
def execRidgeGet (t : Nat) (h : MbxHdr) (s : State) : Host.Outcome State Fault Refusal :=
  s.mbox t (.ridgeGet t h) h 0x001D .any (fun s => withRidge0 h s (fun r =>
    let g := s.ridge r
    .ok s (s.ridgeVals r ++ [g.rowsLeft.foldl (fun n e => n + e.2) 0])))

/-- Abandon an admitted command (R347, R488): its work, segments, query region and armed buffer go, and no completion is
written. -/
def State.forget (s : State) (slot : Nat) : State :=
  match s.reqs.get? slot with
  | none => s
  | some q =>
    let s := ((s.dropWork slot).dropSegments slot).dropQuery q
    let s := if q.opcode = 0x22 then s.disarm q.ridge q.region else s
    { s with reqs := s.reqs.erase slot }

/-- Abandon every admitted command of a ridge. -/
def State.abandonAll (s : State) (r : Nat) : State :=
  (s.reqs.filter (fun e => e.2.ridge == r)).foldl (fun s e => s.forget e.1) s

/-- Every admitted command of a ridge has completed and its completion has been delivered (R347, step 1). -/
def State.commandsDone (s : State) (r : Nat) : Bool :=
  !s.reqs.any (fun e => e.2.ridge == r) && s.conns.all (fun e => e.2.ridge != r || (e.2.cmdAdmitted == 0 && e.2.cmdQ.isEmpty))

/-- Every connection of a ridge is Closed (R268). -/
def State.closeConns (s : State) (r : Nat) : State :=
  (s.conns.filter (fun e => e.2.ridge == r)).foldl (fun s e => s.closeConn e.1) s

/-- The Loupe entries of a ridge are invalidated. -/
def State.dropEntries (s : State) (g : Ridge) : State :=
  g.p.banks.foldl (fun s b => s.modBankL b.1 (fun q => { q with entries := [], shadow := [] })) s

/-- A VF is disabled: its mailbox is no longer served. -/
def State.disableVf (s : State) (r : Nat) : State :=
  s.modFunc r (fun f => { f with ready := false, busy := none, series := none, report := none })

/-- A cirque's engines hold nothing; quarantine, odd counts and the gating of its cells stay (R432, R476). -/
def Cirque.emptied (q : Cirque) (now : Nat) : Cirque :=
  { q with cells := q.cells.mapVals (fun _ c => { Cell.idle with odd := c.odd, quarantined := c.quarantined, stallTo := c.stallTo, since := now })
           ready := [], reorder := [], sealQ := [], fills := [], withheld := [] }

/-- Every cirque of a ridge stops its work; holds and segments end and the bank groups leave Cairn mode at once (R204, R347). -/
def State.stopCirques (s : State) (g : Ridge) : State :=
  g.p.cirques.foldl (fun s c => (s.exitCairn c).modCirque c (fun q => q.emptied s.now)) s

/-- The controllers hold the bank groups in Cairn mode for the zeroing (R347, step 6). -/
def State.zeroMode (s : State) (g : Ridge) : State :=
  g.p.cirques.foldl (fun s c => (List.range 64).foldl (fun s k =>
    s.modGroup (groupKey c k) (fun _ => { Group.out with mode := true })) s) s

/-- RIDGE_CLOSE_COMPLETE: steps 1 to 6 of R347; the key is zeroized with up to three read-backs (R350). -/
def execRidgeCloseComplete (t : Nat) (ridge : Nat) (readBacks : List Bool) (s : State) : Host.Outcome State Fault Refusal :=
  let s := s.advance t
  let g := s.ridge ridge
  if s.frozen || g.state ≠ .closing || g.key.isNone || g.halted || (!g.force && !s.commandsDone ridge) then .next s
  else
    let s := (s.abandonAll ridge).closeConns ridge
    let s := ((s.dropEntries g).disableVf ridge).stopCirques g
    if (readBacks.take 3).contains true then
      let s := (s.modRidge ridge (fun g => { g with key := none, waiter := none })).zeroMode g
      .next (s.answerBusy g.waiter .ok 0 (s.ridgeVals ridge))
    else
      let s := ((s.modRidge ridge (fun g => { g with halted := true, waiter := none })).logTo 0 (ErrRec.of .key ridge .security)).1
      .next (s.answerBusy g.waiter .hwFault 0 [])

/-- What a ridge had in the page store, the slices and the reserved area is gone; a descriptor and an index number go on with
their next generation (R52, R215). -/
def State.wipe (s : State) (r : Nat) (g : Ridge) : State :=
  let mine (c : Nat) : Bool := g.p.cirques.contains c
  let gens := (s.seqs.filter (fun e => e.2.ridge == r)).foldl (fun m e => m.set e.1 (nextGen e.2.gen)) s.gens
  let xgens := (s.indexes.filter (fun e => e.1 / 16 == r)).foldl (fun m e => m.set e.1 (nextIndexGen e.2.gen)) s.indexGens
  { s with gens := gens, indexGens := xgens
           seqs := s.seqs.keep (fun _ q => q.ridge != r)
           indexes := s.indexes.keep (fun k _ => k / 16 != r)
           pages := s.pages.keep (fun k _ => !mine (slotCirque k))
           frames := s.frames.keep (fun k _ => !mine (k / 960))
           hands := s.hands.keep (fun k _ => !mine (k / 60))
           regions := s.regions.keep (fun _ q => q.ridge != r)
           rings := s.rings.keep (fun k _ => k / 8192 != r)
           ingress := s.ingress.erase r
           groups := s.groups.keep (fun k _ => !mine (k / 64))
           banks := s.banks.keep (fun k _ => !mine (k / 256)) }

/-- RIDGE_ZEROED: every step of R347 is done and the ridge is Absent. -/
def execRidgeZeroed (t : Nat) (ridge : Nat) (s : State) : Host.Outcome State Fault Refusal :=
  let s := s.advance t
  let g := s.ridge ridge
  if s.frozen || g.state ≠ .closing || g.key.isSome || g.rowsLeft.any (fun e => e.2 != 0) then .next s
  else
    let s := ((s.wipe ridge g).freeBanks g).clearCtrs (fun c => g.views ridge c)
    let s := s.modRidge ridge (fun g => g.again .closing RidgeParams.none)
    .next (s.setRState ridge .absent)

end Sys2Proof.Machine
end

