-- ==== Sys2Proof/Machine/Trust.lean ====
section
/-! DEFINITION. Identity, attestation, firmware and ownership (R356 to R366).
Log entries 5, 26, 61, 62. -/

namespace Sys2Proof

open Sys2Proof.Machine

/-- ID_DEVICE and ID_REV (R401). -/
def idDevice : Nat := 0x12001E7C
def idRev : Nat := 1

/-- The RIDGE_OPEN parameters as accepted, as bytes for ALLOC_DIGEST (R363; log entry 26). -/
def RidgeParams.bytes (p : RidgeParams) : List Byte :=
  leBytes 2 (p.cirques.foldl (fun n c => n ||| 2 ^ c) 0) ++ leBytes 4 p.descAllow ++ leBytes 4 p.ringShare ++ leBytes 4 p.slotAllow ++
  leBytes 4 p.connAllow ++ leBytes 4 p.ctxShare ++ leBytes 4 p.parkShare ++ leBytes 4 p.ingressShare ++
  p.banks.flatMap (fun b => leBytes 1 b.1 ++ leBytes 1 b.2) ++ leBytes 1 p.depth ++ leBytes 1 p.scratch

/-- An image passes R358 for an owner, if there is one, and a floor. -/
def FwImage.passes (i : FwImage) (owner : Option (List Byte)) (floor : Nat) : Bool :=
  i.vendorEd && i.vendorMl && (owner.isNone || (i.ownerEd && i.ownerMl)) && decide (floor ≤ i.svn)

end Sys2Proof

namespace Sys2Proof.Machine

open Sys2Proof

-- Identity (R356, R360).

/-- The floor the boot ROM goes by: 2^32 − 1 when the record's signatures fail (R361). -/
def BootSt.bootFloor (b : BootSt) : Nat := if b.floorBad then 4294967295 else b.floor

/-- OWNER_HASH: zero when no owner is enrolled (R360). -/
def BootSt.ownerHash (b : BootSt) : BitVec 384 :=
  match b.owner with
  | some k => Config.sha384 k
  | none => 0

/-- FW_MEAS of a report: 0 in recovery mode (R359). -/
def BootSt.fwMeas (b : BootSt) : BitVec 384 := if b.recovery then 0 else b.meas

/-- att_seed (R356). -/
def BootSt.attSeed (b : BootSt) : List Byte :=
  Config.hkdf Config.uds (asciiBytes "calagon attest" ++ leBytes 48 b.fwMeas.toNat ++ leBytes 48 b.cfgMeas.toNat ++
    leBytes 48 b.ownerHash.toNat) 64

/-- FW_SVN as it is read: 0 in recovery mode (R401). -/
def BootSt.fwSvn (b : BootSt) : Nat := if b.recovery then 0 else b.svn

/-- The certificate a CERT_GET names: the alias certificate covers the attestation keys and their measurements (R356). -/
def BootSt.certificate (b : BootSt) (alias_ : Bool) : List Byte :=
  if alias_ then Config.aliasCertificate (Config.publicKeys b.attSeed ++ leBytes 48 b.fwMeas.toNat ++ leBytes 48 b.cfgMeas.toNat ++
    leBytes 48 b.ownerHash.toNat)
  else Config.deviceCertificate

/-- A chunk of a long reply: the total length, then at most 4,064 bytes from an offset (R375). -/
def chunkReply (bs : List Byte) (offset : Nat) : List Nat := bs.length :: ((bs.drop offset).take 4064).map (·.toNat)

/-- ID_GET: DEVICE_ID, ID_DEVICE, ID_REV and FW_SVN (R378). -/
def execIdGet (t : Nat) (h : MbxHdr) (s : State) : Host.Outcome State Fault Refusal :=
  s.mbox t (.idGet t h) h 0x0002 .any (fun s => .ok s [s.boot.deviceId.toNat, idDevice, idRev, s.boot.fwSvn])

/-- CERT_GET: a chunk of a certificate and its total length (R356, R375). -/
def execCertGet (t : Nat) (h : MbxHdr) (aliasCert : Bool) (offset : Nat) (s : State) : Host.Outcome State Fault Refusal :=
  s.mbox t (.certGet t h aliasCert offset) h 0x0003 .any (fun s =>
    let c := s.boot.certificate aliasCert
    if aliasCert && !s.boot.identity then .hw s .key .security
    else if c.length ≤ offset then .no s .invalidArg
    else .ok s (chunkReply c offset))

-- Attestation (R362 to R364).

/-- The header of a report, 336 bytes (R363). -/
def State.reportHead (s : State) (nonce : BitVec 256) (withRidge : Bool) : List Byte :=
  let b := s.boot
  let st := match b.staged with
    | some x => (1, x.svn, x.meas.toNat)
    | none => (0, 0, 0)
  leBytes 2 1 ++ leBytes 2 (flagBit b.owner.isSome 0 + 2 * st.1 + flagBit withRidge 2 + flagBit b.recovery 3) ++
  leBytes 4 (if withRidge then 4093 else 3709) ++ leBytes 16 (b.deviceId).toNat ++ leBytes 4 idDevice ++ leBytes 4 0 ++
  leBytes 8 (Config.trng b.bootNonce).toNat ++ leBytes 32 nonce.toNat ++ leBytes 8 s.now ++ leBytes 4 s.time.st.code ++
  leBytes 4 b.fwSvn ++ leBytes 4 b.floor ++ leBytes 4 st.2.1 ++ leBytes 48 Config.romMeas.toNat ++ leBytes 48 b.fwMeas.toNat ++
  leBytes 48 b.cfgMeas.toNat ++ leBytes 48 b.ownerHash.toNat ++ leBytes 48 st.2.2

/-- One MPROG entry of the ridge section: the version and 16 bytes of the digest of program and constants; zero for an empty
slot. -/
def Ridge.mprogEntry (g : Ridge) (slot : Nat) : List Byte :=
  match g.mprogs.get? slot with
  | none => List.replicate 20 0#8
  | some m =>
    match m.prog with
    | none => List.replicate 20 0#8
    | some (ws, cs) =>
      leBytes 2 m.last ++ leBytes 2 0 ++
      (leBytes 48 (Config.sha384 ((ws ++ cs).flatMap (fun w => leBytes 4 w.toNat))).toNat).take 16

/-- The ridge section of a report, 384 bytes (R363). -/
def State.reportRidge (s : State) (r : Nat) : List Byte :=
  let g := s.ridge r
  let banks := if r = 0 then (List.range 16).filter s.privBank else g.p.banks.map (·.1)
  let digest := if r = 0 || g.state = .absent then 0 else (Config.sha384 g.p.bytes).toNat
  leBytes 2 (r + 32 * g.state.code + 256 * g.p.scratch) ++ leBytes 2 (g.p.cirques.foldl (fun n c => n ||| 2 ^ c) 0) ++
  leBytes 2 (banks.foldl (fun n b => n ||| 2 ^ b) 0) ++ leBytes 2 0 ++ leBytes 4 g.keyEpoch ++ leBytes 4 g.ridgeEpoch ++
  leBytes 48 digest ++ (List.range 16).flatMap g.mprogEntry

/-- The signed report of the present instant (R362, R363): a selector of 31 names no ridge. -/
def State.buildReport (s : State) (nonce : BitVec 256) (sel : Nat) : List Byte :=
  let body := s.reportHead nonce (decide (sel ≠ 31)) ++ (if sel = 31 then [] else s.reportRidge sel)
  let seed := s.boot.attSeed
  body ++ Config.ed25519 (seed.take 32) body ++ Config.mldsa65 (seed.drop 32) body

/-- Whose report a sender may ask for (R362). -/
def selOk (f : Fn) (sel : Nat) : Option MStatus :=
  match f with
  | .vf r => if sel = r then none else some .accessDenied
  | .pf => if sel ≤ 16 || sel = 31 then none else some .invalidArg
  | .bmc => if sel ≤ 16 || sel = 31 then none else some .invalidArg

/-- ATTEST: a new report, or a chunk of the one held for the function (R362 to R364). -/
def execAttest (t : Nat) (h : MbxHdr) (nonce : BitVec 256) (sel : Nat) (offset : Option Nat) (s : State) :
    Host.Outcome State Fault Refusal :=
  s.mbox t (.attest t h nonce sel offset) h 0x0004 .any (fun s =>
    let s := if offset.isNone then s.modFunc h.fn.key (fun f => { f with report := none }) else s
    match selOk h.fn sel with
    | some st => .no s st
    | none =>
      match offset with
      | some off =>
        (match (s.func h.fn.key).report with
          | none => .no s .invalidArg
          | some r => if r.tag ≠ h.tag || r.until_ ≤ s.now || r.bytes.length ≤ off then .no s .invalidArg else .ok s (chunkReply r.bytes off))
      | none =>
        match (s.ridge sel).resetAt with
        | some at_ => .ans s .busy (s.retryTo (at_ + 20000000)) []
        | none =>
          if !s.boot.identity then .hw s .key .security
          else
            let bs := s.buildReport nonce sel
            let s := if sel = 31 then s
              else s.modFunc h.fn.key (fun f => { f with report := some { tag := h.tag, bytes := bs, until_ := s.now + 1000000000 } })
            .ok s (chunkReply bs 0))

/-- ATTEST_REPORT_HOLD_EXPIRY: the held report goes (R363). -/
def execAttestReportHoldExpiry (t : Nat) (fn : Fn) (s : State) : Host.Outcome State Fault Refusal :=
  let s := s.advance t
  match (s.func fn.key).report with
  | none => .next s
  | some r => .next (if r.until_ ≤ s.now then s.modFunc fn.key (fun f => { f with report := none }) else s)

-- Firmware and ownership (R358 to R365).

/-- FW_STAGE: verify, then mark staged; a failure empties the slot (R365). The slot is in use while an activation is pending. -/
def execFwStage (t : Nat) (h : MbxHdr) (img : FwImage) (s : State) : Host.Outcome State Fault Refusal :=
  s.mbox t (.fwStage t h img) h 0x0050 .ridge0 (fun s =>
    if s.boot.activation.isSome then .no s .busy
    else if s.boot.blobOk && img.passes s.boot.owner s.boot.bootFloor then
      .ok { s with boot := { s.boot with staged := some { svn := img.svn, meas := Config.sha384 img.bytes } } } []
    else .no { s with boot := { s.boot with staged := none } } .invalidArg)

/-- FW_ACTIVATE: at its time the node switches (R365); refused while a stop is armed (R467). The answer follows the switch. -/
def execFwActivate (t : Nat) (h : MbxHdr) (at_ : Nat) (s : State) : Host.Outcome State Fault Refusal :=
  s.mbox t (.fwActivate t h at_) h 0x0051 .ridge0 (fun s =>
    if at_ ≠ 0 && decide (at_ < s.now) then .no s .invalidArg
    else if s.trace.armed.isSome || s.trace.held || s.boot.activation.isSome then .no s .busy
    else if s.boot.staged.isNone then .no s .stateConflict
    else .wait { s with boot := { s.boot with activation := some (if at_ = 0 then s.now else at_, h.fn) } })

/-- FW_SWITCH: the switch ends with the new image, or with the old one when its self-check fails (R365). A new image brings a
newly written owner record into effect (R360) and ends recovery mode, unless the node has no identity (R356). -/
def execFwSwitch (t : Nat) (selfCheckOk : Bool) (s : State) : Host.Outcome State Fault Refusal :=
  let s := s.advance t
  match s.boot.activation, s.boot.staged with
  | some (at_, fn), some x =>
    if s.now < at_ || s.dead then .next s
    else
      let s := { s with boot := { s.boot with activation := none } }
      if selfCheckOk then
        let s := { s with boot := { s.boot with svn := x.svn, meas := x.meas, staged := none, activeB := !s.boot.activeB, recovery := !s.boot.identity,
                                                owner := s.boot.ownerNext.orElse (fun _ => s.boot.owner), ownerNext := none } }
        .next ((s.raiseCause 0 causeFw).answerBusy (some fn) .ok 0 [])
      else
        .next (((s.report (ErrRec.of .fw 31 .security)).raiseCause 0 causeFw).answerBusy (some fn) .hwFault 0 [])
  | some _, none => .next s
  | none, _ => .next s

/-- FW_FLOOR: from the present floor up to the running version; in recovery mode it restores a record that failed (R361). -/
def execFwFloor (t : Nat) (h : MbxHdr) (value : Nat) (s : State) : Host.Outcome State Fault Refusal :=
  s.mbox t (.fwFloor t h value) h 0x0052 .ridge0 (fun s =>
    if s.boot.floorBad then
      if value < 4294967296 then .ok { s with boot := { s.boot with floor := value, floorBad := false } } [] else .no s .invalidArg
    else if value < s.boot.floor || s.boot.svn < value then .no s .invalidArg
    else .ok { s with boot := { s.boot with floor := value } } [])

/-- A release record of the owner enrolled: it names the node, and both signatures verify (R360). -/
def releases (id : BitVec 128) (r : Option ReleaseRec) : Bool :=
  match r with
  | some x => x.deviceId == id && x.ownerEd && x.ownerMl
  | none => false

/-- OWNER_ENROL: takes effect at the next activation or cold reset (R360). -/
def execOwnerEnrol (t : Nat) (h : MbxHdr) (rec : OwnerRec) (release : Option ReleaseRec) (s : State) : Host.Outcome State Fault Refusal :=
  s.mbox t (.ownerEnrol t h rec release) h 0x0053 .ridge0 (fun s =>
    if rec.deviceId ≠ s.boot.deviceId || !rec.vendorEd || !rec.vendorMl then .no s .invalidArg
    else if (s.boot.owner.isSome || s.boot.ownerNext.isSome) && !releases s.boot.deviceId release then .no s .accessDenied
    else .ok { s with boot := { s.boot with ownerNext := some rec.keys } } [])

/-- TRNG_HEALTH_FAILURE: no new key, session key or pattern is drawn; a record goes to ridge 0 (R366). -/
def execTrngHealthFailure (t : Nat) (s : State) : Host.Outcome State Fault Refusal :=
  let s := s.advance t
  .next ({ s with boot := { s.boot with trngBad := true } }.report (ErrRec.of .trng 31 .security))

end Sys2Proof.Machine
end

