-- ==== Sys2Proof/Machine/Rings.lean ====
section
/-! DEFINITION. The host's two places (R367 to R386): HELLO, command rings and their fetches, function-level reset, and the messages
and commands that no opcode defines.
Log entries 16, 47, 48, 58, 66, 67. -/

namespace Sys2Proof.Machine

open Sys2Proof

-- HELLO (R379).

/-- The MSI-X table size of a function (R367); the BMC has the PF's. -/
def tableSize (f : Fn) : Nat := if Fn.isVf f then 128 else 2048

/-- The ridge a function serves (R341): ridge 0 for the PF and the BMC. -/
def ridgeOfFn (f : Fn) : Nat :=
  match f with
  | .vf r => r
  | .pf => 0
  | .bmc => 0

/-- Rings a ridge has created. -/
def State.ringCount (s : State) (r : Nat) : Nat := (s.rings.filter (fun e => e.1 / 8192 == r)).length

/-- HELLO: version 1 is chosen, or there is none in common and nothing changes (R379). -/
def execHello (t : Nat) (h : MbxHdr) (versions : Nat) (s : State) : Host.Outcome State Fault Refusal :=
  s.mbox t (.hello t h versions) h 0x0001 .any (fun s =>
    let r := ridgeOfFn h.fn
    if !versions.testBit 1 then .no s .invalidArg
    else .ok (s.modFunc h.fn.key (fun f => { f with session := some 1 }))
      [1, idDevice, idRev, r, r, (s.ridge r).state.code, (s.ridge r).p.ringShare, s.ringCount r, tableSize h.fn])

/-- MBOX_UNSUPPORTED_OPCODE: UNSUPPORTED, after the checks that come before it (R510). -/
def execMboxUnsupportedOpcode (t : Nat) (h : MbxHdr) (opcode : Nat) (s : State) : Host.Outcome State Fault Refusal :=
  s.message t (.mboxUnsupportedOpcode t h opcode) h opcode false .any (fun s => .no s .unsupported)

/-- MBOX_OVERRUN: a SUBMIT that finds BUSY (R373). -/
def execMboxOverrun (t : Nat) (fn : Fn) (s : State) : Host.Outcome State Fault Refusal :=
  let s := s.advance t
  if s.asleep || s.dead || !s.fnServing fn || (s.func fn.key).busy.isNone then .next s
  else .next (s.modFunc fn.key (fun f => { f with overrun := true }))

-- Creating and ending rings (R380 to R382).

/-- A ring as RING_CREATE and RING_RESET leave it (R405). -/
def Ring.fresh (creator : Fn) (p : RingParams) : Ring :=
  match p with
  | .host n sq cq v cc cu =>
    { host := true, entries := n, sqAddr := sq, cqAddr := cq, vector := v, coalCount := cc, coalUs := cu, cirque := 0,
      creator := creator, state := .active, sqHead := 0, sqTail := 0, cqTail := 0, cqHead := 0, phase := 1, fetched := [],
      outstanding := 0, unread := 0, coalSince := none, coalPend := 0, order := [], slotWait := false }
  | .node n c =>
    { host := false, entries := n, sqAddr := 0, cqAddr := 0, vector := 0, coalCount := 1, coalUs := 0, cirque := c,
      creator := creator, state := .active, sqHead := 0, sqTail := 0, cqTail := 0, cqHead := 0, phase := 1, fetched := [],
      outstanding := 0, unread := 0, coalSince := none, coalPend := 0, order := [], slotWait := false }

/-- A ring's parameters as they were created. -/
def Ring.params (g : Ring) : RingParams :=
  if g.host then .host g.entries g.sqAddr g.cqAddr g.vector g.coalCount g.coalUs else .node g.entries g.cirque

/-- Every TLV of RING_CREATE lies in its range (R369, R380). -/
def State.ringOk (s : State) (r : Nat) (f : Fn) (p : RingParams) : Bool :=
  match p with
  | .host n sq cq v cc cu =>
    decide (1 ≤ n) && decide (n ≤ 4096) && sq % 4096 == 0 && cq % 4096 == 0 && decide (sq < 2 ^ 64) && decide (cq < 2 ^ 64) &&
    decide (1 ≤ v) && decide (v < tableSize f) && decide (1 ≤ cc) && decide (cc ≤ 255) && decide (cu ≤ 255)
  | .node n c => decide (1 ≤ n) && decide (n ≤ 4096) && (s.ridge r).p.cirques.contains c

/-- The network rings of a slice hold at most 512 KiB: 4,096 entries of 128 bytes (R380). -/
def State.sliceOk (s : State) (p : RingParams) : Bool :=
  match p with
  | .host _ _ _ _ _ _ => true
  | .node n c => decide (s.rings.foldl (fun k e => if !e.2.host && e.2.cirque = c then k + e.2.entries else k) n ≤ 4096)

/-- The lowest ring index from i on that a ridge has not created (log entry 16). -/
def State.freeRing (s : State) (r : Nat) (i fuel : Nat) : Option Nat :=
  match fuel with
  | 0 => none
  | fuel + 1 => if (s.rings.get? (ringKey r i)).isNone then some i else s.freeRing r (i + 1) fuel

/-- RING_CREATE (R380). -/
def execRingCreate (t : Nat) (h : MbxHdr) (p : RingParams) (s : State) : Host.Outcome State Fault Refusal :=
  s.mbox t (.ringCreate t h p) h 0x0020 .any (fun s => withRidge h s (fun r =>
    let creator : Fn := if h.fn = .bmc then .pf else h.fn
    if (s.ridge r).state ≠ .opened then .no s .stateConflict
    else if !s.ringOk r creator p then .no s .invalidArg
    else if !s.sliceOk p then .no s .noSpace
    else
      match s.freeRing r 0 (s.ridge r).p.ringShare with
      | none => .no s .noSpace
      | some i => .ok { s with rings := s.rings.set (ringKey r i) (Ring.fresh creator p) } [i]))

/-- A message about one ring of a ridge (R382). -/
def withRing (h : MbxHdr) (i : Nat) (s : State) (body : Nat → Ring → MRes) : MRes :=
  withRidge h s (fun r =>
    if 8192 ≤ i then .no s .invalidArg
    else
      match s.rings.get? (ringKey r i) with
      | none => .no s .invalidArg
      | some g => body r g)

/-- A ring has admitted commands outstanding (R382). -/
def State.ringBusy (s : State) (r i : Nat) (g : Ring) : Bool :=
  decide (0 < g.outstanding) || s.conns.any (fun e => e.2.ridge == r && e.2.p.cmdRing == some i && decide (0 < e.2.cmdAdmitted))

/-- RING_DESTROY (R382). -/
def execRingDestroy (t : Nat) (h : MbxHdr) (ring : Nat) (s : State) : Host.Outcome State Fault Refusal :=
  s.mbox t (.ringDestroy t h ring) h 0x0021 .any (fun s => withRing h ring s (fun r g =>
    if s.ringBusy r ring g || s.conns.any (fun e => e.2.ridge == r && e.2.p.cmdRing == some ring) then .no s .busy
    else .ok { s with rings := s.rings.erase (ringKey r ring) } []))

/-- RING_RESET: an Error ring is Active again (R382). -/
def execRingReset (t : Nat) (h : MbxHdr) (ring : Nat) (s : State) : Host.Outcome State Fault Refusal :=
  s.mbox t (.ringReset t h ring) h 0x0022 .any (fun s => withRing h ring s (fun r g =>
    if s.ringBusy r ring g then .no s .busy
    else if g.state ≠ .error then .no s .stateConflict
    else .ok { s with rings := s.rings.set (ringKey r ring) (Ring.fresh g.creator g.params) } []))

/-- STATE of RING_HEAD (R405). -/
def RingState.code (x : RingState) : Nat :=
  match x with
  | .active => 1
  | .error => 2
  | .stopped => 3

/-- RING_GET: index, state and heads (R378). -/
def execRingGet (t : Nat) (h : MbxHdr) (ring : Nat) (s : State) : Host.Outcome State Fault Refusal :=
  s.mbox t (.ringGet t h ring) h 0x0023 .any (fun s => withRing h ring s (fun _ g =>
    .ok s [ring, g.state.code, g.sqHead, g.sqTail, g.cqTail, g.cqHead, g.phase]))

-- Errors of a ring (R382, R403).

/-- The first ring in Error is latched for a function whose RING_ERROR is 0, and the cause is raised (R403). -/
def State.noteRing (s : State) (k r i : Nat) : State :=
  let s := s.modFunc k (fun f => if f.cause.toNat.testBit causeRingError then f else { f with firstRing := some (i, r) })
  s.raiseCause k causeRingError

/-- A ring enters Error: nothing more is fetched; its ridge's function and the PF are told, and a record is written (R382). -/
def State.ringError (s : State) (r i : Nat) : State :=
  let s := s.modRing (ringKey r i) (fun g => { g with state := .error, fetched := [], slotWait := false })
  ((s.noteRing r r i).noteRing 0 r i).report (ErrRec.of .ringError r .none)

-- Fetching (R381, R383, R406).

/-- Entries before the tail and not yet fetched (R406). -/
def Ring.waiting (g : Ring) : Nat :=
  (g.sqTail + g.entries - g.sqHead) % g.entries - g.fetched.foldl (· + ·) 0

/-- PCIe reads of a span: at most 4,096 bytes each, and a second run where it wraps (R367, R383). -/
def spanReads (addr entries first span : Nat) : List (Nat × Nat) :=
  let a := min span (entries - first)
  let cut (at_ n : Nat) : List (Nat × Nat) := (List.range ((n + 31) / 32)).map (fun k => (at_ + 4096 * k, 128 * min 32 (n - 32 * k)))
  cut (addr + 128 * first) a ++ (if a < span then cut addr (span - a) else [])

/-- SUBMISSION_FETCH_COMPLETE: the next span of a ring has been read whole (R381, R383). -/
def execSubmissionFetchComplete (t : Nat) (ridge ring span : Nat) (s : State) : Host.Outcome State Fault Refusal :=
  let s := s.advance t
  let key := ringKey ridge ring
  match s.rings.get? key with
  | none => .next s
  | some g =>
    if s.frozen || !g.host || g.state ≠ .active || !s.ridgeUp ridge || g.slotWait || span = 0 || g.waiting = 0 then .next s
    else if g.entries ≤ span then .next (s.ringError ridge ring)
    else if g.waiting < span || g.entries ≤ g.outstanding + g.fetched.length + g.unread then .next s
    else
      let first := (g.sqHead + g.fetched.foldl (· + ·) 0) % g.entries
      let reads := spanReads g.sqAddr g.entries first span
      let s := reads.foldl (fun s x => (s.emit (.hostRead g.creator x.1 x.2)).event none 0x0C 1) s
      .next ((s.event none 0x0D (128 * span)).modRing key (fun g => { g with fetched := g.fetched ++ [span] }))

/-- RING_SPAN_FETCH: a request slot is free and the ring's next span is fetched again (R383). -/
def execRingSpanFetch (t : Nat) (ridge ring : Nat) (s : State) : Host.Outcome State Fault Refusal :=
  let s := s.advance t
  match s.rings.get? (ringKey ridge ring) with
  | none => .next s
  | some g =>
    if s.frozen || !g.slotWait || !s.slotFree ridge then .next s
    else .next (s.modRing (ringKey ridge ring) (fun g => { g with slotWait := false }))

/-- COAL_TIMEOUT: COAL_US after the oldest pending entry (R381). -/
def execCoalTimeout (t : Nat) (ridge ring : Nat) (s : State) : Host.Outcome State Fault Refusal :=
  let s := s.advance t
  match s.rings.get? (ringKey ridge ring) with
  | none => .next s
  | some g =>
    match g.coalSince with
    | none => .next s
    | some at_ =>
      if s.frozen || s.now < at_ + 1000 * g.coalUs || g.state = .stopped then .next s
      else .next (s.ringMsix (ringKey ridge ring) g)

/-- PCIE_READ_FAILED: the ring enters Error, or the command's operands cannot be had (R370). -/
def execPcieReadFailed (t : Nat) (what : PcieRead) (s : State) : Host.Outcome State Fault Refusal :=
  let s := s.advance t
  match what with
  | .fetch r i =>
    (match s.rings.get? (ringKey r i) with
      | none => .next s
      | some g => if s.frozen || !g.host || g.state ≠ .active then .next s else .next (s.ringError r i))
  | .query slot =>
    (match s.reqs.get? slot with
      | none => .next s
      | some q => if s.frozen || q.phase ≠ .fetching || q.desc.srcOf.qsrc ≠ 3 then .next s else .next (s.queryLate slot q))

/-- UNDEFINED_COMMAND_OPCODE: MALFORMED, once the conditions of R390 hold (R386, R389). -/
def execUndefinedCommandOpcode (t : Nat) (src : Src) (d : Desc) (s : State) : Host.Outcome State Fault Refusal :=
  let s := s.advance t
  if s.frozen then .next s
  else
    match s.take src d [] with
    | (s, none) => .next s
    | (s, some c) => .next ((s.reject c ((firstFail (s.conditions c)).getD .malformed) 0 0).noteDrained c)

-- Functions (R368, R371).

/-- The host rings of some functions are Stopped: nothing more is fetched, and reads in flight fail (R371). -/
def State.stopRings (s : State) (p : Fn → Bool) : State :=
  let mine (src : Src) : Bool := (s.creatorOf src).any p
  let lost := s.reqs.filter (fun e => e.2.phase == .fetching && e.2.desc.srcOf.qsrc == 3 && mine e.2.src)
  let s := { s with rings := s.rings.mapVals (fun _ g =>
    if g.host && p g.creator then { g with state := .stopped, fetched := [], slotWait := false, coalPend := 0, coalSince := none } else g) }
  lost.foldl (fun s e => s.queryLate e.1 e.2) s

/-- A function's mailbox session, interrupt block, MSI-X table and latches are what they are after cold reset (R371, R414). -/
def Func.reset (f : Func) : Func := Func.fresh f.ready

/-- FUNCTION_LEVEL_RESET (R371). -/
def execFunctionLevelReset (t : Nat) (fn : Fn) (s : State) : Host.Outcome State Fault Refusal :=
  let s := s.advance t
  match fn with
  | .bmc => .next s
  | .pf => .next (s.modFunc 0 Func.reset)
  | .vf r => .next ((s.stopRings (fun f => f == .vf r)).modFunc r Func.reset)

/-- SRIOV_VF_ENABLE: the host's NumVFs and VF Enable (R368). -/
def execSriovVfEnable (t : Nat) (numVfs : Nat) (enable : Bool) (s : State) : Host.Outcome State Fault Refusal :=
  .next { s.advance t with numVfs := min numVfs 16, vfEnable := enable }

/-- PCIE_REPLAY: its weight goes to the I/O ring (R423). -/
def execPcieReplay (t : Nat) (s : State) : Host.Outcome State Fault Refusal := .next ((s.advance t).weigh .ioRing 1 false)

end Sys2Proof.Machine
end

