-- ==== Sys2Proof/Machine/Regs.lean ====
section
/-! DEFINITION. The register map (R9, R10, R397 to R414): reads that latch, writes under the access codes, doorbells, interrupts,
marks, and accesses that no register takes.
Log entries 11, 27, 49, 55. -/

namespace Sys2Proof.Machine

open Sys2Proof

-- Values of counters (R407 to R413).

/-- Levels of the ridge section: PGS_USED, PGS_FREE_MIN, PGS_SHARED, KLD_PARK_CNT; other indices read what was counted. -/
def State.ridgeCtr (s : State) (r i : Nat) : Nat :=
  let cs := (s.ridge r).p.cirques
  let held := s.pages.filter (fun e => cs.contains (slotCirque e.1))
  if i = 1 then held.length
  else if i = 2 then cs.foldl (fun n c => min n (s.freeSlots c)) (if cs.isEmpty then 0 else slotsPerCirque)
  else if i = 5 then (held.filter (fun e => decide (1 < e.2.refs))).length
  else if i = 86 then s.parkedOf r
  else s.ctr (.ridge r i)

/-- Levels of the cirque section: CDC_BACKLOG and PSK_ROWS_USED. -/
def State.cirqueCtr (s : State) (r c i : Nat) : Nat :=
  if i = 4 then (s.cirque c).sealQ.length
  else if i = 5 then (match (s.ridge r).pskr with
    | some g => ((g.rows.get? c).getD []).length
    | none => 0)
  else s.ctr (.cirque c i)

/-- Levels of the index section: side-list and tombstone items by cirque. -/
def State.indexCtr (s : State) (r x i : Nat) : Nat :=
  let part (c : Nat) : Option IndexPart := (s.indexes.get? (indexKey r x)).bind (fun (v : Index) => v.parts.get? c)
  if 16 ≤ i ∧ i < 32 then ((part (i - 16)).map (fun (p : IndexPart) => p.side.length)).getD 0
  else if 32 ≤ i ∧ i < 48 then ((part (i - 32)).map (fun (p : IndexPart) => p.tombs.length)).getD 0
  else s.ctr (.index r x i)

/-- QUAR_CELLS of the node section; other indices read what was counted. -/
def State.nodeCtr (s : State) (i : Nat) : Nat :=
  if i = 2058 then s.cirques.foldl (fun n e => n + (e.2.cells.filter (fun c => c.2.quarantined)).length) 0
  else s.ctr (.node i)

/-- A bank's counters (R412): LUP_WAIT_MAX is open, and 0 before the first search (log entry 27). -/
def State.bankCtr (s : State) (b i : Nat) : Nat :=
  let n := s.ctr (.bank b 0)
  if i = 2 && n != 0 then Config.openCount 7 b 0 n % 2 ^ 64 else s.ctr (.bank b i)

/-- The counter at a byte offset of a ridge's view (R408); what the ridge does not own reads 0 (R407). -/
def State.viewCtr (s : State) (r off : Nat) : Nat :=
  if off < 0x2000 then s.ridgeCtr r (off / 8)
  else if off < 0x42000 then
    let c := (off - 0x2000) / 0x4000
    if (s.ridge r).p.cirques.contains c then s.cirqueCtr r c ((off - 0x2000) % 0x4000 / 8) else 0
  else if off < 0x44000 then
    let x := (off - 0x42000) / 0x200
    if (s.indexes.get? (indexKey r x)).isSome then s.indexCtr r x ((off - 0x42000) % 0x200 / 8) else 0
  else if off < 0x44400 then
    let b := (off - 0x44000) / 0x40
    if (if r = 0 then s.privBank b else (s.lBank b).owner == r) then s.bankCtr b ((off - 0x44000) % 0x40 / 8) else 0
  else 0

-- The 64-bit registers (R398).

/-- P and the default deadline as RST_SCHED holds them (R404). -/
def schedWord (f : Option Fabric) (p0 : Nat) : Nat :=
  match f with
  | some f => f.periodUs + f.deadlineUs * 2 ^ 17
  | none => p0

/-- A 64-bit register of a ridge's RST block (R352, R404). -/
def State.rst64 (s : State) (r off : Nat) : Option Nat :=
  let g := s.ridge r
  let cur := s.fab.cur
  if off = 0x08 then some (g.tempoLevel + 4 * g.tempoExp)
  else if off = 0x10 then some (if r = 0 then 0 else g.keyEpoch + g.ridgeEpoch * 2 ^ 32)
  else if off = 0x18 then some s.now
  else if off = 0x20 then
    some (match cur with
      | some f =>
        let n := exposureAt f s.now
        let valid := s.time.st ≠ .unset && s.time.st ≠ .acquiring
        n.toNat % 2 ^ 44 + flagBit valid 44 + flagBit (decide (n < 0)) 45
      | none => 0)
  else if off = 0x28 then some ((cur.map (·.t0)).getD 0)
  else if off = 0x30 then some (schedWord cur 2000)
  else if off = 0x38 then some ((s.fab.pend.map (·.actTime)).getD 0)
  else if off = 0x40 then some ((s.fab.pend.map (·.t0)).getD 0)
  else if off = 0x48 then some (schedWord s.fab.pend 0)
  else if off = 0x50 then
    some ((cur.map (·.epoch)).getD 0 + s.fab.prevEpoch.getD 0 * 2 ^ 16 + flagBit (decide (s.now < s.fab.drainAt)) 32)
  else if off = 0x58 then some (if s.now < s.fab.drainAt then s.fab.drainAt else 0)
  else none

/-- OWNER of GST_CIRQ (R402). -/
def State.gstOwner (s : State) (c : Nat) : Nat := if s.zeroing c then 30 else (s.ownerOf c).getD 31

/-- NT_STATUS (R317). -/
def State.ntStatus (s : State) : Nat :=
  s.time.st.code + flagBit s.time.ppsPhase 3 + s.time.stepThUs * 16 + s.holdMs * 2 ^ 16

/-- HLT_CFG (R452). -/
def HltCfg.word (c : HltCfg) : Nat :=
  c.halfLife + c.watchTh * 2 ^ 8 + c.drainTh * 2 ^ 18 + c.expelTh * 2 ^ 28 + c.hyst * 2 ^ 38 + c.advMin * 2 ^ 46 + c.quarCount * 2 ^ 54

/-- SHT_CYCLE of a breakout (R318). -/
def Sched.cycleWord (g : Sched) : Nat :=
  g.run.cycle % 2 ^ 24 + (g.run.entries.length - 1) * 2 ^ 24 + flagBit g.pend.isSome 32

/-- CAIRN_MODE of a cirque (R206). -/
def State.cairnMode (s : State) (c : Nat) : Nat :=
  (List.range 64).foldl (fun n k => n + flagBit ((s.group (groupKey c k)).mode) k) 0

/-- The 64-bit registers of the PWR block (R493), which read in every power state. -/
def State.pwr64 (s : State) (off : Nat) : Option Nat :=
  let p := s.power
  if off = 0x08 then some (p.lastSource + p.lastBreakout * 16 + p.lastFn * 128 + flagBit p.replayed 12 + p.fromState * 2 ^ 13)
  else if off = 0x10 then some p.wakeAt
  else if off = 0x18 then some p.a0At
  else none

/-- The 64-bit registers of the PF's BAR0 outside the RST blocks and the counters (R399). -/
def State.pf64 (s : State) (off : Nat) : Option Nat :=
  if off = 0x1008 then
    some ((match s.fab.cur with
      | some f => f.node + 2 ^ 9 + f.epoch * 2 ^ 16
      | none => 0) + (match s.fab.pend with
      | some p => p.epoch * 2 ^ 32 + 2 ^ 48
      | none => 0))
  else if off = 0x1010 then some (s.ridges.foldl (fun n e => n + e.2.state.code * 2 ^ (3 * e.1)) 0)
  else if off = 0x1018 then some ((List.range 8).foldl (fun n c => n + s.gstOwner c * 2 ^ (8 * c)) 0)
  else if off = 0x1020 then some ((List.range 8).foldl (fun n c => n + s.gstOwner (c + 8) * 2 ^ (8 * c)) 0)
  else if off = 0x21000 then some s.ntStatus
  else if off = 0x21008 then some s.now
  else if 0x21100 ≤ off && decide (off < 0x21180) && off % 16 == 0 then some ((s.brk ((off - 0x21100) / 16)).shutter.cycleWord)
  else if off = 0x24000 then some s.health.cfg.word
  else if 0x25000 ≤ off && decide (off < 0x25020) then s.pwr64 (off - 0x25000)
  else if off = 0x26008 then some s.strip.logic
  else if off = 0x26010 then some s.strip.mem
  else if off = 0x26018 then some s.strip.analog
  else if off = 0x26020 then some s.strip.doneAt
  else if off = 0x27008 then some ((s.trace.armed.map (·.1)).getD 0)
  else if off = 0x27010 then some s.trace.cutAt
  else if off = 0x27018 then some s.trace.relAt
  else if off = 0x28000 then
    some (s.sns.dieMax % 256 + s.sns.stackMax % 256 * 2 ^ 8 + s.sns.substrate % 256 * 2 ^ 16 + s.sns.power % 65536 * 2 ^ 32)
  else if 0x30000 ≤ off && decide (off < 0x40000) && off % 0x1000 == 8 then some (s.cairnMode ((off - 0x30000) / 0x1000))
  else none

/-- The 64-bit register at an offset of a function's window (R399, R400). -/
def State.reg64 (s : State) (f : Fn) (off : Nat) : Option Nat :=
  match f with
  | .pf =>
    if 0x40000 ≤ off && decide (off < 0x51000) then s.rst64 ((off - 0x40000) / 0x1000) (off % 0x1000)
    else if 0x2000000 ≤ off && decide (off < 0x2900000) && off % 8 == 0 then
      some (if off < 0x2080000 then s.nodeCtr ((off - 0x2000000) / 8) else s.viewCtr ((off - 0x2080000) / 0x80000) ((off - 0x2080000) % 0x80000))
    else s.pf64 off
  | .vf r =>
    if 0x1000 ≤ off && decide (off < 0x2000) then s.rst64 r (off - 0x1000)
    else if 0x40000 ≤ off && decide (off < 0xC0000) && off % 8 == 0 then some (s.viewCtr r (off - 0x40000))
    else none
  | .bmc => none

/-- Outside A0 and A1, or in a window that is not served, a register reads 0, but for those the always-on island answers
(R368, R482, R493). -/
def State.reg64Now (s : State) (f : Fn) (off : Nat) : Option Nat :=
  match s.reg64 f off with
  | none => none
  | some v =>
    if s.asleep then (if f = .pf && 0x25000 ≤ off && decide (off < 0x26000) then some v else some 0)
    else if s.fnServing f then some v else some 0

-- The 32-bit registers (R397): what a 4-byte read of one returns.

/-- The ID block, the same in every window but for ID_FUNC (R401). -/
def State.id32 (s : State) (f : Fn) (off : Nat) : Option Nat :=
  if off = 0x0 then some 0x12001E7C
  else if off = 0x4 then some 1
  else if off = 0x8 then some (f.key + f.key * 2 ^ 5)
  else if off = 0xC then some (if s.boot.recovery then 0 else s.boot.svn)
  else none

/-- GST_STATUS (R402). -/
def State.gstStatus (s : State) : Nat :=
  s.power.state + flagBit (s.power.transit != .none) 2 + flagBit s.fab.cur.isSome 3 + flagBit s.boot.recovery 4 + flagBit s.switching 5 +
  flagBit s.trace.armed.isSome 6 + flagBit (s.trace.held && s.trace.written) 7 + s.time.st.code * 2 ^ 8 + s.sns.issueK * 2 ^ 11

/-- TMB_STATUS (R372); READY is 0 outside A0 and A1 and while the function is not served (R368, R482). -/
def State.tmbStatus (s : State) (f : Fn) : Nat :=
  let m := s.func f.key
  (if m.busy.isSome then 1 else if m.done then 2 else 0) + flagBit m.overrun 2 + flagBit (m.ready && !s.asleep && s.fnServing f) 3 +
  flagBit s.boot.recovery 4 + ((m.resp.map (·.tag)).getD 0) % 65536 * 2 ^ 16

/-- A word of the response buffer (R372): the last response, in the session's version, 0 beyond it. -/
def Func.respWord (m : Func) (o : Nat) : Nat :=
  match m.resp with
  | some x => leAt (x.bytes (m.session.getD 0)) o 4
  | none => 0

/-- The INT block of a function (R403). -/
def Func.int32 (m : Func) (o : Nat) : Option Nat :=
  if o = 0x00 then some m.cause.toNat
  else if o = 0x08 then some m.enable.toNat
  else if o = 0x10 then some ((m.firstRing.map (fun (e : Nat × Nat) => e.1 + e.2 * 2 ^ 13 + 2 ^ 31)).getD 0)
  else none

/-- STATE and ERR_SEQ of an RST block (R404). -/
def State.rst32 (s : State) (r o : Nat) : Option Nat :=
  if o = 0x00 then some (s.ridge r).state.code
  else if o = 0x60 then some ((s.ridge r).log.next - 1)
  else none

/-- LUP_CFG (R338). -/
def Loupe.cfgWord (l : Loupe) : Nat := l.updDiv + l.privBanks * 2 ^ 7 + l.ofsDefault * 2 ^ 9 + l.oflDefault * 2 ^ 10

/-- LUP_BANK_CFG (R339): ridge 0 owns the privileged banks (R325, R341). -/
def LBank.cfgWord (q : LBank) (priv : Bool) : Nat :=
  (if priv then 0 else q.owner) + q.width * 2 ^ 5 + (q.entries.filter (fun e => e.2.valid)).length % 4096 * 2 ^ 7

/-- ERR_LAST, a copy of the latest record of ridge 0's log, and ERR_LOST (R452). -/
def State.err32 (s : State) (o : Nat) : Option Nat :=
  let l := (s.ridge 0).log
  if o < 0x80 then some (leAt ((l.recs.head?.map ErrRec.bytes).getD []) o 4)
  else if o = 0x80 then some l.lost
  else none

/-- PWR_STATUS and PWR_RESET (R493). -/
def State.pwr32 (s : State) (o : Nat) : Option Nat :=
  let p := s.power
  if o = 0x00 then
    some (p.state + flagBit (p.transit != .none) 2 + (if p.transit = .entering then p.target * 2 ^ 3 else 0) + flagBit p.wake.isSome 5 +
      p.writes.length * 2 ^ 6)
  else if o = 0x20 then some p.lastReset
  else none

/-- One stack's half of CAIRN_STAT (R207). -/
def Stack.statWord (k : Stack) : Nat :=
  k.temp % 256 + Nat.log2 k.refMult % 4 * 2 ^ 8 + flagBit k.throttled 10 + flagBit k.hot 11

/-- RING_HEAD and RING_CQ (R405). -/
def Ring.word (g : Ring) (o : Nat) : Nat :=
  let st := match g.state with
    | .active => 1
    | .error => 2
    | .stopped => 3
  if o = 0x8 then g.sqHead + g.sqTail * 2 ^ 12 + st * 2 ^ 24 + flagBit (!g.host) 26
  else if o = 0xC then (if g.host then g.cqTail + g.phase * 2 ^ 12 + g.cqHead * 2 ^ 13 else 0)
  else 0

/-- A 32-bit register of a ring window; a ring that is not created reads 0, and so do the write-only registers (R405). -/
def State.ring32 (s : State) (r o : Nat) : Nat := ((s.rings.get? (ringKey r (o / 16))).map (fun (g : Ring) => g.word (o % 16))).getD 0

/-- The 32-bit registers of the PF's BAR0 outside ID, INT, TMB, RST and the ring windows (R399). -/
def State.pf32 (s : State) (off : Nat) : Option Nat :=
  if off = 0x1000 then some s.gstStatus
  else if off = 0x1028 then some ((s.ridge 0).log.next - 1)
  else if off = 0x20000 then some s.kldCfg.toNat
  else if 0x20104 ≤ off ∧ off ≤ 0x20140 then some (((s.kldRidge.get? ((off - 0x20100) / 4)).getD 0#32).toNat)
  else if off = 0x21010 then some ((max (-2147483647) (min 2147483647 s.time.offset) % 4294967296).toNat)
  else if off = 0x22000 then some s.loupe.cfgWord
  else if 0x22040 ≤ off ∧ off < 0x22080 then some ((s.lBank ((off - 0x22040) / 4)).cfgWord (s.privBank ((off - 0x22040) / 4)))
  else if 0x23000 ≤ off ∧ off < 0x24000 then s.err32 (off - 0x23000)
  else if 0x25000 ≤ off ∧ off < 0x26000 then s.pwr32 (off - 0x25000)
  else if off = 0x26000 then some (s.strip.state + flagBit s.strip.pass 2)
  else if off = 0x27000 then
    some ((match s.trace.mode with
      | .off => 0
      | .stream => 1
      | .ring => 2) + flagBit s.trace.portUp 2 + flagBit s.trace.loss 3 + s.trace.buf.length * 32 / 1048576 * 2 ^ 8)
  else if off = 0x27020 then some 0
  else if off = 0x27028 then some (s.ridge 0).watchdogMs
  else if off = 0x28008 then some (s.sns.targetMv % 4096 + s.sns.measMv % 4096 * 2 ^ 12 + min s.sns.failCnt 255 * 2 ^ 24)
  else if off = 0x28010 then some (flagBit s.sns.brownout 0 + s.sns.supply * 2)
  else if 0x30000 ≤ off ∧ off < 0x40000 then
    let c := (off - 0x30000) / 0x1000
    if off % 0x1000 = 0 then
      (s.cairnCfg.get? c).map (fun (g : CairnCfg) => g.budget + g.actTh * 2 ^ 11 + g.linger * 2 ^ 20)
    else if off % 0x1000 = 0x10 then some ((s.stack (2 * c)).statWord + (s.stack (2 * c + 1)).statWord * 2 ^ 16)
    else none
  else none

/-- The 32-bit register at an offset of a function's window (R399, R400). The MSI-X table reads as the host wrote it. -/
def State.reg32 (s : State) (f : Fn) (off : Nat) : Option Nat :=
  let m := s.func f.key
  if off % 4 ≠ 0 then none
  else if off < 0x1000 then s.id32 f off
  else if 0x2000 ≤ off ∧ off < 0x3000 then m.int32 (off - 0x2000)
  else if 0x4000 ≤ off ∧ off < 0x5000 ∧ off % 4 = 0 then some ((m.reqBuf.get? (off - 0x4000)).getD 0)
  else if 0x5000 ≤ off ∧ off < 0x6000 ∧ off % 4 = 0 then some (m.respWord (off - 0x5000))
  else if off = 0x6000 then some 0
  else if off = 0x6008 then some (s.tmbStatus f)
  else
    match f with
    | .pf =>
      if 0x8000 ≤ off ∧ off < 0x10000 then some ((m.msixTab.get? (off - 0x8000)).getD 0)
      else if 0x40000 ≤ off ∧ off < 0x51000 then s.rst32 ((off - 0x40000) / 0x1000) (off % 0x1000)
      else if 0x1000000 ≤ off ∧ off < 0x1200000 then some (s.ring32 ((off - 0x1000000) / 0x20000 + 1) ((off - 0x1000000) % 0x20000))
      else s.pf32 off
    | .vf r =>
      if 0x1000 ≤ off ∧ off < 0x2000 then s.rst32 r (off - 0x1000)
      else if 0x8000 ≤ off ∧ off < 0x8800 then some ((m.msixTab.get? (off - 0x8000)).getD 0)
      else if 0x20000 ≤ off ∧ off < 0x40000 then some (s.ring32 r (off - 0x20000))
      else none
    | .bmc => none

/-- The registers that answer in every power state and, of a VF, while it is not served: ID and TMB_STATUS, and of the PF
GST_STATUS and the PWR block (R400, R482, R493). -/
def alwaysRead (f : Fn) (off : Nat) : Bool :=
  decide (off < 0x1000) || off == 0x6008 || (f == .pf && (off == 0x1000 || (decide (0x25000 ≤ off) && decide (off < 0x26000))))

/-- Outside A0 and A1, or in a window that is not served, the other registers read 0 (R368, R400, R482). -/
def State.reg32Now (s : State) (f : Fn) (off : Nat) : Option Nat :=
  (s.reg32 f off).map (fun v => if alwaysRead f off || (!s.asleep && s.fnServing f) then v else 0)

-- Accesses that no register takes (R397).

/-- Offsets of a PF block that registers take up (R292, R293, R317, R318, R338, R339, R401 to R404, R452, R473, R493, R494, R508). -/
def blockHas (block o : Nat) : Bool :=
  match block with
  | 0x00 => decide (o < 0x10)
  | 0x01 => [0x00, 0x08, 0x0C, 0x10, 0x14, 0x18, 0x1C, 0x20, 0x24, 0x28].contains o
  | 0x02 => [0x00, 0x08, 0x10].contains o
  | 0x20 => o == 0 || (decide (0x104 ≤ o) && decide (o ≤ 0x140))
  | 0x21 => decide (o ≤ 0x10) || (decide (0x100 ≤ o) && decide (o < 0x180) && decide (o % 16 < 8))
  | 0x22 => o == 0 || (decide (0x40 ≤ o) && decide (o < 0x80))
  | 0x23 => decide (o < 0x84)
  | 0x24 => decide (o < 8)
  | 0x25 => o == 0 || (decide (8 ≤ o) && decide (o < 0x24))
  | 0x26 => o == 0 || (decide (8 ≤ o) && decide (o < 0x28))
  | 0x27 => o == 0 || (decide (8 ≤ o) && decide (o < 0x20)) || o == 0x20 || o == 0x28
  | 0x28 => decide (o < 0x0C) || o == 0x10
  | _ => false

/-- Offsets of an RST block that registers take up (R404). -/
def rstHas (o : Nat) : Bool := o == 0 || (decide (8 ≤ o) && decide (o < 0x64))

/-- Offsets of a TMB block (R372). -/
def tmbHas (o : Nat) : Bool := decide (o < 0x2000) || o == 0x2000 || o == 0x2008

/-- A word of a function's window belongs to a register, a table or a buffer of the map (R397, R399, R400, R408). -/
def assigned (f : Fn) (off : Nat) : Bool :=
  let view (o : Nat) : Bool := decide (o < 0x44400)
  match f with
  | .pf =>
    if 0x4000 ≤ off ∧ off < 0x8000 then tmbHas (off - 0x4000)
    else if off < 0x8000 ∨ (0x20000 ≤ off ∧ off < 0x29000) then blockHas (off / 0x1000) (off % 0x1000)
    else if off < 0x10000 then true
    else if off < 0x11000 then decide (off < 0x10100)
    else if 0x30000 ≤ off ∧ off < 0x40000 then [0x00, 0x08, 0x0C, 0x10].contains (off % 0x1000)
    else if 0x40000 ≤ off ∧ off < 0x51000 then rstHas (off % 0x1000)
    else if 0x1000000 ≤ off ∧ off < 0x1200000 then true
    else if 0x2000000 ≤ off ∧ off < 0x2080000 then decide (off < 0x2008000)
    else if 0x2080000 ≤ off ∧ off < 0x2900000 then view ((off - 0x2080000) % 0x80000)
    else false
  | .vf _ =>
    if 0x4000 ≤ off ∧ off < 0x8000 then tmbHas (off - 0x4000)
    else if off < 0x1000 then decide (off < 0x10)
    else if off < 0x2000 then rstHas (off - 0x1000)
    else if off < 0x3000 then blockHas 0x02 (off - 0x2000)
    else if 0x8000 ≤ off ∧ off < 0x8800 then true
    else if 0x9000 ≤ off ∧ off < 0x9010 then true
    else if 0x20000 ≤ off ∧ off < 0x40000 then true
    else if 0x40000 ≤ off ∧ off < 0xC0000 then view (off - 0x40000)
    else false
  | .bmc => false

/-- An access of 4 bytes aligned to 4 or 8 bytes aligned to 8 (R397). -/
def sizeOk (off size : Nat) : Bool := (size == 4 && off % 4 == 0) || (size == 8 && off % 8 == 0)

/-- A read that no register takes gives 0 and is counted; while the node sleeps or the function is not served it gives 0 (R368, R397,
R482). -/
def State.badRead (s : State) (f : Fn) (off : Nat) : State :=
  (if s.asleep || !s.fnServing f then s else s.bumpN 15).emit (.readData f off 0)

/-- LOW_WORD_READ: a 4-byte read. The low word of a 64-bit register is read and its high word latched for the function; at a
high word, the latched value or the present one (R398). A 32-bit register answers as it stands, and no latch is disturbed; the rest of
the map reads 0 (log entry 11). -/
def execLowWordRead (t : Nat) (fn : Fn) (offset : Nat) (s : State) : Host.Outcome State Fault Refusal :=
  let s := s.advance t
  let s := if s.frozen then s else (s.chargeAll false).event none 0x0E 1
  let k := fn.key
  if s.dead then .next s else
  match s.reg64Now fn offset, s.reg32Now fn offset with
  | some v, _ => .next ((s.modFunc k (fun f => { f with latch := f.latch.set offset (v / 2 ^ 32) })).emit (.readData fn offset (v % 2 ^ 32)))
  | none, some v => .next (s.emit (.readData fn offset v))
  | none, none =>
    match if offset % 8 = 4 then s.reg64Now fn (offset - 4) else none with
    | none => .next (if sizeOk offset 4 && assigned fn offset then s.emit (.readData fn offset 0) else s.badRead fn offset)
    | some v =>
      let hi := ((s.func k).latch.get? (offset - 4)).getD (v / 2 ^ 32)
      .next ((s.modFunc k (fun f => { f with latch := f.latch.erase (offset - 4) })).emit (.readData fn offset hi))

-- Doorbells (R382, R406).

/-- RING_DB: the new tail of a ring; a value at or above ENTRIES puts it in Error. -/
def State.ringDbW (s : State) (r i tail : Nat) : State :=
  match s.rings.get? (ringKey r i) with
  | none => s
  | some g =>
    if !g.host || g.state ≠ .active then s
    else if g.entries ≤ tail then s.ringError r i
    else s.modRing (ringKey r i) (fun g => { g with sqTail := tail })

/-- CQ_HEAD: entries behind it are consumed, and the interrupt they await is no longer due; one that passes completions not yet
written, or lies at or above ENTRIES, puts the ring in Error (R381, R382). -/
def State.cqHeadW (s : State) (r i head : Nat) : State :=
  match s.rings.get? (ringKey r i) with
  | none => s
  | some g =>
    if !g.host || g.state ≠ .active then s
    else if g.entries ≤ head then s.ringError r i
    else
      let n := (head + g.entries - g.cqHead) % g.entries
      if g.unread < n then s.ringError r i
      else
        s.modRing (ringKey r i) (fun g => { g with cqHead := head, unread := g.unread - n
                                                   coalPend := min g.coalPend (g.unread - n)
                                                   coalSince := if g.unread = n then none else g.coalSince })

/-- While a cut is held, doorbell and CQ_HEAD writes wait for the release (R468). -/
def State.heldWrite (s : State) (f : Fn) (off value : Nat) (eff : State → State) : State :=
  if s.trace.held then { s with trace := { s.trace with heldWrites := s.trace.heldWrites ++ [(f, off, 4, value)] } } else eff s

-- Interrupts (R403) and marks (R473).

/-- W1C of INT_CAUSE; INT_FIRST_RING is no longer valid once RING_ERROR is clear. -/
def State.causeW (s : State) (k : Nat) (bits : W32) : State :=
  s.modFunc k (fun f => { f with cause := f.cause &&& ~~~bits
                                 firstRing := if bits.toNat.testBit causeRingError then none else f.firstRing })

/-- INT_ENABLE: an enable bit written 1 while its cause is 1 sends the vector-0 message. -/
def State.enableW (s : State) (k : Nat) (bits : W32) : State :=
  let e := bits &&& BitVec.ofNat 32 (causeMask k)
  let f := s.func k
  let s := s.modFunc k (fun f => { f with enable := e })
  if (e &&& f.cause) ≠ 0 then s.msix k 0 else s

/-- FLM_MARK: a MARK record with the value. -/
def State.markW (s : State) (value : Nat) : State := s.film 0x10 .none 31 [value]

-- Registers written under the access codes (R9, R10).

/-- Clamp to a range. -/
def clamp (lo hi v : Nat) : Nat := if v < lo then lo else if hi < v then hi else v

/-- KLD_CFG with its fields clamped (R292). -/
def kldWord (v : Nat) : Nat :=
  clamp 1 63 (v % 64) + clamp 1 63 (v / 64 % 64) * 2 ^ 6 + clamp 8 255 (v / 2 ^ 12 % 256) * 2 ^ 12 + clamp 1 7 (v / 2 ^ 20 % 8) * 2 ^ 20 +
  clamp 1 31 (v / 2 ^ 23 % 32) * 2 ^ 23

/-- KLD_RIDGE_CFG clamped (R293). -/
def kldRidgeWord (v : Nat) : Nat := clamp 4 65535 (v % 65536) + clamp 2 65535 (v / 65536 % 65536) * 65536

/-- HLT_CFG clamped (R452). -/
def HltCfg.ofWord (v : Nat) : HltCfg :=
  let w := clamp 1 1000 (v / 2 ^ 8 % 1024)
  let d := clamp 1 w (v / 2 ^ 18 % 1024)
  { halfLife := clamp 1 255 (v % 256), watchTh := w, drainTh := d, expelTh := clamp 1 d (v / 2 ^ 28 % 1024),
    hyst := v / 2 ^ 38 % 256, advMin := clamp 1 255 (v / 2 ^ 46 % 256), quarCount := clamp 1 15 (v / 2 ^ 54 % 16) }

/-- CAIRN_CFG clamped (R205). -/
def CairnCfg.ofWord (v : Nat) : CairnCfg :=
  { budget := clamp 0 1120 (v % 2048), actTh := clamp 64 280 (v / 2 ^ 11 % 512), linger := v / 2 ^ 20 % 8 }

/-- Some tenant ridge is Open (R325). -/
def State.tenantOpen (s : State) : Bool := s.ridges.any (fun e => e.1 != 0 && e.2.state == .opened)

/-- LUP_CFG: PRIV_BANKS keeps its value while a tenant ridge is Open (R325, R338). -/
def State.lupCfgW (s : State) (v : Nat) : State :=
  { s with loupe := { s.loupe with updDiv := clamp 4 64 (v % 128)
                                   privBanks := if s.tenantOpen then s.loupe.privBanks else clamp 0 2 (v / 128 % 4)
                                   ofsDefault := v / 512 % 2, oflDefault := v / 1024 % 2 } }

/-- LUP_BANK_CFG: WIDTH alone, while the bank holds no valid entry and its owner is not Open (R326, R339). -/
def State.lupBankW (s : State) (b v : Nat) : State :=
  let q := s.lBank b
  let w := v / 32 % 4
  if w = 3 || q.entries.any (fun e => e.2.valid) || (s.ridge q.owner).state = .opened then s
  else s.modBankL b (fun q => { q with width := w })

/-- One word of the PF's BAR0 is written; RO fields and words that no writable register holds are left (R9). -/
def State.pfWordW (s : State) (off v : Nat) : State :=
  if off = 0x2000 then s.causeW 0 (BitVec.ofNat 32 v)
  else if off = 0x2008 then s.enableW 0 (BitVec.ofNat 32 v)
  else if 0x4000 ≤ off && decide (off < 0x5000) then s.modFunc 0 (fun f => { f with reqBuf := f.reqBuf.put (off - 0x4000) v })
  else if off = 0x6008 then s.modFunc 0 (fun f => { f with overrun := f.overrun && !v.testBit 2 })
  else if 0x8000 ≤ off && decide (off < 0x10000) then s.modFunc 0 (fun f => { f with msixTab := f.msixTab.set (off - 0x8000) v })
  else if off = 0x20000 then { s with kldCfg := BitVec.ofNat 32 (kldWord v) }
  else if 0x20104 ≤ off && decide (off ≤ 0x20140) then
    { s with kldRidge := s.kldRidge.set ((off - 0x20100) / 4) (BitVec.ofNat 32 (kldRidgeWord v)) }
  else if off = 0x21000 then { s with time := { s.time with stepThUs := clamp 1 1000 (v / 16 % 4096) } }
  else if off = 0x22000 then s.lupCfgW v
  else if 0x22040 ≤ off && decide (off < 0x22080) then s.lupBankW ((off - 0x22040) / 4) v
  else if off = 0x24000 then
    { s with health := { s.health with cfg := HltCfg.ofWord (s.health.cfg.word / 2 ^ 32 * 2 ^ 32 + v % 2 ^ 32) } }
  else if off = 0x24004 then
    { s with health := { s.health with cfg := HltCfg.ofWord (s.health.cfg.word % 2 ^ 32 + v % 2 ^ 32 * 2 ^ 32) } }
  else if off = 0x27000 then { s with trace := { s.trace with loss := s.trace.loss && !v.testBit 3 } }
  else if off = 0x27020 then s.markW (v % 2 ^ 32)
  else if off = 0x28010 then { s with sns := { s.sns with brownout := s.sns.brownout && !v.testBit 0 } }
  else if 0x30000 ≤ off && decide (off < 0x40000) && off % 0x1000 == 0 then
    { s with cairnCfg := s.cairnCfg.set ((off - 0x30000) / 0x1000) (CairnCfg.ofWord v) }
  else s

/-- One word of a VF's window is written. -/
def State.vfWordW (s : State) (r off v : Nat) : State :=
  if off = 0x2000 then s.causeW r (BitVec.ofNat 32 v)
  else if off = 0x2008 then s.enableW r (BitVec.ofNat 32 v)
  else if 0x4000 ≤ off && decide (off < 0x5000) then s.modFunc r (fun f => { f with reqBuf := f.reqBuf.put (off - 0x4000) v })
  else if off = 0x6008 then s.modFunc r (fun f => { f with overrun := f.overrun && !v.testBit 2 })
  else if 0x8000 ≤ off && decide (off < 0x8800) then s.modFunc r (fun f => { f with msixTab := f.msixTab.set (off - 0x8000) v })
  else s

/-- The ring window an offset lies in: the ridge and the offset in it (R399, R400). -/
def ringWindow (f : Fn) (off : Nat) : Option (Nat × Nat) :=
  match f with
  | .pf => if 0x1000000 ≤ off && decide (off < 0x1200000) then some ((off - 0x1000000) / 0x20000 + 1, (off - 0x1000000) % 0x20000) else none
  | .vf r => if 0x20000 ≤ off && decide (off < 0x40000) then some (r, off - 0x20000) else none
  | .bmc => none

/-- One word at an offset of a function's window is written. -/
def State.wordW (s : State) (f : Fn) (off v : Nat) : State :=
  match ringWindow f off with
  | some (r, o) =>
    if o % 16 = 0 then s.heldWrite f off v (fun s => s.ringDbW r (o / 16) (v % 4096))
    else if o % 16 = 4 then s.heldWrite f off v (fun s => s.cqHeadW r (o / 16) (v % 4096))
    else s
  | none =>
    match f with
    | .pf => s.pfWordW off v
    | .vf r => s.vfWordW r off v
    | .bmc => s

/-- A BAR write: what no register takes is counted; 8 bytes are the word at the offset and the one above it (R397). -/
def State.barWrite (s : State) (f : Fn) (off size v : Nat) : State :=
  if !sizeOk off size || !assigned f off then s.bumpN 15
  else if size = 4 then s.wordW f off (v % 2 ^ 32)
  else if f = .pf && off = 0x24000 then { s with health := { s.health with cfg := HltCfg.ofWord v } }
  else (s.wordW f off (v % 2 ^ 32)).wordW f (off + 4) (v / 2 ^ 32 % 2 ^ 32)

-- BAR writes as they arrive.

/-- A write that arrives outside A0 and A1 is queued, or dropped when the queue is full, and wakes the node (R480, R482). -/
def State.queueWrite (s : State) (f : Fn) (off size v : Nat) : State :=
  let s := if s.writeQFull then s.bumpN 2341 else { s with power := { s.power with writes := s.power.writes ++ [(f, off, size, v)] } }
  s.wakeUp 1 0 f.key

/-- A BAR write arrives (R368, R397, R482). -/
def State.arrive (s : State) (t : Nat) (f : Fn) (off size v : Nat) (eff : State → State) : Host.Outcome State Fault Refusal :=
  let s := s.advance t
  if s.dead then .next s
  else if s.asleep then .next (s.queueWrite f off size v)
  else
    let s := s.event none 0x0E 1
    .next (if s.fnServing f then eff s else s)

/-- The offset of a ring's register in a function's window (R399, R400, R405). -/
def ringOff (f : Fn) (r i reg : Nat) : Nat :=
  match f with
  | .vf _ => 0x20000 + 16 * i + reg
  | .pf => 0x1000000 + 0x20000 * (r - 1) + 16 * i + reg
  | .bmc => 0

/-- The ridge whose ring window a function reaches: its own for a VF (R400). -/
def ringRidge (f : Fn) (r : Nat) : Nat :=
  match f with
  | .vf v => v
  | .pf => r
  | .bmc => r

/-- RING_DB (R382, R406). -/
def execRingDb (t : Nat) (fn : Fn) (ridge ring tail : Nat) (s : State) : Host.Outcome State Fault Refusal :=
  let off := ringOff fn ridge ring 0
  s.arrive t fn off 4 (tail % 4096) (fun s => s.heldWrite fn off (tail % 4096) (fun s => s.ringDbW (ringRidge fn ridge) ring (tail % 4096)))

/-- CQ_HEAD (R381, R382). -/
def execCqHead (t : Nat) (fn : Fn) (ridge ring head : Nat) (s : State) : Host.Outcome State Fault Refusal :=
  let off := ringOff fn ridge ring 4
  s.arrive t fn off 4 (head % 4096) (fun s => s.heldWrite fn off (head % 4096) (fun s => s.cqHeadW (ringRidge fn ridge) ring (head % 4096)))

/-- INT_CAUSE written (R403). -/
def execIntCauseClear (t : Nat) (fn : Fn) (bits : W32) (s : State) : Host.Outcome State Fault Refusal :=
  s.arrive t fn 0x2000 4 bits.toNat (fun s => s.causeW fn.key bits)

/-- INT_ENABLE written (R403). -/
def execIntEnable (t : Nat) (fn : Fn) (bits : W32) (s : State) : Host.Outcome State Fault Refusal :=
  s.arrive t fn 0x2008 4 bits.toNat (fun s => s.enableW fn.key bits)

/-- FLM_MARK written by the PF (R473). -/
def execFlmMark (t : Nat) (value : W32) (s : State) : Host.Outcome State Fault Refusal :=
  s.arrive t .pf 0x27020 4 value.toNat (fun s => s.markW value.toNat)

/-- REGISTER_WRITE (R9, R10, R397). -/
def execRegisterWrite (t : Nat) (fn : Fn) (offset size value : Nat) (s : State) : Host.Outcome State Fault Refusal :=
  s.arrive t fn offset size value (fun s => s.barWrite fn offset size value)

/-- BAR_BAD_ACCESS: a read gives 0, a write is ignored, and it is counted (R397). -/
def execBarBadAccess (t : Nat) (fn : Fn) (write : Bool) (offset size : Nat) (s : State) : Host.Outcome State Fault Refusal :=
  if write then s.arrive t fn offset size 0 (fun s => s.bumpN 15)
  else
    let s := s.advance t
    if s.dead then .next s else .next ((if s.asleep then s else s.event none 0x0E 1).badRead fn offset)

end Sys2Proof.Machine
end

