-- ==== Sys2Proof/Machine/Health.lean ====
section
/-! DEFINITION. Error logs read, health scores and advisories, shadow settings, injections, node drain, mirror and stand-in settings
(R415 to R442).
Log entries 12, 51, 52. -/

namespace Sys2Proof

open Sys2Proof.Machine

/-- The 512 bytes of a wait-for record (R466). -/
def Machine.WaitRec.bytes (w : WaitRec) : List Byte :=
  sliceBytes
    (leBytes 4 w.seq ++ leBytes 4 (w.slot + w.ridge * 2 ^ 18 + flagBit w.cycle 23 + flagBit w.trunc 24) ++
     leBytes 4 (w.tag + w.opcode * 2 ^ 16 + w.edges.length * 2 ^ 24) ++ leBytes 4 0 ++ leBytes 8 w.started ++ leBytes 8 w.fired ++
     w.edges.flatMap (fun e => leBytes 1 e.1 ++ leBytes 3 e.2.1 ++ leBytes 4 (min e.2.2.1 0xFFFFFFFF) ++ leBytes 8 e.2.2.2))
    0 512

/-- An injection's target lies in range (R433). -/
def InjTarget.ok (t : InjTarget) : Bool :=
  match t with
  | .checkDram _ r _ l _ g => decide (1 ≤ r) && decide (r ≤ 16) && decide (l < 256) && decide (g < 256)
  | .checkFrame _ c st w _ => decide (c < 16) && decide (st < 60) && decide (w < 16)
  | .checkLocal _ c e _ => decide (c < 16) && decide (e < 75)
  | .pktDropBreakout b => decide (b < 8)
  | .pktDropConn n => decide (n < 131072)
  | .ctxEvict n => decide (n < 131072)
  | .cellStall c e us => decide (c < 16) && decide (e < 75) && decide (1 ≤ us) && decide (us ≤ 1000)
  | .linkRetrain b => decide (b < 8)

end Sys2Proof

namespace Sys2Proof.Machine

open Sys2Proof

-- Logs read (R419, R466).

/-- Whether a sender may read a log. -/
def logRights (f : Fn) (l : LogSel) : Option MStatus :=
  match f, l with
  | .vf r, .ridge q => if q = r then none else some .accessDenied
  | .vf _, .waitFor => some .accessDenied
  | .pf, .ridge q => if q ≤ 16 then none else some .invalidArg
  | .bmc, .ridge q => if q ≤ 16 then none else some .invalidArg
  | .pf, .waitFor => none
  | .bmc, .waitFor => none

/-- ERR_READ: the first sequence number still held, LOST, and at most 31 records from a number on; at most 7 of the wait-for log. -/
def execErrRead (t : Nat) (h : MbxHdr) (log : LogSel) (start : Nat) (s : State) : Host.Outcome State Fault Refusal :=
  s.mbox t (.errRead t h log start) h 0x0060 .any (fun s =>
    match logRights h.fn log with
    | some st => .no s st
    | none =>
      match log with
      | .ridge r =>
        let l := (s.ridge r).log
        let recs := (l.recs.filter (fun e => decide (start ≤ e.seq))).reverse.take 31
        .ok s ([l.next - l.recs.length, l.lost, recs.length] ++ recs.flatMap (fun e => e.bytes.map (·.toNat)))
      | .waitFor =>
        let recs := (s.health.waits.filter (fun w => decide (start ≤ w.seq))).reverse.take 7
        .ok s ([s.health.nextWait - s.health.waits.length, recs.length] ++ recs.flatMap (fun w => w.bytes.map (·.toNat))))

-- Scores and levels (R423 to R426).

/-- A score (R423). -/
def Health.score (h : Health) : Nat := 1000 - min 1000 (h.acc / healthUnit)

/-- The threshold below which a level is entered (R424). -/
def HltCfg.threshold (c : HltCfg) (l : Level) : Nat :=
  match l with
  | .normal => 1000
  | .watch => c.watchTh
  | .drain => c.drainTh
  | .expel => c.expelTh

/-- One level worse and one level better (R424). -/
def Level.worse (l : Level) : Level :=
  match l with
  | .normal => .watch
  | .watch => .drain
  | .drain => .expel
  | .expel => .expel
def Level.better (l : Level) : Level :=
  match l with
  | .normal => .normal
  | .watch => .normal
  | .drain => .watch
  | .expel => .drain

/-- The level after an evaluation: at most one step (R424). -/
def Health.nextLevel (h : Health) (c : HltCfg) (now : Nat) : Level :=
  if h.level ≠ .expel && decide (h.score < c.threshold h.level.worse) && (h.worseAt == 0 || decide (h.worseAt + 1000000000 ≤ now)) then h.level.worse
  else if h.level ≠ .normal && decide (c.threshold h.level + c.hyst ≤ h.score) && decide (h.changedAt + c.advMin * 60000000000 ≤ now) then
    h.level.better
  else h.level

/-- 2^(−1/(60 × HALF_LIFE)) in units of 2^-64, by the exponential series (log entry 12). -/
def decayFactor (halfLife : Nat) : Nat :=
  let one := 2 ^ 64
  let x := 12786308645202655659 / (60 * max 1 halfLife)
  let term (n k : Nat) : Nat := n * x / (one * k)
  let t2 := term x 2
  let t3 := term t2 3
  let t4 := term t3 4
  let t5 := term t4 5
  let t6 := term t5 6
  let t7 := term t6 7
  let t8 := term t7 8
  one + t2 + t4 + t6 + t8 - x - t3 - t5 - t7

/-- Every component has a score from the start (R423): stacks, lanes, cirques, cells and the I/O ring. -/
def components : List Comp :=
  (List.range 32).map Comp.stack ++ (List.range 16).map Comp.lane ++ (List.range 16).map Comp.cirque ++ (List.range 1200).map Comp.cell ++
  [Comp.ioRing]

/-- A component's health; one that no event has met scores 1,000. -/
def State.healthOf (s : State) (c : Comp) : Health :=
  (s.health.scores.find? (fun h => h.comp == c)).getD { comp := c, acc := 0, level := .normal, changedAt := 0, worseAt := 0 }

/-- An advisory record of a level change (R425), routed under R353. -/
def State.advise (s : State) (c : Comp) (score : Nat) (old new : Level) : State :=
  let r := (c.cirqueOf.bind s.ownerOf).getD 0
  (s.bumpN 2065).report { ErrRec.of .advisory r c with detail := [score, old.code, new.code] }

/-- A level changes: ADVISORY is raised; the record is written, or held for the next minute's summary past 16 (R425). -/
def State.levelChange (s : State) (c : Comp) (score : Nat) (old new : Level) : State :=
  let s := s.raiseRidge ((c.cirqueOf.bind s.ownerOf).getD 0) causeAdvisory
  if s.health.advCount < 16 then { s.advise c score old new with health := { (s.advise c score old new).health with advCount := s.health.advCount + 1 } }
  else { s with health := { s.health with advHeld := s.health.advHeld ++ [(c, old, new)] } }

/-- One component's decay and evaluation. -/
def Health.decayed (h : Health) (c : HltCfg) (now : Nat) : Health :=
  let h := { h with acc := h.acc * decayFactor c.halfLife / 2 ^ 64 }
  let l := h.nextLevel c now
  if l = h.level then h
  else { h with level := l, changedAt := now, worseAt := if h.level.code < l.code then now else h.worseAt }

/-- HEALTH_DECAY: once per second (R423, R424). -/
def execHealthDecay (t : Nat) (s : State) : Host.Outcome State Fault Refusal :=
  let s := s.advance t
  if s.asleep || s.dead || s.now < s.health.lastDecay + 1000000000 then .next s
  else
    let old := s.health.scores
    let new := old.map (fun h => h.decayed s.health.cfg s.now)
    let s := { s with health := { s.health with scores := new, lastDecay := s.now } }
    .next ((old.zip new).foldl (fun s p => if p.1.level = p.2.level then s else s.levelChange p.2.comp p.2.score p.1.level p.2.level) s)

/-- One summary for each component held back: from its first old level to its last new one. -/
def summaries (l : List (Comp × Level × Level)) : List (Comp × Level × Level) :=
  l.foldl (fun acc e =>
    if acc.any (fun a => a.1 == e.1) then acc.map (fun a => if a.1 = e.1 then (a.1, a.2.1, e.2.2) else a) else acc ++ [e]) []

/-- ADVISORY_MINUTE: a new minute opens; what the limit held back is reported in summaries, at most 16 (R425). -/
def execAdvisoryMinute (t : Nat) (s : State) : Host.Outcome State Fault Refusal :=
  let s := s.advance t
  if s.asleep || s.dead || s.now < s.health.advMinuteFrom + 60000000000 then .next s
  else
    let l := summaries s.health.advHeld
    let s := { s with health := { s.health with advHeld := l.drop 16, advMinuteFrom := s.now, advCount := (l.take 16).length } }
    .next ((l.take 16).foldl (fun s e => s.advise e.1 (s.healthOf e.1).score e.2.1 e.2.2) s)

/-- HEALTH_GET: node drain, then kind, number, score and level of every component in the ridge's scope (R353, R425, R427). -/
def execHealthGet (t : Nat) (h : MbxHdr) (s : State) : Host.Outcome State Fault Refusal :=
  s.mbox t (.healthGet t h) h 0x0061 .any (fun s =>
    let r := (MbxHdr.target h).getD 0
    if 16 < r then .no s .invalidArg
    else
      .ok s (flagBit s.health.drain 0 :: (components.filter (fun c => s.owns r c)).flatMap (fun c =>
        let x := s.healthOf c
        [c.kind, c.id, x.score, x.level.code])))

-- Shadow settings (R428, R432).

/-- SHADOW_SET: a ridge's fraction in 1/1,024 (R428). -/
def execShadowSet (t : Nat) (h : MbxHdr) (fraction : Nat) (s : State) : Host.Outcome State Fault Refusal :=
  s.mbox t (.shadowSet t h fraction) h 0x0062 .ridge0 (fun s => withRidge h s (fun r =>
    if 1024 < fraction then .no s .invalidArg
    else .ok (s.modRidge r (fun g => { g with shadow := fraction })) []))

/-- SHADOW_SET with RELEASE: a cell's quarantine and count are cleared (R432). -/
def execShadowSetRelease (t : Nat) (h : MbxHdr) (cirque cell : Nat) (s : State) : Host.Outcome State Fault Refusal :=
  s.mbox t (.shadowSetRelease t h cirque cell) h 0x0062 .ridge0 (fun s =>
    if 16 ≤ cirque || 75 ≤ cell then .no s .invalidArg
    else .ok (s.modCell cirque cell (fun c => { c with quarantined := false, odd := 0 })) [])

-- Injection (R433 to R436).

/-- The page slot a DRAM target names. -/
def State.injPage (s : State) (r h layer page : Nat) : Option Nat :=
  match s.seqOf r h with
  | none => none
  | some q => (q.layers.get? layer).bind (fun (l : Layer) => l.pages.get? page)

/-- The effect of an injection that comes at once (R433); none where it waits for its opportunity. -/
def State.fireAtOnce (s : State) (id : Nat) (t : InjTarget) : Option State :=
  match t with
  | .checkDram double r h l p g =>
    some (match s.injPage r h l p with
      | none => s
      | some key =>
        if double then
          { s.modPage key (fun p => { p with bad := p.bad ++ [g], injected := p.injected ++ [g] }) with
              health := { s.health with check2 := s.health.check2 ++ [(id, key, g)] } }
        else s.bumpN 2048)
  | .ctxEvict n => some (s.modConn n (fun c => { c with onDie := false }))
  | .cellStall c e us => some (s.modCell c e (fun x => { x with stallTo := s.now + 1000 * us }))
  | .linkRetrain b => some (s.linkLost b true)
  | .checkFrame _ _ _ _ _ => none
  | .checkLocal _ _ _ _ => none
  | .pktDropBreakout _ => none
  | .pktDropConn _ => none

/-- Fire every armed injection whose effect comes at once and has not come (R433); a held cut defers it (R451). -/
def State.fireDue (s : State) : State :=
  if s.trace.held then s
  else
    s.health.injs.foldl (fun s j =>
      if j.fired || decide (j.expiry ≤ s.now) then s
      else
        match s.fireAtOnce j.id j.target with
        | none => s
        | some s =>
          let l := if j.left ≤ 1 then s.health.injs.filter (fun k => k.id != j.id)
            else s.health.injs.map (fun k => if k.id = j.id then { k with left := k.left - 1, fired := true } else k)
          { s with health := { s.health with injs := l } }.bumpN 2059) s

/-- The DRAM granule of a target exists. -/
def State.injTargetOk (s : State) (t : InjTarget) : Bool :=
  match t with
  | .checkDram _ r h l p _ => (s.injPage r h l p).isSome
  | .ctxEvict n => (s.conns.get? n).isSome
  | .pktDropConn n => (s.conns.get? n).isSome
  | .linkRetrain b => s.brkExists b
  | .pktDropBreakout b => s.brkExists b
  | .checkFrame _ _ _ _ _ => true
  | .checkLocal _ _ _ _ => true
  | .cellStall _ _ _ => true

/-- INJECT (R433). -/
def execInject (t : Nat) (h : MbxHdr) (target : InjTarget) (count expiry : Nat) (s : State) : Host.Outcome State Fault Refusal :=
  s.mbox t (.inject t h target count expiry) h 0x0063 .ridge0 (fun s =>
    if !s.boot.injectAllow then .no s .accessDenied
    else if !InjTarget.ok target || !s.injTargetOk target || count < 1 || 255 < count || expiry ≤ s.now then .no s .invalidArg
    else if 16 ≤ s.health.injs.length then .no s .noSpace
    else
      let id := s.health.nextInj
      let j : Inj := { id := id, target := target, left := count, expiry := expiry, fired := false }
      .ok ({ s with health := { s.health with injs := s.health.injs ++ [j], nextInj := id + 1 } }.fireDue) [id])

/-- INJECT with CLEAR: the check byte of a CHECK2 injection is restored (R435). -/
def execInjectClear (t : Nat) (h : MbxHdr) (id : Nat) (s : State) : Host.Outcome State Fault Refusal :=
  s.mbox t (.injectClear t h id) h 0x0063 .ridge0 (fun s =>
    if !s.boot.injectAllow then .no s .accessDenied
    else if !s.health.check2.any (fun e => e.1 == id) then .no s .invalidArg
    else
      let mine := s.health.check2.filter (fun e => e.1 == id)
      let s := mine.foldl (fun s e => s.modPage e.2.1 (fun p =>
        { p with bad := p.bad.filter (fun g => g != e.2.2), injected := p.injected.filter (fun g => g != e.2.2) })) s
      .ok { s with health := { s.health with check2 := s.health.check2.filter (fun e => e.1 != id) } } [])

/-- INJECT_EXPIRY: an armed injection is disarmed at its expiry (R433). -/
def execInjectExpiry (t : Nat) (id : Nat) (s : State) : Host.Outcome State Fault Refusal :=
  let s := s.advance t
  .next { s with health := { s.health with injs := s.health.injs.filter (fun j => !(j.id == id && decide (j.expiry ≤ s.now))) } }

-- Node drain, mirror, stand-in (R427, R437, R442).

/-- BELAY_SET with DRAIN (R427): a change is recorded to every ridge. -/
def execBelaySetDrain (t : Nat) (h : MbxHdr) (on : Bool) (s : State) : Host.Outcome State Fault Refusal :=
  s.mbox t (.belaySetDrain t h on) h 0x0064 .ridge0 (fun s =>
    if s.health.drain = on then .ok s []
    else
      let s := { s with health := { s.health with drain := on } }
      .ok ((s.ridges.filter (fun e => e.2.state != .absent)).foldl (fun s e =>
        s.report (ErrRec.of .advisory e.1 .none)) s) [])

/-- BELAY_SET with MIRROR (R437): sequences opened from now on are mirrored, or no longer. -/
def execBelaySetMirror (t : Nat) (h : MbxHdr) (conn : Option Nat) (sync : Bool) (s : State) : Host.Outcome State Fault Refusal :=
  s.mbox t (.belaySetMirror t h conn sync) h 0x0064 .ridge0 (fun s => withRidge h s (fun r =>
    match conn with
    | none => .ok (s.modRidge r (fun g => { g with mirror := none })) []
    | some n =>
      match s.conns.get? n with
      | none => .no s .invalidArg
      | some c =>
        if c.ridge ≠ r then .no s .invalidArg
        else if c.state ≠ .opened then .no s .stateConflict
        else .ok (s.modRidge r (fun g => { g with mirror := some (n, sync) })) []))

/-- BELAY_SET with STANDIN (R442). -/
def execBelaySetStandin (t : Nat) (h : MbxHdr) (on : Bool) (s : State) : Host.Outcome State Fault Refusal :=
  s.mbox t (.belaySetStandin t h on) h 0x0064 .ridge0 (fun s => withRidge h s (fun r =>
    if !s.ridgeUp r then .no s .stateConflict
    else .ok (s.modRidge r (fun g => { g with standin := on })) []))

end Sys2Proof.Machine
end

