-- ==== Sys2Proof/Machine/Package.lean ====
section
/-! DEFINITION. The package (R8, R13, R14, R150, R295, R367, R496 to R505): what each cirque owns and where it sits, the balls, the
supplies and their order, the reference clocks, and what the straps select.
Log entries 71. -/

namespace Sys2Proof.Machine

open Sys2Proof

-- Where things sit (R13, R14, R150).

/-- The stacks a cirque owns (R14). -/
def cirqueStacks (c : Nat) : List Nat := [2 * c, 2 * c + 1]

/-- The channels a stack carries (R14). -/
def stackChannels (s : Nat) : List Nat := [4 * s, 4 * s + 1, 4 * s + 2, 4 * s + 3]

/-- A cirque's place in the mesh: column and row (R14). -/
def meshPlace (c : Nat) : Nat × Nat := (c % 4, c / 4)

/-- From one number toward another, one step at a time. -/
def stepsTo (fuel a b : Nat) : List Nat :=
  match fuel with
  | 0 => []
  | fuel + 1 => if a < b then (a + 1) :: stepsTo fuel (a + 1) b else if b < a then (a - 1) :: stepsTo fuel (a - 1) b else []

/-- The routers a flit passes after its own: along its row to the destination's column, then along that column (R150). -/
def meshRoute (a b : Nat) : List Nat :=
  let (xa, ya) := meshPlace a
  let (xb, yb) := meshPlace b
  (stepsTo 4 xa xb).map (fun x => 4 * ya + x) ++ (stepsTo 4 ya yb).map (fun y => 4 * y + xb)

/-- The edge routers, to each of which the I/O ring attaches (R150). -/
def edgeRouters : List Nat :=
  (List.range 16).filter (fun c => let (x, y) := meshPlace c; x == 0 || x == 3 || y == 0 || y == 3)

/-- The routers a flit passes from the I/O ring's attachment at an edge router to a cirque, and from a cirque to it (R150). -/
def routeFromRing (edge c : Nat) : Option (List Nat) :=
  if edgeRouters.contains edge then some (edge :: meshRoute edge c) else none
def routeToRing (c edge : Nat) : Option (List Nat) := if edgeRouters.contains edge then some (c :: meshRoute c edge) else none

-- The PCI Express functions (R367).

/-- Vendor, device and class code of the PF, and the device ID of a VF. -/
def pciIds : Nat × Nat × Nat × Nat := (0x1E7C, 0x1200, 0x120000, 0x1201)

/-- The bytes of a function's BAR: 64 MiB of the PF, 1 MiB of a VF. -/
def barBytes (f : Fn) : Nat := if f = .pf then 67108864 else 1048576

-- Straps (R505).

/-- The xSPI boot interface of STRAP[1:0]: lanes and MHz, both edges when octal. -/
def strapXspi (w : BitVec 8) : Nat × Nat :=
  if w.toNat % 4 = 1 then (8, 100) else if w.toNat % 4 = 2 then (8, 200) else (1, 25)

/-- The physical PCIe lane whose balls a logical lane uses, by STRAP[2]. -/
def strapLane (w : BitVec 8) (n : Nat) : Nat := if w.toNat.testBit 2 then 15 - n else n

/-- The AVSBus rail of VDD_CORE, by STRAP[5:3]. -/
def strapRail (w : BitVec 8) : Nat := w.toNat / 8 % 8

/-- Forced recovery, by STRAP[6]. -/
def strapRecovery (w : BitVec 8) : Bool := w.toNat.testBit 6

-- Supplies (R500 to R502).

/-- The supplies (R500). -/
inductive Supply where
  | core
  | sram
  | dphy
  | vdd1
  | vdd2h
  | vdd2l
  | ddq
  | sd
  | sda
  | io
  | aon
  deriving DecidableEq, Repr

/-- The code of a supply; VDD_AON has none. -/
def Supply.code (x : Supply) : Option Nat :=
  match x with
  | .core => some 1
  | .sram => some 2
  | .dphy => some 3
  | .vdd1 => some 4
  | .vdd2h => some 5
  | .vdd2l => some 6
  | .ddq => some 7
  | .sd => some 8
  | .sda => some 9
  | .io => some 10
  | .aon => none

/-- Nominal mV; VDD_CORE's is the AVSBus target, which starts at 750 (R501). -/
def Supply.nominal (x : Supply) (target : Nat) : Nat :=
  match x with
  | .core => target
  | .sram => 800
  | .dphy => 750
  | .vdd1 => 1800
  | .vdd2h => 1050
  | .vdd2l => 900
  | .ddq => 500
  | .sd => 750
  | .sda => 1200
  | .io => 1800
  | .aon => 750

/-- The operating range, 3% about nominal, in hundredths of a mV. -/
def Supply.inRange (x : Supply) (target cmv : Nat) : Bool :=
  decide (97 * x.nominal target ≤ cmv) && decide (cmv ≤ 103 * x.nominal target)

/-- The group in which the board powers a supply up. -/
def Supply.group (x : Supply) : Nat :=
  match x with
  | .core => 5
  | .sram => 4
  | .dphy => 4
  | .vdd1 => 2
  | .vdd2h => 3
  | .vdd2l => 3
  | .ddq => 4
  | .sd => 4
  | .sda => 4
  | .io => 1
  | .aon => 1

/-- Every supply. -/
def Supply.all : List Supply := [.core, .sram, .dphy, .vdd1, .vdd2h, .vdd2l, .ddq, .sd, .sda, .io, .aon]

/-- The board may ramp a supply: every supply of the earlier groups is at 90% of nominal (R502). -/
def Supply.mayRamp (x : Supply) (up : List Supply) : Bool := Supply.all.all (fun y => decide (x.group ≤ y.group) || up.contains y)

/-- A core voltage firmware may set: 0.65 to 0.85 V in 5 mV steps (R501). -/
def coreTarget (mv : Nat) : Bool := decide (650 ≤ mv) && decide (mv ≤ 850) && decide (mv % 5 = 0)

-- Reference clocks (R504).

/-- A reference clock's frequency in kHz and its tolerance in ppm; PCIE_REFCLK's tolerance is PCI Express's. -/
def Clock.reference (k : Clock) : Nat × Option Nat :=
  match k with
  | .sys => (100000, some 100)
  | .pcie => (100000, none)
  | .eth _ => (156250, some 100)
  | .trace => (156250, some 100)
  | .aon => (25000, some 20)

-- Balls (R8, R496 to R499).

/-- The row letters, in order (R8). -/
def rowLetters : List Char := ['A', 'B', 'C', 'D', 'E', 'F', 'G', 'H', 'J', 'K', 'L', 'M', 'N', 'P', 'T', 'U', 'V', 'W', 'Y']

/-- The letters of row y, from 1 for A to 72 for CT (R8). -/
def rowName (y : Nat) : List Char :=
  let l := [rowLetters[(y - 1) % 19]?.getD 'A']
  if y ≤ 19 then l else (['A', 'B', 'C'][(y - 20) / 19]?.getD 'A') :: l

/-- The row of letters, 0 for none (R8). -/
def rowNo (name : List Char) : Nat := ((List.range 73).find? (fun y => decide (1 ≤ y) && rowName y == name)).getD 0

/-- The signals of the package (R497); `neg` is the N ball of a pair. -/
inductive Signal where
  | ethTx (lane : Nat) (neg : Bool)
  | ethRx (lane : Nat) (neg : Bool)
  | ethRef (port : Nat) (neg : Bool)
  | pcieTx (lane : Nat) (neg : Bool)
  | pcieRx (lane : Nat) (neg : Bool)
  | pcieRef (neg : Bool)
  | perstN
  | trcTx (lane : Nat) (neg : Bool)
  | trcRef (neg : Bool)
  /-- XSPI_CLK, XSPI_CS_N, XSPI_DQS, XSPI_DQ0 to XSPI_DQ7, XSPI_RST_N. -/
  | xspi (i : Nat)
  /-- TCK, TMS, TDI, TDO, TRST_N. -/
  | jtag (i : Nat)
  | strap (i : Nat)
  | ppsIn
  | ppsOut
  /-- SMB_SCL, SMB_SDA, SMB_ALERT_N. -/
  | smb (i : Nat)
  /-- I3C_SCL, I3C_SDA. -/
  | i3c (i : Nat)
  /-- AVS_CLK, AVS_MDATA, AVS_SDATA. -/
  | avs (i : Nat)
  | sysRef (neg : Bool)
  | aonClk
  | coldRstN
  | thermtripN
  /-- THERMDA, THERMDC. -/
  | therm (i : Nat)
  deriving DecidableEq, Repr

/-- What a ball is. -/
inductive Ball where
  | signal (s : Signal)
  | supply (s : Supply)
  | vss
  deriving DecidableEq, Repr

/-- A pair of lane n at columns 5 + 4n and 6 + 4n. -/
def lanePair (x : Nat) : Option (Nat × Bool) :=
  if 5 ≤ x && x ≤ 66 && (x - 5) % 4 < 2 then some ((x - 5) / 4, (x - 5) % 4 == 1) else none

/-- The signal at column x and row number y, if any (R497). -/
def signalAt (x y : Nat) : Option Signal :=
  if y = 2 then (lanePair x).map (fun p => .ethTx p.1 p.2)
  else if y = 5 then (lanePair x).map (fun p => .ethRx p.1 p.2)
  else if y = 71 then (lanePair x).map (fun p => .pcieTx p.1 p.2)
  else if y = 68 then (lanePair x).map (fun p => .pcieRx p.1 p.2)
  else if y = 3 && (x == 2 || x == 3) then some (.ethRef 0 (x == 3))
  else if y = 3 && (x == 70 || x == 71) then some (.ethRef 1 (x == 71))
  else if y = 70 && (x == 2 || x == 3) then some (.pcieRef (x == 3))
  else if y = 70 && x == 70 then some .perstN
  else if x == 2 || x == 3 then
    (match [8, 11, 14, 17].idxOf? y with
    | some n => some (.trcTx n (x == 3))
    | none =>
      if y = 20 then some (.trcRef (x == 3))
      else if x = 3 then none
      else if 24 ≤ y && y ≤ 35 then some (.xspi (y - 24))
      else if 39 ≤ y && y ≤ 43 then some (.jtag (y - 39))
      else if 46 ≤ y && y ≤ 53 then some (.strap (y - 46))
      else if y = 56 then some .ppsIn
      else if y = 57 then some .ppsOut
      else none)
  else if y = 20 && (x == 70 || x == 71) then some (.sysRef (x == 71))
  else if x = 71 then
    (if 8 ≤ y && y ≤ 10 then some (.smb (y - 8))
    else if 12 ≤ y && y ≤ 13 then some (.i3c (y - 12))
    else if 15 ≤ y && y ≤ 17 then some (.avs (y - 15))
    else if y = 23 then some .aonClk
    else if y = 25 then some .coldRstN
    else if y = 27 then some .thermtripN
    else if y = 29 then some (.therm 0)
    else if y = 30 then some (.therm 1)
    else none)
  else none

/-- The supply of a row of the centre region, by column (R499). -/
def centreSupply (x y : Nat) : Supply :=
  if y ≤ 8 || 65 ≤ y then .sda
  else if y ≤ 10 || 63 ≤ y then .sd
  else if y ≤ 13 || 60 ≤ y then .vdd2h
  else if y ≤ 16 || 57 ≤ y then .vdd2l
  else if y ≤ 19 || 54 ≤ y then .ddq
  else if y = 20 || y = 53 then .vdd1
  else if y ≤ 22 || 51 ≤ y then .dphy
  else if 27 ≤ x && x ≤ 46 then .sram else .core

/-- What the ball at column x and row number y is (R497 to R499). -/
def ballAt (x y : Nat) : Ball :=
  match signalAt x y with
  | some s => .signal s
  | none =>
    if y ≤ 6 || 67 ≤ y then .vss
    else if x ≤ 6 then (if x = 5 && y % 2 == 1 then .supply .io else .vss)
    else if 67 ≤ x then
      (if x = 68 && y % 2 == 1 && 7 ≤ y && y ≤ 33 then .supply .io
      else if x = 68 && 34 ≤ y && y ≤ 41 then .supply .aon
      else .vss)
    else if (x + y) % 2 = 0 then .vss
    else .supply (centreSupply x y)

end Sys2Proof.Machine
end

