-- ==== Sys2Proof/Machine/Trace.lean ====
section
/-! DEFINITION. Event selectors, the filmstrip and its buffer, the request watchdog, and global stop (R454 to R474).
Log entries 4, 53, 54, 55, 56, 68. -/

namespace Sys2Proof

open Sys2Proof.Machine

/-- An event of a cirque counter or a global one is defined (R457). -/
def EvSel.known (e : EvSel) : Bool :=
  match e.cirque with
  | some _ => decide (e.event ≤ 0x16)
  | none => decide (e.event ≤ 0x14)

/-- An event is a level (R457). -/
def EvSel.level (e : EvSel) : Bool :=
  match e.cirque with
  | some _ => e.event == 0x0F || e.event == 0x14
  | none => e.event == 0x08 || e.event == 0x09 || e.event == 0x10

/-- A selector that TRACE_SET takes (R456): its counter is there, its event is defined, and COUNT goes with a quantity, ACCUM and
MAX with a level. Event 0x00 goes with any mode. -/
def EvSel.ok (e : EvSel) : Bool :=
  (match e.cirque with
    | some c => decide (c < 16) && decide (e.counter < 64)
    | none => decide (e.counter < 256)) && e.known &&
  (e.event == 0 || (match e.mode with
    | .count => !e.level
    | .accum => e.level
    | .max => e.level))

end Sys2Proof

namespace Sys2Proof.Machine

open Sys2Proof

-- Selectors and records (R456, R461, R463).

/-- A selector takes effect and its counter starts from 0 (R456). -/
def State.selectEvent (s : State) (e : EvSel) : State :=
  let l := s.trace.evsel.filter (fun x => !(x.1 == evKey e.cirque && x.2.1 == e.counter))
  let s := { s with trace := { s.trace with evsel := l ++ [(evKey e.cirque, e.counter, e.event, e.mode)] } }
  s.setCtr (evCtr e.cirque e.counter) 0

/-- TRACE_SET with EVSEL (R456): all of its selectors, or none. -/
def execTraceSetEvsel (t : Nat) (h : MbxHdr) (sels : List EvSel) (s : State) : Host.Outcome State Fault Refusal :=
  s.mbox t (.traceSetEvsel t h sels) h 0x006A .ridge0 (fun s =>
    if sels.all EvSel.ok then .ok (sels.foldl State.selectEvent s) [] else .no s .invalidArg)

/-- TRACE_SET with RECORDS (R461). -/
def execTraceSetRecords (t : Nat) (h : MbxHdr) (sel : RecSel) (s : State) : Host.Outcome State Fault Refusal :=
  s.mbox t (.traceSetRecords t h sel) h 0x006A .ridge0 (fun s =>
    if 16 < sel.k || 0x1FFFF < sel.ridges || 0xFFFF < sel.cirques || 0x1FFFF < sel.types then .no s .invalidArg
    else .ok { s with trace := { s.trace with sel := sel } } [])

/-- One LOSS record tells of the records lost, as soon as there is space (R463). -/
def State.noteLoss (s : State) : State :=
  if s.trace.lostNow = 0 then s
  else
    let body := [s.trace.lostNow, s.trace.lostFirst]
    { s with trace := { s.trace with lostNow := 0, lostFirst := 0 } }.film 0x0E .none 31 body

/-- In STREAM with the port up, the buffer empties into the port, oldest record first (R463). -/
def State.drainBuf (s : State) : State :=
  if s.trace.mode = .stream && s.trace.portUp then
    let l := s.trace.buf.reverse
    (l.foldl State.flmSend { s with trace := { s.trace with buf := [] } }).noteLoss
  else if s.trace.mode = .ring then s.noteLoss
  else s

/-- TRACE_SET with MODE (R463). The port's lanes align once it is driven while TRC_REFCLK is there. -/
def execTraceSetMode (t : Nat) (h : MbxHdr) (mode : FlmMode) (s : State) : Host.Outcome State Fault Refusal :=
  s.mbox t (.traceSetMode t h mode) h 0x006A .ridge0 (fun s =>
    let up := s.trace.portUp || (mode != .off && !s.sns.lost.contains .trace)
    .ok { s with trace := { s.trace with mode := mode, portUp := up } }.drainBuf [])

/-- Bytes the spec leaves open, from one draw on. -/
def freeBytes (from_ n : Nat) : List Byte := (List.range n).map (fun i => Config.freeByte (from_ + i))

/-- PCIe writes of the PF, at most 4,096 bytes each, for a dump (R463). -/
def State.dumpWrites (s : State) (addr : Nat) (bs : List Byte) : State :=
  if bs.isEmpty then s else (s.emit (.hostWrite .pf addr bs)).event none 0x0C (ceilDiv bs.length 4096)

/-- TRACE_SET with DUMP (R463, R469): BUSY in STREAM, and while a cut is held, when the node issues no request. The buffer goes
out oldest record first, up to the length; the form of the snapshot is the node's own. -/
def execTraceSetDump (t : Nat) (h : MbxHdr) (snapshot : Bool) (addr len : Nat) (s : State) : Host.Outcome State Fault Refusal :=
  s.mbox t (.traceSetDump t h snapshot addr len) h 0x006A .ridge0 (fun s =>
    if s.trace.held then .ans s .busy (s.retryTo (s.trace.cutAt + s.trace.holdMaxS * 1000000000)) []
    else if s.trace.mode = .stream then .no s .busy
    else if 2 ^ 64 < addr + len then .no s .invalidArg
    else if snapshot then
      if !s.trace.written then .no s .stateConflict
      else
        let (n, s) := s.drawNat
        let k := min len n
        .ok ({ s with draws := s.draws + k }.dumpWrites addr (freeBytes s.draws k)) []
    else .ok (s.dumpWrites addr ((s.trace.buf.reverse.flatMap FlmRec.bytes).take len)) [])

/-- FILMSTRIP_SYNC: a SYNC record at each whole millisecond (R459): seconds, time state and node number. -/
def execFilmstripSync (t : Nat) (s : State) : Host.Outcome State Fault Refusal :=
  let s := s.advance t
  if s.asleep || s.dead || s.now / 1000000 ≤ s.trace.lastSync / 1000000 then .next s
  else
    let s := { s with trace := { s.trace with lastSync := s.now } }
    .next (s.film 0x01 .none 31 [s.now / 1000000000, s.time.st.code, s.nodeNo])

-- The request watchdog (R464 to R466).

/-- WATCHDOG_SET (R464): 0 disables. -/
def execWatchdogSet (t : Nat) (h : MbxHdr) (periodMs : Nat) (s : State) : Host.Outcome State Fault Refusal :=
  s.mbox t (.watchdogSet t h periodMs) h 0x0069 .ridge0 (fun s => withRidge0 h s (fun r =>
    if 1000 < periodMs then .no s .invalidArg
    else .ok (s.modRidge r (fun g => { g with watchdogMs := periodMs })) []))

/-- Something waited on (R465): its kind, its 64-bit OBJECT, and since when, where the state tells. -/
structure Wait where
  kind : Nat
  obj : Nat
  since : Option Nat
  deriving DecidableEq, Repr

/-- OBJECT of a request. -/
def reqObj (slot : Nat) (q : Request) : Nat := slot + q.tag * 2 ^ 18 + q.ridge * 2 ^ 34

/-- Requests that a request waits on (R71, R134, R235, R256). -/
def State.waitsReqs (s : State) (since : Option Nat) (p : Nat → Request → Bool) : List Wait :=
  (s.reqs.filter (fun e => e.2.phase != .posted && p e.1 e.2)).map (fun e => { kind := 7, obj := reqObj e.1 e.2, since := since })

/-- What holds back the sending of a connection: its context is not on die, its window, or the timing of its breakout. -/
def State.waitsConn (s : State) (n : Nat) : List Wait :=
  match s.conns.get? n with
  | none => []
  | some c =>
    let x := c.p.breakout
    let b := s.brk x
    let credit (k : Nat) : Wait := { kind := 3, obj := k + (x % 16) * 16 + n * 256, since := none }
    (if c.onDie then [] else [{ kind := 2, obj := n, since := none }]) ++
    (match c.waiting with
      | [] => []
      | p :: _ =>
        if c.cwnd < c.inFlight + p.bytes.length then [credit 1]
        else if c.mayLeave p then []
        else [credit 5]) ++
    (if !b.queue.any (fun f => f.queue == n) then []
      else if (b.slotAt s.now).1 ≠ c.ridge then [credit 4]
      else if !(((b.gate c.ridge).listAt s.now).at_ s.now).1.testBit c.p.cls then [credit 3]
      else
        match b.shapers.get? (classKey c.ridge c.p.cls) with
        | some sh => if sh.enabled && decide (sh.credit < 0) then [credit 2] else []
        | none => [])

/-- OBJECT of a bank's segment or held access. -/
def State.segObj (s : State) (key : Nat) : Nat :=
  let u := (s.bank key).status
  key / 256 + (key % 256) * 16 + (u.seq % 256) * 2 ^ 12 + (u.state % 16) * 2 ^ 20 +
  flagBit (s.stack (bankStack (key / 256) (key % 256))).hot 24

/-- Segments of a request that have not ended. -/
def State.waitsSegs (s : State) (slot : Nat) : List Wait :=
  (s.banks.filter (fun e => e.2.queue.any (fun g => g.req == slot) || (match e.2.running with
    | some g => g.req == slot
    | none => false))).map (fun e => { kind := 4, obj := s.segObj e.1, since := e.2.running.map (·.issued) })

/-- Fills that the cells of a request's items wait for (R86). -/
def State.waitsFills (s : State) (p : Nat → Bool) : List Wait :=
  s.cirques.flatMap (fun e => (e.2.fills.filter (fun f => p f.1)).map (fun f =>
    { kind := 1, obj := slotCirque f.1 + (f.1 % slotsPerCirque) * 16 + flagBit (f.2.1 == .stream) 23, since := some f.2.2 }))

/-- The page slots whose data the cells of a request await. -/
def State.awaited (s : State) (slot : Nat) : List Nat :=
  s.cirques.flatMap (fun e => e.2.cells.filterMap (fun f => match f.2.item with
    | some i => if i.req = slot ∧ !f.2.fed then s.itemSlot i else none
    | none => none))

/-- The ring pages a held write is to reuse (R71). -/
def State.reuses (s : State) (q : Request) : List Nat :=
  match s.seqOf q.ridge q.desc.handle with
  | none => []
  | some sq =>
    let last := if q.opcode = 0x02 then sq.pageOf (q.desc.firstPos + q.desc.count - 1)
      else firstImage (images (q.desc.imagesM1 + 1) q.data) + q.desc.imagesM1
    (sq.reused (sq.layer q.desc.layer) last).map (·.2)

/-- What a request waits on (R465). -/
def State.waitsOfReq (s : State) (slot : Nat) (q : Request) : List Wait :=
  let since := q.startedAt.orElse (fun _ => some q.admittedAt)
  match q.phase with
  | .waiting => []
  | .fetching =>
    if q.region = 0 then []
    else
      let n := match q.src with
        | .conn n => if q.desc.srcOf.qsrc = 1 then n else q.desc.srcOf.conn
        | .ring _ _ => q.desc.srcOf.conn
      { kind := 5, obj := q.region + n * 2 ^ 32 + 255 * 2 ^ 56, since := since } :: s.waitsConn n
  | .thin => s.waitsSegs slot
  | .dense =>
    s.waitsFills (fun k => (s.awaited slot).contains k) ++
    (if q.opcode = 0x21 && q.todo.isEmpty && (s.unfolded slot).isEmpty then
      s.waitsReqs none (fun k r => k != slot && r.opcode == 0x21 && r.desc.handle == q.desc.handle && r.desc.layer == q.desc.layer &&
        decide (r.order < q.order))
    else [])
  | .output =>
    (s.conns.filter (fun e => e.2.msgs.any (fun m => m.owner == .output slot))).flatMap (fun e => s.waitsConn e.1)
  | .armed =>
    (match s.regions.get? (regionKey q.ridge q.region) with
      | none => []
      | some g =>
        (match g.kind with
          | .composite slots _ _ _ =>
            ((List.range slots).filter (fun k => !q.list.any (fun e => e.1 == k))).map (fun k =>
              { kind := 5, obj := q.region + (Config.freeNat (s.draws + 32 + k) % 2 ^ 24) * 2 ^ 32 + (k % 256) * 2 ^ 56,
                since := some q.admittedAt })
          | .scratch _ _ _ => []
          | .lease => []
          | .completion _ => []
          | .query => []))
  | .held => s.waitsReqs since (fun k r => decide (r.order < q.order) && (r.opcode == 0x20 || r.opcode == 0x21) &&
      r.pages.any (fun p => (s.reuses q).contains p.2 && s.readsPage k r p.1 p.2))
  | .forkWait =>
    s.waitsReqs since (fun k r => k != slot && r.opcode == 0x04 && r.phase == .forkWait && r.desc.handle == q.desc.handle &&
      decide (r.order < q.order))
  | .engine =>
    if q.opcode = 0x02 then
      (s.conns.filter (fun e => e.2.mirOut.any (fun m => m.2.2.2 == some slot))).flatMap (fun e =>
        { kind := 5, obj := e.2.own + e.1 * 2 ^ 32 + 255 * 2 ^ 56, since := some q.admittedAt } :: s.waitsConn e.1)
    else if q.opcode = 0x10 then s.waitsFills (fun k => q.list.any (fun e => e.2 == k))
    else if q.opcode = 0x2B then
      s.waitsReqs (some q.admittedAt) (fun _ r => r.ridge == q.ridge && r.opcode == 0x28 && r.desc.index == q.desc.index &&
        decide (r.order < q.order))
    else s.waitsSegs slot
  | .posted => []

/-- What an object waits on: a request by its phase; a fill on the accesses that segments hold back in its cirque (R195). -/
def State.waitsOf (s : State) (kind obj : Nat) : List Wait :=
  if kind = 7 then
    match s.reqs.get? (obj % 2 ^ 18) with
    | none => []
    | some q => s.waitsOfReq (obj % 2 ^ 18) q
  else if kind = 1 then
    (s.banks.filter (fun e => e.1 / 256 == obj % 16 && decide (0 < e.2.held))).map (fun e =>
      { kind := 4, obj := s.segObj e.1, since := some e.2.heldAt })
  else []

/-- A wait-for graph being built: edges (kind, from, µs waited, object), and the objects they end in. -/
structure WaitGraph where
  edges : List (Nat × Nat × Nat × Nat)
  cycle : Bool
  trunc : Bool
  deriving DecidableEq, Repr

/-- WAIT_US: saturating at 32 bits; a free value where the state does not tell when the wait began (log entry 4). -/
def State.waitUs (s : State) (i : Nat) (since : Option Nat) : Nat :=
  match since with
  | some a => min ((s.now - a) / 1000) 4294967295
  | none => Config.freeNat (s.draws + i) % 4294967296

/-- Record the edges of one object; those to objects already in the graph set CYCLE and are not followed. -/
def State.addEdges (s : State) (root from_ depth : Nat) (ws : List Wait) (g : WaitGraph) (queue : List (Nat × Nat × Nat × Nat)) :
    WaitGraph × List (Nat × Nat × Nat × Nat) :=
  match ws with
  | [] => (g, queue)
  | w :: rest =>
    if 30 ≤ g.edges.length then ({ g with trunc := true }, queue)
    else
      let seen := (w.kind == 7 && w.obj == root) || g.edges.any (fun e => e.1 == w.kind && e.2.2.2 == w.obj)
      let i := g.edges.length + 1
      let g := { g with edges := g.edges ++ [(w.kind, from_, s.waitUs i w.since, w.obj)], cycle := g.cycle || seen }
      s.addEdges root from_ depth rest g (if seen then queue else queue ++ [(i, depth + 1, w.kind, w.obj)])

/-- Follow the queue of objects, breadth first, to depth 8 or 30 edges (R465). -/
def State.followWaits (fuel : Nat) (s : State) (root : Nat) (g : WaitGraph) (queue : List (Nat × Nat × Nat × Nat)) : WaitGraph :=
  match fuel with
  | 0 => g
  | fuel + 1 =>
    match queue with
    | [] => g
    | (i, depth, kind, obj) :: rest =>
      let ws := s.waitsOf kind obj
      if ws.isEmpty then State.followWaits fuel s root g rest
      else if 8 ≤ depth then State.followWaits fuel s root { g with trunc := true } rest
      else
        let (g, queue) := s.addEdges root i depth ws g rest
        State.followWaits fuel s root g queue

/-- The wait-for graph of a request (R465). -/
def State.waitGraph (s : State) (slot : Nat) (q : Request) : WaitGraph :=
  State.followWaits 32 s (reqObj slot q) { edges := [], cycle := false, trunc := false } [(0, 0, 7, reqObj slot q)]

/-- Write a wait-for record, unless 64 have been written in this second: its number, or 0 (R466). -/
def State.waitRecord (s : State) (slot : Nat) (q : Request) (start : Nat) (g : WaitGraph) : State × Nat :=
  let sec := s.now / 1000000000
  let n := if s.health.waitSecond = sec then s.health.waitInSecond else 0
  if 64 ≤ n then (s.bumpN 2310, 0)
  else
    let w : WaitRec := { seq := s.health.nextWait, slot := slot, ridge := q.ridge, cycle := g.cycle, trunc := g.trunc, tag := q.tag,
                         opcode := q.opcode, edges := g.edges, started := start, fired := s.now }
    ({ s with health := { s.health with waits := w :: s.health.waits.take 16383, nextWait := w.seq + 1, waitSecond := sec,
                                        waitInSecond := n + 1 } }.bumpN 2309, w.seq)

/-- The watchdog of a request fires (R464 to R466). -/
def State.watchdog (s : State) (slot : Nat) (q : Request) (start : Nat) : State :=
  let g := s.waitGraph slot q
  let s := (s.modReq slot (fun q => { q with watchFired := true })).bumpN 2308
  let s := { s with draws := s.draws + 1024 }
  let (s, seq) := s.waitRecord slot q start g
  let kinds := (List.range 8).map (fun i => (g.edges[i]?.map (fun (e : Nat × Nat × Nat × Nat) => e.1)).getD 0)
  let e := { ErrRec.of .watchdog q.ridge .none with tag := q.tag, opcode := q.opcode, handle := q.desc.handle, detail := kinds }
  let (s, own) := if q.ridge = 0 then s.logTo 0 { e with detail := kinds ++ [seq] } else s.logTo q.ridge e
  let s := if q.ridge = 0 then s else (s.logTo 0 { e with detail := kinds ++ [seq] }).1
  let s := s.modReq slot (fun q => { q with errRef := if q.errRef = 0 then own else q.errRef })
  s.raiseCause 0 causeWatchdog

/-- WATCHDOG_FIRE: a request that has not completed within its ridge's period, time under a held cut left out (R464). -/
def execWatchdogFire (t : Nat) (slot : Nat) (s : State) : Host.Outcome State Fault Refusal :=
  let s := s.advance t
  match s.reqs.get? slot with
  | none => .next s
  | some q =>
    let ms := (s.ridge q.ridge).watchdogMs
    let start := q.startedAt.getD q.admittedAt
    if s.frozen || q.watchFired || q.phase = .posted || q.phase = .waiting || ms = 0 || s.now < start + q.heldNs + ms * 1000000 then .next s
    else .next (s.watchdog slot q start)

-- Global stop (R467 to R472).

/-- STOP_AT (R467): HOLD_MAX is 10 s when the message leaves it out; a later one replaces an armed T. -/
def execStopAt (t : Nat) (h : MbxHdr) (instant : Nat) (holdMaxS : Option Nat) (s : State) : Host.Outcome State Fault Refusal :=
  s.mbox t (.stopAt t h instant holdMaxS) h 0x0068 .ridge0 (fun s =>
    let hold := holdMaxS.getD 10
    if hold < 1 || 60 < hold || instant < s.now + 1000000 || ctrMax < instant then .no s .invalidArg
    else if s.time.st = .unset || s.time.st = .acquiring || 2 ≤ s.power.state || s.power.transit ≠ .none then .no s .stateConflict
    else if s.boot.activation.isSome || s.trace.held then .no s .busy
    else .ok { s with trace := { s.trace with armed := some (instant, hold) } } [])

/-- STOP_AT with CANCEL: disarms (R467). -/
def execStopAtCancel (t : Nat) (h : MbxHdr) (s : State) : Host.Outcome State Fault Refusal :=
  s.mbox t (.stopAtCancel t h) h 0x0068 .ridge0 (fun s => .ok { s with trace := { s.trace with armed := none } } [])

/-- STOP_CUT: the cut tick of an armed T (R468). Counters and engines stop; the snapshot is still to be written. -/
def execStopCut (t : Nat) (s : State) : Host.Outcome State Fault Refusal :=
  let s := s.advance t
  match s.trace.armed with
  | none => .next s
  | some (at_, hold) =>
    if s.now < at_ || s.asleep || s.dead then .next s
    else
      let s := s.chargeAll false
      .next ({ s with trace := { s.trace with armed := none, held := true, written := false, holdMaxS := hold, cutAt := at_ } }.bumpN 2306)

/-- CUT_WRITTEN: the snapshot is in its area: STOPPED, INT_CAUSE STOP and a STOP record (R469). -/
def execCutWritten (t : Nat) (s : State) : Host.Outcome State Fault Refusal :=
  let s := s.advance t
  if !s.trace.held || s.trace.written || s.dead then .next s
  else
    let s := { s with trace := { s.trace with written := true } }
    .next ((s.raiseCause 0 causeStop).film 0x0F .none 31 [0, s.trace.cutAt])

/-- Every source emits GAP, in ascending SRC_ID within its kind: the cirques, then the I/O ring (R460). -/
def State.gaps (s : State) (stopped : Nat) : State :=
  ((List.range 16).foldl (fun s c => s.film 0x0D (.cirque c) 31 [stopped]) s).film 0x0D .ioRing 31 [stopped]

/-- A cut is released (R470): engines go on from where they stopped, their gated time is counted, held MSI-X messages and doorbells
take effect, deferred injections fire, requests past their deadline end as R145 says, and those whose exposure has opened start. -/
def State.release (s : State) : State :=
  let from_ := s.trace.cutAt
  let msgs := s.trace.heldMsix
  let writes := s.trace.heldWrites
  let s := { s with trace := { s.trace with held := false, relAt := s.now, heldWrites := [], heldMsix := [] }
                    reqs := s.reqs.mapVals (fun _ q => { q with heldNs := q.heldNs + (s.now - from_) }) }
  let s := ((s.chargeAll true).gaps from_).film 0x0F .none 31 [1, from_]
  let s := msgs.foldl (fun s m => s.emit (.msix (fnOfKey m.1) m.2)) s
  let s := writes.foldl (fun s w => s.barWrite w.1 w.2.1 w.2.2.1 w.2.2.2) s
  let s := (s.reqs.map (·.1)).foldl State.deadlineDue s.fireDue
  s.pumpAll.startDue

/-- STOP_AT with RELEASE (R470). -/
def execStopAtRelease (t : Nat) (h : MbxHdr) (s : State) : Host.Outcome State Fault Refusal :=
  s.mbox t (.stopAtRelease t h) h 0x0068 .ridge0 (fun s => if s.trace.held then .ok s.release [] else .no s .stateConflict)

/-- HOLD_MAX_EXPIRY (R470). -/
def execHoldMaxExpiry (t : Nat) (s : State) : Host.Outcome State Fault Refusal :=
  let s := s.advance t
  if s.trace.held && decide (s.trace.cutAt + s.trace.holdMaxS * 1000000000 ≤ s.now) && !s.dead then .next s.release else .next s

end Sys2Proof.Machine
end

