-- ==== Sys2Proof/Machine/Reset.lean ====
section
/-! DEFINITION. Resets, bring-up, the test strip, and the board: supplies, reference clocks, sensors, throttle (R167, R358, R487 to R508).
Log entries 7, 9, 58, 59, 60, 61. -/

namespace Sys2Proof.Machine

open Sys2Proof

-- Booting (R356 to R361).

/-- An image that the boot ROM accepts; none with a blob whose signatures fail (R358). -/
def BootSt.accepts (b : BootSt) (c : ColdInputs) (i : Option FwImage) : Option FwImage :=
  match i with
  | some x => if c.blobOk && x.passes b.owner b.bootFloor then some x else none
  | none => none

/-- A blob's limit applies where it is the lower one (R506). -/
def ThermLimits.within (x : ThermLimits) : ThermLimits :=
  { die := min x.die 95, power := min x.power 3200, dieTrip := min x.dieTrip 110, stackTrip := min x.stackTrip 105 }

/-- The boot ROM tries the active slot, then the other; none, the recovery strap or a PUF that fails mean recovery mode (R356, R358,
R359, R505). A pending activation is lost, and no image is staged any more. -/
def BootSt.boot (b : BootSt) (c : ColdInputs) : BootSt :=
  let a := b.accepts c (if b.activeB then c.imageB else c.imageA)
  let o := b.accepts c (if b.activeB then c.imageA else c.imageB)
  let got := a.orElse (fun _ => o)
  let b := { b with staged := none, activation := none, blobOk := c.blobOk, scratchAllow := c.blobOk && c.scratchAllow,
                    injectAllow := c.blobOk && c.injectAllow,
                    cfgMeas := Config.sha384 (leBytes 1 b.straps.toNat ++ c.blobBytes)
                    limits := if c.blobOk then c.limits.elim ThermLimits.package ThermLimits.within else ThermLimits.package }
  match got with
  | none => { b with recovery := true }
  | some x =>
    { b with recovery := strapRecovery b.straps || !b.identity, svn := x.svn, meas := Config.sha384 x.bytes,
             activeB := if a.isSome then b.activeB else !b.activeB }

/-- Breakouts after cold reset, with the MAC addresses of the blob (R296). -/
def brksOf (macs : List Nat) : FMap Breakout := FMap.tabulate 8 (fun x => Breakout.reset (macs[x]?.getD 0))

/-- Cold reset and bring-up (R488, R489): everything is what it is after reset, but for what flash and the straps give and the keys
that are drawn; the supply whose excursion caused it is recorded (R503). -/
def State.cold (s : State) (c : ColdInputs) (supply : Option Nat) : State :=
  let b := { State.reset.boot with
    straps := c.straps, identity := c.pufOk, owner := s.boot.ownerNext.orElse (fun _ => s.boot.owner), ownerNext := none,
    floor := s.boot.floor, floorBad := !c.floorOk, activeB := s.boot.activeB, bootNonce := s.draws, nodeKey := s.draws + 1 }
  { State.reset with
    pending := s.pending, out := s.out, draws := s.draws + 2, boot := b.boot c, brks := brksOf c.macs
    strip := { State.reset.strip with logic := flagBit c.ioBistFail 16 }
    sns := { State.reset.sns with brownout := supply.isSome, supply := supply.getD 0 } }

/-- COLD_RESET (R487, R502). -/
def execColdReset (t : Nat) (c : ColdInputs) (s : State) : Host.Outcome State Fault Refusal := .next ((s.advance t).cold c none)

/-- SUPPLY_EXCURSION: of more than 20 µs, a cold reset, its supply recorded unless VDD_AON or VDD_IO (10) took the record with it; a
shorter one is tolerated and recorded nowhere (R503). -/
def execSupplyExcursion (t : Nat) (code us : Nat) (c : ColdInputs) (s : State) : Host.Outcome State Fault Refusal :=
  let s := s.advance t
  if us ≤ 20 then .next s
  else .next (s.cold c (if c.aonLost || code < 1 || 9 < code then none else some code))

-- PERST# (R488).

/-- The host rings of every function are Stopped, and configuration space is reset: no VF is enabled. -/
def State.perst (s : State) : State :=
  let s := (s.stopRings (fun _ => true)).bumpN 2346
  { s with numVfs := 0, vfEnable := false, power := { s.power with lastReset := 1 } }

/-- PERST_RESET: in A2, A3 or a transition it wakes the node, and acts once A0 is reached (R486). -/
def execPerstReset (t : Nat) (s : State) : Host.Outcome State Fault Refusal :=
  let s := s.advance t
  if s.asleep && !s.dead then
    let msgs := s.power.msgs ++ [(Fn.bmc, Instr.perstReset t)]
    .next ({ s with power := { s.power with msgs := msgs } }.wakeUp 2 0 0)
  else .next s.perst

-- Warm reset (R488).

/-- A tenant ridge is closed as by RIDGE_CLOSE with FORCE, its key zeroized. -/
def State.warmClose (s : State) (r : Nat) : State :=
  let g := s.ridge r
  if r = 0 || g.state = .absent then s
  else
    let s := ((s.startClose r true none).abandonAll r).closeConns r
    let s := ((s.dropEntries g).disableVf r).stopCirques g
    s.modRidge r (fun g => { g with key := none })

/-- A stop is disarmed and its cut discarded (R472); a held one ends, and its pending interrupts go out. -/
def State.dropCut (s : State) : State :=
  let msgs := s.trace.heldMsix
  let held := s.trace.held
  let s := { s with trace := { s.trace with armed := none, held := false, written := false, cutAt := 0, heldWrites := [], heldMsix := [] } }
  let s := if held then s.chargeAll true else s
  msgs.foldl (fun s m => s.emit (.msix (fnOfKey m.1) m.2)) s

/-- What a warm reset does at once: ridges close, connections and host rings go, Loupe and the description are cleared, links
retrain, a strip run ends, and the servo starts anew (R302, R488). -/
def State.warmReset (s : State) : State :=
  let s := s.dropCut
  let s := (List.range 17).foldl State.warmClose s
  let loupe := { s.loupe with banks := s.loupe.banks.mapVals (fun _ q => { q with entries := [], shadow := [] }),
                              cmap := [], peers := [], copies := [] }
  { s with
    conns := [], rings := [], loupe := loupe, frames := [], hands := [], classCfg := []
    fab := State.reset.fab
    time := { s.time with lockCnt := 0, faultCnt := 0, heard := [], master := none, delay := 0, left := 0 }
    ports := State.reset.ports
    brks := s.brks.mapVals (fun _ b => Breakout.reset b.mac)
    boot := { s.boot with activation := none }
    strip := if s.strip.state = 1 then { s.strip with state := 0, waiter := none, run := none } else s.strip
    funcs := s.funcs.mapVals (fun _ f => { f with busy := none, series := none, report := none })
    power := { s.power with warmAt := some s.now } }

/-- RESET_WARM: answered as it is accepted; until it completes every mailbox answers BUSY (R488). -/
def execResetWarm (t : Nat) (h : MbxHdr) (s : State) : Host.Outcome State Fault Refusal :=
  s.mbox t (.resetWarm t h) h 0x0059 .ridge0 (fun s => .ok (s.warmReset.bumpN 2347) [])

/-- A ridge whose zeroing a warm reset ends is Absent (R347, R407). -/
def State.warmAbsent (s : State) (r : Nat) : State :=
  let g := s.ridge r
  if r = 0 || g.state = .absent then s
  else
    let s := ((s.wipe r g).freeBanks g).clearCtrs (fun c => g.views r c)
    (s.modRidge r (fun g => g.again .closing RidgeParams.none)).setRState r .absent

/-- WARM_RESET_COMPLETE: the closings are done, firmware is rebooted from flash, links train with the blob's addresses, and every
mailbox starts without a session (R376, R488). -/
def execWarmResetComplete (t : Nat) (c : ColdInputs) (s : State) : Host.Outcome State Fault Refusal :=
  let s := s.advance t
  if s.power.warmAt.isNone || s.dead then .next s
  else
    let s := (List.range 17).foldl State.warmAbsent s
    .next { s with
      boot := s.boot.boot c
      brks := s.brks.mapVals (fun x b => { b with mac := c.macs[x]?.getD b.mac })
      funcs := s.funcs.mapVals (fun _ f => { f with session := none, busy := none, done := false, overrun := false, resp := none })
      power := { s.power with warmAt := none, lastReset := 2 } }

-- Ridge reset (R488).

/-- A connection goes back to Declared with new initial sequences; one that was being closed is closed (R488). -/
def State.redeclare (s : State) (n : Nat) : State :=
  match s.conns.get? n with
  | none => s
  | some c =>
    if c.closingAt.isSome then (s.closeConn n).answerBusy c.closer .ok 0 []
    else
      let ((psn, msn, k), s) := s.drawSeqs
      let new : Conn := { Conn.declared c.ridge c.p c.crossRack c.peer c.own psn msn k with onDie := c.onDie, lru := c.lru }
      let s := { s with conns := s.conns.set n new }
      if c.p.initiate then s.sendConnect n else s

/-- The banks of a ridge are invalidated, and firmware rewrites the CLS and REG entries of what survives; RFL entries are gone
(R337). -/
def State.rebuildBanks (s : State) (g : Ridge) : State :=
  let keep (e : LEntry) : Bool := e.table == .cls4 || e.table == .cls6 || e.table == .reg
  let mine (b : Nat) : Bool := g.p.banks.any (fun x => x.1 == b)
  let s := g.p.banks.foldl (fun s b => s.modBankL b.1 (fun q => { q with entries := q.entries.keep (fun _ e => keep e),
                                                                         shadow := q.shadow.keep (fun _ e => keep e) })) s
  { s with loupe := { s.loupe with copies := s.loupe.copies.filter (fun e => !mine e.1) } }

/-- The sequences and pages of a ridge are freed, and not zeroed (R72); its page-sketch positions with them. -/
def State.freePages (s : State) (r : Nat) (g : Ridge) : State :=
  let mine (c : Nat) : Bool := g.p.cirques.contains c
  let gens := (s.seqs.filter (fun e => e.2.ridge == r)).foldl (fun m e => m.set e.1 (nextGen e.2.gen)) s.gens
  let s := { s with gens := gens
                    seqs := s.seqs.keep (fun _ q => q.ridge != r)
                    pages := s.pages.keep (fun k _ => !mine (slotCirque k))
                    frames := s.frames.keep (fun k _ => !mine (k / 960)) }
  s.modRidge r (fun g => { g with pskr := g.pskr.map (fun p => { p with rows := [] }) })

/-- The INT block and the mailbox of a VF take their ridge reset values (R372, R403). -/
def Func.ridgeReset (f : Func) : Func :=
  { f with cause := BitVec.ofNat 32 (f.cause.toNat / 256 * 256), firstRing := none, busy := none, done := false, overrun := false,
           resp := none, series := none }

/-- What a ridge reset reaches (R488). -/
def State.resetRidge (s : State) (r : Nat) : State :=
  let g := s.ridge r
  let s := (s.abandonAll r).stopCirques g
  let s := (s.regions.filter (fun e => e.2.ridge == r)).foldl (fun s e => s.setHeld r e.2.handle false) s
  let s := s.freePages r g
  let s := (s.conns.filter (fun e => e.2.ridge == r)).foldl (fun s e => s.redeclare e.1) s
  let s := { s with rings := s.rings.mapVals (fun k q => if k / 8192 = r then Ring.fresh q.creator q.params else q)
                    ingress := s.ingress.erase r }
  let s := ((s.rebuildBanks g).clearTiming r).modFunc r Func.ridgeReset
  s.modRidge r (fun g => { g with ridgeEpoch := g.ridgeEpoch + 1 })

/-- RIDGE_RESET: of a ridge in Open or Draining (R487); answered when it is done. -/
def execRidgeReset (t : Nat) (h : MbxHdr) (s : State) : Host.Outcome State Fault Refusal :=
  s.mbox t (.ridgeReset t h) h 0x005A .ridge0 (fun s => withRidge h s (fun r =>
    if !s.ridgeUp r then .no s .stateConflict
    else
      match (s.ridge r).resetAt with
      | some at_ => .ans s .busy (s.retryTo (at_ + 20000000)) []
      | none => .wait (((s.resetRidge r).modRidge r (fun g => { g with resetAt := some s.now, waiter := some h.fn })).bumpN 2348)))

/-- RIDGE_RESET_COMPLETE (R364). -/
def execRidgeResetComplete (t : Nat) (ridge : Nat) (s : State) : Host.Outcome State Fault Refusal :=
  let s := s.advance t
  let g := s.ridge ridge
  if s.frozen || g.resetAt.isNone then .next s
  else .next ((s.modRidge ridge (fun g => { g with resetAt := none, waiter := none })).answerBusy g.waiter .ok 0 [])

-- Cirque reset (R488).

/-- A command has an item, a fill, a segment or a partial in a cirque. -/
def State.touches (s : State) (c slot : Nat) (q : Request) : Bool :=
  let x := s.cirque c
  let mine (i : Item) : Bool := i.req == slot
  x.ready.any mine || x.reorder.any (fun e => e.1 == slot) ||
  x.cells.any (fun e => e.2.item.any mine || e.2.mark.any mine || e.2.held.any (fun h => mine h.1) || e.2.spills.any (fun p => mine p.item)) ||
  s.banks.any (fun e => e.1 / 256 == c && (e.2.queue.any (fun g => g.req == slot) || e.2.running.any (fun g => g.req == slot))) ||
  q.parts.any (fun p => s.cirqueAt q.ridge p.2.1 == c) || q.contribs.any (fun e => s.cirqueAt q.ridge (s.pageHome q e.1) == c) ||
  (q.opcode == 0x10 && q.list.any (fun e => e.1 == c)) ||
  (q.opcode == 0x31 && (s.scratchOf q.ridge q.region).any (fun e => e.1 == c))

/-- The pages of a cirque that await seal, in the order of the page maps. -/
def State.requeue (s : State) (c : Nat) : List Nat :=
  s.seqs.flatMap (fun e => e.2.layers.flatMap (fun l => l.2.pages.filterMap (fun g =>
    match s.pages.get? g.2 with
    | some p => if slotCirque g.2 = c ∧ p.want.isSome then some g.2 else none
    | none => none)))

/-- What a cirque reset reaches: the commands in it fail, its engines, frames and Cairn mode are cleared, and its seals are queued
anew (R488). -/
def State.resetCirque (s : State) (c : Nat) : State :=
  let lost := s.reqs.filter (fun e => e.2.phase != .posted && s.touches c e.1 e.2)
  let s := lost.foldl (fun s e => (((s.releaseHolder e.1).abandon e.1).finishFailed e.1 .hwFault).finishLeaves e.2.ridge e.2.region) s
  let s := (s.chargeCirque c).exitCairn c
  let s := s.modCirque c (fun q => { q.emptied s.now with sealQ := (s.requeue c).eraseDups })
  let s := { s with frames := s.frames.keep (fun k _ => k / 960 != c), hands := s.hands.keep (fun k _ => k / 60 != c) }
  (s.regions.filter (fun e => (s.scratchOf e.2.ridge e.2.handle).any (fun x => x.1 == c))).foldl
    (fun s e => s.setHeld e.2.ridge e.2.handle false) s

/-- CIRQUE_RESET: BUSY while the cirque is being zeroed (R487). -/
def execCirqueReset (t : Nat) (h : MbxHdr) (cirque : Nat) (s : State) : Host.Outcome State Fault Refusal :=
  s.mbox t (.cirqueReset t h cirque) h 0x005B .ridge0 (fun s =>
    if 16 ≤ cirque then .no s .invalidArg
    else if s.zeroing cirque then .no s .busy
    else .ok ((s.resetCirque cirque).bumpN 2349) [])

-- Test strip (R490 to R494).

/-- Every target a run names meets its test's precondition (R490). -/
def State.stripReady (s : State) (r : StripRun) : Bool :=
  ((!r.logic && !r.memory && !r.analog) || r.cirques.all s.unassigned) &&
  (!r.memory || r.banks.all (fun b => (s.lBank b).owner == 31 && !s.privBank b)) &&
  (!r.analog || r.breakouts.all (fun x => !s.conns.any (fun e => e.2.p.breakout == x)))

/-- STRIP_RUN: what the conditions measure, beyond whether they hold, is open (R491). -/
def execStripRun (t : Nat) (h : MbxHdr) (run : StripRun) (s : State) : Host.Outcome State Fault Refusal :=
  s.mbox t (.stripRun t h run) h 0x005C .ridge0 (fun s =>
    if !run.cirques.all (fun c => decide (c < 16)) || !run.banks.all (fun b => decide (b < 16)) ||
        !run.breakouts.all (fun x => decide (x < 8)) then .no s .invalidArg
    else if s.strip.state = 1 then .no s .busy
    else if !s.stripReady run then .no s .stateConflict
    else if !run.clocksOk || !run.suppliesOk then
      let (n, s) := s.drawNat
      let s := { s with strip := { s.strip with state := 3 } }
      .ans ((s.bumpN 2350).bumpN 2351) .conditions 0 [flagBit run.clocksOk 0, flagBit run.suppliesOk 0, n]
    else
      let x := { s.strip with state := 1, pass := false, logic := s.strip.logic / 65536 % 2 * 65536, mem := 0, analog := 0, doneAt := 0,
                              waiter := some h.fn, run := some run }
      .wait ({ s with strip := x }.bumpN 2350))

/-- The mask of a list of numbers. -/
def maskOf (l : List Nat) : Nat := l.foldl (fun n c => n ||| 2 ^ c) 0

/-- STRIP_COMPLETE: the results stand in the STRIP block and the reply; the node does nothing else about them (R492). -/
def execStripComplete (t : Nat) (r : StripResult) (s : State) : Host.Outcome State Fault Refusal :=
  let s := s.advance t
  match s.strip.run with
  | none => .next s
  | some run =>
    if s.frozen || s.strip.state ≠ 1 then .next s
    else
      let cirqs := maskOf run.cirques
      let lanes := maskOf (run.breakouts.flatMap s.lanesOf)
      let logic := if run.logic then r.logic &&& cirqs else 0
      let mem := if run.memory then r.mem &&& (cirqs + maskOf run.banks * 65536) else 0
      let analog := if run.analog then r.analog &&& (lanes + lanes * 65536 + cirqs * 2 ^ 32 + 7 * 2 ^ 48) else 0
      let pass := logic = 0 && mem = 0 && analog = 0
      let x := { s.strip with state := 2, pass := pass, logic := s.strip.logic / 65536 * 65536 + logic, mem := mem, analog := analog,
                              doneAt := s.now, waiter := none, run := none }
      .next ({ s with strip := x }.answerBusy s.strip.waiter .ok 0 [flagBit pass 0, x.logic, mem, analog])

-- Reference clocks (R504).

/-- CLOCK_LOSS. -/
def execClockLoss (t : Nat) (clk : Clock) (s : State) : Host.Outcome State Fault Refusal :=
  let s := s.advance t
  if s.sns.lost.contains clk then .next s
  else
    let s := if clk = .sys && !s.frozen then s.chargeAll false else s
    let s := { s with sns := { s.sns with lost := s.sns.lost ++ [clk] } }
    match clk with
    | .eth p => .next ((List.range 4).foldl (fun s b => s.linkLost (4 * p + b) false) s)
    | .trace => .next { s with trace := { s.trace with portUp := false } }
    | .aon => .next (s.report (ErrRec.of .time 31 .aon))
    | .sys => .next s
    | .pcie => .next s

/-- CLOCK_RETURN: for SYS_REFCLK a cold reset; the trace port's lanes align again (R463, R504). -/
def execClockReturn (t : Nat) (clk : Clock) (c : ColdInputs) (s : State) : Host.Outcome State Fault Refusal :=
  let s := s.advance t
  if !s.sns.lost.contains clk then .next s
  else
    let s := { s with sns := { s.sns with lost := s.sns.lost.filter (fun x => x != clk) } }
    match clk with
    | .sys => .next (s.cold c none)
    | .trace =>
      let up := s.trace.mode != .off && !s.asleep
      .next { s with trace := { s.trace with portUp := up } }.drainBuf
    | .eth _ => .next s
    | .pcie => .next s
    | .aon => .next s

-- Heat, power and voltage (R167, R501, R506 to R508).

/-- THERMTRIP: at its limit, in a die or a stack, every clock but AON_CLK stops until a cold reset (R506, R507). -/
def execThermtrip (t : Nat) (celsius : Nat) (stack : Bool) (s : State) : Host.Outcome State Fault Refusal :=
  let s := s.advance t
  if celsius < (if stack then s.boot.limits.stackTrip else s.boot.limits.dieTrip) || s.sns.tripped then .next s
  else
    let s := if s.frozen then s else s.chargeAll false
    .next ({ s with sns := { s.sns with tripped := true } }.emit .thermtripN)

/-- A limit of R506 is met or passed: of a die's temperature, or of the package power. -/
def State.hot (s : State) : Bool := decide (s.boot.limits.die ≤ s.sns.dieMax) || decide (s.boot.limits.power < s.sns.power)

/-- THROTTLE_STEP: issue on every cell to k of 16 cycles (R167). While a limit is passed, or the voltage for it is not there, no step
raises it (R501, R506). -/
def execThrottleStep (t : Nat) (k : Nat) (s : State) : Host.Outcome State Fault Refusal :=
  let s := s.advance t
  if k < 4 || 16 < k || s.asleep || s.dead || k = s.sns.issueK || (s.sns.issueK < k && (s.hot || !s.sns.avsOk)) then .next s
  else
    let s := if s.frozen then s else s.chargeAll false
    let s := { s with sns := { s.sns with issueK := k, lowK := min s.sns.lowK k } }
    .next (s.film 0x0B .none 31 [k])

/-- An AVSBus write, tried at most four times: its target lies on the 5 mV steps from 650 to 850 mV and is firmware's own (log entry 7);
without an acknowledgement the last target stays (R501). -/
def State.avsWrite (s : State) (acks : List Bool) : State :=
  let tries := acks.take 4
  if tries.isEmpty then s
  else
    let fails := (tries.takeWhile (fun a => !a)).length
    let ok := tries.contains true
    let (n, s) := s.drawNat
    let mv := if ok then 650 + 5 * (n % 41) else s.sns.targetMv
    let s := { s with sns := { s.sns with failCnt := min 255 (s.sns.failCnt + fails), avsOk := ok, targetMv := mv } }
    if ok then s.emit (.avs (strapRail s.boot.straps) mv) else s

/-- SENSOR_UPDATE: the SNS block, the stacks' mode register 74, and the AVSBus write it causes (R174, R501, R506, R508). -/
def execSensorUpdate (t : Nat) (r : Sensors) (s : State) : Host.Outcome State Fault Refusal :=
  let s := s.advance t
  if s.asleep || s.dead then .next s
  else
    let s := (r.stackTemps.zipIdx.filter (fun e => decide (e.2 < 32))).foldl (fun s e => s.modStack e.2 (fun x => { x with temp := min 127 e.1 })) s
    let s := { s with sns := { s.sns with dieMax := min 255 r.dieMax, stackMax := min 255 (r.stackTemps.foldl max 0),
                                          substrate := min 255 r.substrate, power := min 65535 r.power, measMv := min 4095 r.measMv } }
    .next (s.avsWrite r.avsAcks)

end Sys2Proof.Machine
end

