-- ==== Sys2Proof/Machine/Power.lean ====
section
/-! DEFINITION. Power states: entry, wake, exit, and what was queued in between (R475 to R486).
Log entries 57. -/

namespace Sys2Proof.Machine

open Sys2Proof

-- A0 and A1 (R476).

/-- A cirque has no ready item and no cell at work. -/
def Cirque.idle? (q : Cirque) : Bool := q.ready.isEmpty && !q.cells.any (fun e => e.2.works)

/-- The cells of every cirque with no item are gated, or every cell runs. -/
def State.gateIdle (s : State) (on : Bool) : State :=
  let s := s.chargeAll false
  { s with cirques := s.cirques.mapVals (fun _ q => { q with gated := on && q.idle?, idleSince := s.now }) }

/-- CELL_REGATE: in A1, after 50 µs with no ready or running item (R476). -/
def execCellRegate (t : Nat) (cirque : Nat) (s : State) : Host.Outcome State Fault Refusal :=
  let s := s.advance t
  let q := s.cirque cirque
  if s.frozen || s.power.state ≠ 1 || q.gated || !q.idle? || s.now < q.idleSince + 50000 then .next s
  else .next ((s.chargeCirque cirque).modCirque cirque (fun q => { q with gated := true }))

-- Entry (R478, R479).

/-- A ring has an unconsumed span or an admitted command, or a connection has, or a ridge holds a Cairn region (R392). -/
def State.working (s : State) : Bool :=
  s.rings.any (fun e => decide (e.2.sqTail ≠ e.2.sqHead) || !e.2.fetched.isEmpty || decide (0 < e.2.outstanding)) ||
  !s.reqs.isEmpty || s.conns.any (fun e => !e.2.cmdQ.isEmpty || decide (0 < e.2.cmdAdmitted)) ||
  s.regions.any (fun e => match e.2.kind with
    | .scratch _ _ held => held
    | .composite _ _ _ _ => false
    | .lease => false
    | .completion _ => false
    | .query => false)

/-- PWR_ENTER: the checks of R478 in their order; A0 and A1 are reached at once, and an entry to A2 or A3 begins, its answer to come
at the commit point. -/
def execPwrEnter (t : Nat) (h : MbxHdr) (target : Nat) (s : State) : Host.Outcome State Fault Refusal :=
  s.mbox t (.pwrEnter t h target) h 0x0058 .ridge0 (fun s =>
    if 3 < target || target = s.power.state || (target = 0 && s.power.state ≠ 1) then .no s .invalidArg
    else if s.boot.activation.isSome || s.strip.state = 1 then .no s .busy
    else if s.trace.armed.isSome || s.trace.held then .no s .stateConflict
    else if s.working then .no s .stateConflict
    else if 2 ≤ target && s.ridges.any (fun e => e.2.state == .opening || e.2.state == .closing) then .no s .stateConflict
    else if target = 0 then .ok { s.gateIdle false with power := { s.power with state := 0 } } []
    else if target = 1 then .ok ({ s.gateIdle true with power := { s.power with state := 1 } }.bumpN 2336) []
    else .wait { s with power := { s.power with transit := .entering, target := target, waiter := some h.fn, wake := none } })

/-- The exit begins: at the wake, or at the end of an entry that latched one (R483, R484). -/
def State.startExit (s : State) (replayed : Bool) : State :=
  { s with power := { s.power with transit := .exiting, target := 0, fromState := s.power.state, replayed := replayed,
                                   exitAt := s.now + exitNs s.power.state } }

/-- Steps 4 to 10 of R479: Cairn mode is left, contexts are written back, and for A3 frames go and links are down. -/
def State.powerDown (s : State) (target : Nat) : State :=
  let s := (List.range 16).foldl State.exitCairn (s.chargeAll false)
  let s := { s with conns := s.conns.mapVals (fun _ c => { c with onDie := false }), trace := { s.trace with portUp := false } }
  if target = 3 then
    { s with frames := [], hands := [], brks := s.brks.mapVals (fun _ b => { b with link := false, queue := [], sending := none }) }
  else s

/-- PWR_ENTRY_COMPLETE: once the seal queues are drained the response is written, and the node is in its target state; a latched wake
starts the exit at once (R479, R483). -/
def execPwrEntryComplete (t : Nat) (s : State) : Host.Outcome State Fault Refusal :=
  let s := s.advance t
  if s.power.transit ≠ .entering || s.dead || s.cirques.any (fun e => !e.2.sealQ.isEmpty) then .next s
  else
    let x := s.power.target
    let s := (s.powerDown x).answerBusy s.power.waiter .ok 0 []
    let s := { s with power := { s.power with state := x, transit := .none, target := 0, waiter := none, since := s.now } }.bumpN (2335 + x)
    .next (if s.power.wake.isSome then (s.startExit true).bumpN 2340 else s)

-- Wake (R480 to R483).

/-- A source ends the state the node is in or enters (R480). -/
def State.wakes (s : State) (source : Nat) : Bool :=
  let x := if s.power.transit = .entering then s.power.target else s.power.state
  source = 1 || source = 2 || source = 3 || source = 6 || (source = 4 && x = 2) || (source = 5 && x = 3)

/-- WAKE_EVENT: a BAR write that wakes is queued with it; in A0 and A1 it is an ordinary write (R480, R482). -/
def execWakeEvent (t : Nat) (source breakout : Nat) (fn : Fn) (post : Option (Nat × Nat × Nat)) (s : State) :
    Host.Outcome State Fault Refusal :=
  match post with
  | some (off, size, v) => s.arrive t fn off size v (fun s => s.barWrite fn off size v)
  | none =>
    let s := s.advance t
    if s.dead || !s.asleep || !s.wakes source then .next s
    else .next (s.wakeUp source (if source = 4 ∨ source = 5 then breakout else 0) (if source = 1 then fn.key else 0))

/-- A frame is the wake frame of a breakout (R481). -/
def State.isWake (s : State) (f : WakeFrame) : Bool :=
  s.brkExists f.breakout && (s.brk f.breakout).link && f.dstMac == (s.brk f.breakout).mac && decide (64 ≤ f.len) &&
  (match s.fab.cur with
    | none => false
    | some d =>
      f.payload.take 8 == [0xC4#8, 0x1A#8, 0x6E#8, 0x0B#8, 0x12#8, 0x00#8] ++ leBytes 2 d.node && (f.payload.drop 8).all (fun b => b == 0#8))

/-- WAKE_FRAME: wakes the node from A2; in A0 and A1 it is discarded and counted (R481). -/
def execWakeFrame (t : Nat) (f : WakeFrame) (s : State) : Host.Outcome State Fault Refusal :=
  let s := s.advance t
  if s.dead || !s.isWake f then .next s
  else if s.trace.held then .next (s.bumpN 2307)
  else if !s.asleep then .next (s.bumpN 2343)
  else if s.wakes 4 then .next (s.wakeUp 4 f.breakout 0)
  else .next s

-- Exit (R484, R485).

/-- The state a row's meaning goes on to; no row of the mailbox stops. -/
def goesOn (s : State) (o : Host.Outcome State Fault Refusal) : State :=
  match o with
  | .next x => x
  | .fault _ => s
  | .refused _ => s

/-- A mailbox message, or PERST#, that waited for A0 takes its effect (R393, R484, R486). -/
def replayRow (i : Instr) (s : State) : Host.Outcome State Fault Refusal :=
  match i with
  | .hello t h versions => execHello t h versions s
  | .idGet t h => execIdGet t h s
  | .certGet t h aliasCert offset => execCertGet t h aliasCert offset s
  | .attest t h nonce sel offset => execAttest t h nonce sel offset s
  | .fabricSet t h d => execFabricSet t h d s
  | .fabricGet t h => execFabricGet t h s
  | .ridgeOpen t h p => execRidgeOpen t h p s
  | .ridgeModify t h pfDepth scratchEn => execRidgeModify t h pfDepth scratchEn s
  | .ridgeDrain t h => execRidgeDrain t h s
  | .ridgeOpenAgain t h => execRidgeOpenAgain t h s
  | .ridgeClose t h force => execRidgeClose t h force s
  | .ridgeGet t h => execRidgeGet t h s
  | .ringCreate t h p => execRingCreate t h p s
  | .ringDestroy t h ring => execRingDestroy t h ring s
  | .ringReset t h ring => execRingReset t h ring s
  | .ringGet t h ring => execRingGet t h ring s
  | .connCreate t h p => execConnCreate t h p s
  | .connReset t h conn => execConnReset t h conn s
  | .connClose t h conn => execConnClose t h conn s
  | .connGet t h conn => execConnGet t h conn s
  | .mprogLoad t h slot words consts => execMprogLoad t h slot words consts s
  | .mprogClear t h slot => execMprogClear t h slot s
  | .cbufCreate t h slots slotSize cirque => execCbufCreate t h slots slotSize cirque s
  | .cbufDestroy t h region => execCbufDestroy t h region s
  | .cscrCreate t h cirque groups => execCscrCreate t h cirque groups s
  | .cscrDestroy t h region => execCscrDestroy t h region s
  | .ctrCreate t h p => execCtrCreate t h p s
  | .ctrDestroy t h index => execCtrDestroy t h index s
  | .pskrCreate t h width seed groups => execPskrCreate t h width seed groups s
  | .pskrDestroy t h => execPskrDestroy t h s
  | .loupeSetAdd t h table e => execLoupeSetAdd t h table e s
  | .loupeSetDelete t h table index => execLoupeSetDelete t h table index s
  | .loupeSetReplace t h table index e => execLoupeSetReplace t h table index e s
  | .portSet t h port mode mtu macs => execPortSet t h port mode mtu macs s
  | .ntStep t h => execNtStep t h s
  | .cbsSet t h breakout cls idle hi enable full => execCbsSet t h breakout cls idle hi enable full s
  | .gateSet t h breakout entries takeover => execGateSet t h breakout entries takeover s
  | .shtSet t h breakout slots takeover => execShtSet t h breakout slots takeover s
  | .shtGet t h breakout => execShtGet t h breakout s
  | .fwStage t h img => execFwStage t h img s
  | .fwActivate t h at_ => execFwActivate t h at_ s
  | .fwFloor t h value => execFwFloor t h value s
  | .ownerEnrol t h rec release => execOwnerEnrol t h rec release s
  | .pwrEnter t h target => execPwrEnter t h target s
  | .resetWarm t h => execResetWarm t h s
  | .ridgeReset t h => execRidgeReset t h s
  | .cirqueReset t h cirque => execCirqueReset t h cirque s
  | .stripRun t h run => execStripRun t h run s
  | .errRead t h log start => execErrRead t h log start s
  | .healthGet t h => execHealthGet t h s
  | .shadowSet t h fraction => execShadowSet t h fraction s
  | .shadowSetRelease t h cirque cell => execShadowSetRelease t h cirque cell s
  | .inject t h target count expiry => execInject t h target count expiry s
  | .injectClear t h id => execInjectClear t h id s
  | .belaySetDrain t h on => execBelaySetDrain t h on s
  | .belaySetMirror t h conn sync => execBelaySetMirror t h conn sync s
  | .belaySetStandin t h on => execBelaySetStandin t h on s
  | .belaySetLease t h p => execBelaySetLease t h p s
  | .leaseGet t h => execLeaseGet t h s
  | .meterRead t h => execMeterRead t h s
  | .epochDrain t h periodUs => execEpochDrain t h periodUs s
  | .epochDrainEndNow t h => execEpochDrainEndNow t h s
  | .stopAt t h instant holdMaxS => execStopAt t h instant holdMaxS s
  | .stopAtCancel t h => execStopAtCancel t h s
  | .stopAtRelease t h => execStopAtRelease t h s
  | .watchdogSet t h periodMs => execWatchdogSet t h periodMs s
  | .traceSetEvsel t h sels => execTraceSetEvsel t h sels s
  | .traceSetRecords t h sel => execTraceSetRecords t h sel s
  | .traceSetMode t h mode => execTraceSetMode t h mode s
  | .traceSetDump t h snapshot addr len => execTraceSetDump t h snapshot addr len s
  | .mboxUnsupportedOpcode t h opcode => execMboxUnsupportedOpcode t h opcode s
  | .perstReset t => execPerstReset t s
  | _ => .next s

/-- The last-wake record (R485). -/
def PowerSt.record (p : PowerSt) (now : Nat) : PowerSt :=
  match p.wake with
  | some (src, brk, fn, at_) => { p with lastSource := src, lastBreakout := brk, lastFn := fn, wakeAt := at_, a0At := now }
  | none => { p with a0At := now }

/-- Every source stamps its restart: after A3 a SYNC comes first (R460). -/
def State.restartRecords (s : State) (from_ : Nat) : State :=
  let s := if from_ = 3 then s.film 0x01 .none 31 [s.now / 1000000000, s.time.st.code, s.nodeNo] else s
  s.gaps s.power.since

/-- What was queued takes effect: BAR writes in their order, then mailbox messages, then what connections have to send (R393, R482,
R484). -/
def State.drainQueued (s : State) : State :=
  let writes := s.power.writes
  let msgs := s.power.msgs
  let s := { s with power := { s.power with writes := [], msgs := [] } }
  let s := writes.foldl (fun s w => s.barWrite w.1 w.2.1 w.2.2.1 w.2.2.2) s
  (msgs.foldl (fun s m => goesOn s (replayRow m.2 s)) s).pumpAll

/-- The exit ends (R484): the time asleep is counted, cells run again, the wake is recorded, and a saved image that did not match is. -/
def State.reachA0 (s : State) (bad : Bool) : State :=
  let from_ := s.power.fromState
  let s := s.bumpBy (.node (2342 + from_)) (s.now - s.power.since)
  let s := s.chargeAll true
  let s := { s with cirques := s.cirques.mapVals (fun _ q => { q with gated := false, idleSince := s.now })
                    power := { s.power.record s.now with state := 0, transit := .none, wake := none } }
  let s := if bad then s.report (ErrRec.of .fw 31 .security) else s
  let up := s.trace.mode != .off && !s.sns.lost.contains .trace
  ({ s with trace := { s.trace with portUp := up } }.restartRecords from_).drainBuf

/-- A0_REPORTED: at the end of the exit's time, 300 ms later when the saved image did not match (R484). -/
def execA0Reported (t : Nat) (imageOk : Bool) (s : State) : Host.Outcome State Fault Refusal :=
  let s := s.advance t
  let bad := s.power.fromState = 3 && !imageOk
  if s.power.transit ≠ .exiting || s.dead || s.now < s.power.exitAt + (if bad then 300000000 else 0) then .next s
  else .next (s.reachA0 bad).drainQueued


end Sys2Proof.Machine
end

