-- ==== Sys2Proof/Machine/Dispatch.lean ====
section
/-! DEFINITION. One arm for each command: its meaning, called by its full name. -/

namespace Sys2Proof.Machine

open Sys2Proof

/-- The effect of a command on everything but the queue. -/
def exec (i : Instr) (s : State) : Host.Outcome State Fault Refusal :=
  match i with
  | .hello t h versions => Sys2Proof.Machine.execHello t h versions s
  | .idGet t h => Sys2Proof.Machine.execIdGet t h s
  | .certGet t h aliasCert offset => Sys2Proof.Machine.execCertGet t h aliasCert offset s
  | .attest t h nonce sel offset => Sys2Proof.Machine.execAttest t h nonce sel offset s
  | .fabricSet t h d => Sys2Proof.Machine.execFabricSet t h d s
  | .fabricGet t h => Sys2Proof.Machine.execFabricGet t h s
  | .ridgeOpen t h p => Sys2Proof.Machine.execRidgeOpen t h p s
  | .ridgeModify t h pfDepth scratchEn => Sys2Proof.Machine.execRidgeModify t h pfDepth scratchEn s
  | .ridgeDrain t h => Sys2Proof.Machine.execRidgeDrain t h s
  | .ridgeOpenAgain t h => Sys2Proof.Machine.execRidgeOpenAgain t h s
  | .ridgeClose t h force => Sys2Proof.Machine.execRidgeClose t h force s
  | .ridgeGet t h => Sys2Proof.Machine.execRidgeGet t h s
  | .ringCreate t h p => Sys2Proof.Machine.execRingCreate t h p s
  | .ringDestroy t h ring => Sys2Proof.Machine.execRingDestroy t h ring s
  | .ringReset t h ring => Sys2Proof.Machine.execRingReset t h ring s
  | .ringGet t h ring => Sys2Proof.Machine.execRingGet t h ring s
  | .connCreate t h p => Sys2Proof.Machine.execConnCreate t h p s
  | .connReset t h conn => Sys2Proof.Machine.execConnReset t h conn s
  | .connClose t h conn => Sys2Proof.Machine.execConnClose t h conn s
  | .connGet t h conn => Sys2Proof.Machine.execConnGet t h conn s
  | .mprogLoad t h slot words consts => Sys2Proof.Machine.execMprogLoad t h slot words consts s
  | .mprogClear t h slot => Sys2Proof.Machine.execMprogClear t h slot s
  | .cbufCreate t h slots slotSize cirque => Sys2Proof.Machine.execCbufCreate t h slots slotSize cirque s
  | .cbufDestroy t h region => Sys2Proof.Machine.execCbufDestroy t h region s
  | .cscrCreate t h cirque groups => Sys2Proof.Machine.execCscrCreate t h cirque groups s
  | .cscrDestroy t h region => Sys2Proof.Machine.execCscrDestroy t h region s
  | .ctrCreate t h p => Sys2Proof.Machine.execCtrCreate t h p s
  | .ctrDestroy t h index => Sys2Proof.Machine.execCtrDestroy t h index s
  | .pskrCreate t h width seed groups => Sys2Proof.Machine.execPskrCreate t h width seed groups s
  | .pskrDestroy t h => Sys2Proof.Machine.execPskrDestroy t h s
  | .loupeSetAdd t h table e => Sys2Proof.Machine.execLoupeSetAdd t h table e s
  | .loupeSetDelete t h table index => Sys2Proof.Machine.execLoupeSetDelete t h table index s
  | .loupeSetReplace t h table index e => Sys2Proof.Machine.execLoupeSetReplace t h table index e s
  | .portSet t h port mode mtu macs => Sys2Proof.Machine.execPortSet t h port mode mtu macs s
  | .ntStep t h => Sys2Proof.Machine.execNtStep t h s
  | .cbsSet t h breakout cls idle hi enable full => Sys2Proof.Machine.execCbsSet t h breakout cls idle hi enable full s
  | .gateSet t h breakout entries takeover => Sys2Proof.Machine.execGateSet t h breakout entries takeover s
  | .shtSet t h breakout slots takeover => Sys2Proof.Machine.execShtSet t h breakout slots takeover s
  | .shtGet t h breakout => Sys2Proof.Machine.execShtGet t h breakout s
  | .fwStage t h img => Sys2Proof.Machine.execFwStage t h img s
  | .fwActivate t h at_ => Sys2Proof.Machine.execFwActivate t h at_ s
  | .fwFloor t h value => Sys2Proof.Machine.execFwFloor t h value s
  | .ownerEnrol t h rec release => Sys2Proof.Machine.execOwnerEnrol t h rec release s
  | .pwrEnter t h target => Sys2Proof.Machine.execPwrEnter t h target s
  | .resetWarm t h => Sys2Proof.Machine.execResetWarm t h s
  | .ridgeReset t h => Sys2Proof.Machine.execRidgeReset t h s
  | .cirqueReset t h cirque => Sys2Proof.Machine.execCirqueReset t h cirque s
  | .stripRun t h run => Sys2Proof.Machine.execStripRun t h run s
  | .errRead t h log start => Sys2Proof.Machine.execErrRead t h log start s
  | .healthGet t h => Sys2Proof.Machine.execHealthGet t h s
  | .shadowSet t h fraction => Sys2Proof.Machine.execShadowSet t h fraction s
  | .shadowSetRelease t h cirque cell => Sys2Proof.Machine.execShadowSetRelease t h cirque cell s
  | .inject t h target count expiry => Sys2Proof.Machine.execInject t h target count expiry s
  | .injectClear t h id => Sys2Proof.Machine.execInjectClear t h id s
  | .belaySetDrain t h on => Sys2Proof.Machine.execBelaySetDrain t h on s
  | .belaySetMirror t h conn sync => Sys2Proof.Machine.execBelaySetMirror t h conn sync s
  | .belaySetStandin t h on => Sys2Proof.Machine.execBelaySetStandin t h on s
  | .belaySetLease t h p => Sys2Proof.Machine.execBelaySetLease t h p s
  | .leaseGet t h => Sys2Proof.Machine.execLeaseGet t h s
  | .meterRead t h => Sys2Proof.Machine.execMeterRead t h s
  | .epochDrain t h periodUs => Sys2Proof.Machine.execEpochDrain t h periodUs s
  | .epochDrainEndNow t h => Sys2Proof.Machine.execEpochDrainEndNow t h s
  | .stopAt t h instant holdMaxS => Sys2Proof.Machine.execStopAt t h instant holdMaxS s
  | .stopAtCancel t h => Sys2Proof.Machine.execStopAtCancel t h s
  | .stopAtRelease t h => Sys2Proof.Machine.execStopAtRelease t h s
  | .watchdogSet t h periodMs => Sys2Proof.Machine.execWatchdogSet t h periodMs s
  | .traceSetEvsel t h sels => Sys2Proof.Machine.execTraceSetEvsel t h sels s
  | .traceSetRecords t h sel => Sys2Proof.Machine.execTraceSetRecords t h sel s
  | .traceSetMode t h mode => Sys2Proof.Machine.execTraceSetMode t h mode s
  | .traceSetDump t h snapshot addr len => Sys2Proof.Machine.execTraceSetDump t h snapshot addr len s
  | .mboxOverrun t fn => Sys2Proof.Machine.execMboxOverrun t fn s
  | .openSeq t src d => Sys2Proof.Machine.execOpenSeq t src d s
  | .append t src d data => Sys2Proof.Machine.execAppend t src d data s
  | .sealSeq t src d => Sys2Proof.Machine.execSealSeq t src d s
  | .fork t src d => Sys2Proof.Machine.execFork t src d s
  | .free t src d => Sys2Proof.Machine.execFree t src d s
  | .ingest t src d data => Sys2Proof.Machine.execIngest t src d data s
  | .read t src d => Sys2Proof.Machine.execRead t src d s
  | .prefetch t src d => Sys2Proof.Machine.execPrefetch t src d s
  | .develop t src d inl => Sys2Proof.Machine.execDevelop t src d inl s
  | .reverse t src d inl => Sys2Proof.Machine.execReverse t src d inl s
  | .composite t src d => Sys2Proof.Machine.execComposite t src d s
  | .gradSend t src d => Sys2Proof.Machine.execGradSend t src d s
  | .gradClear t src d => Sys2Proof.Machine.execGradClear t src d s
  | .query t src d inl => Sys2Proof.Machine.execQuery t src d inl s
  | .insert t src d data => Sys2Proof.Machine.execInsert t src d data s
  | .delete t src d data => Sys2Proof.Machine.execDelete t src d data s
  | .ctrMerge t src d => Sys2Proof.Machine.execCtrMerge t src d s
  | .cairn t src d inl => Sys2Proof.Machine.execCairn t src d inl s
  | .cairnHoldEnter t src d => Sys2Proof.Machine.execCairnHoldEnter t src d s
  | .cairnHoldLeave t src d => Sys2Proof.Machine.execCairnHoldLeave t src d s
  | .ringDb t fn ridge ring tail => Sys2Proof.Machine.execRingDb t fn ridge ring tail s
  | .cqHead t fn ridge ring head => Sys2Proof.Machine.execCqHead t fn ridge ring head s
  | .intCauseClear t fn bits => Sys2Proof.Machine.execIntCauseClear t fn bits s
  | .intEnable t fn bits => Sys2Proof.Machine.execIntEnable t fn bits s
  | .flmMark t value => Sys2Proof.Machine.execFlmMark t value s
  | .lowWordRead t fn offset => Sys2Proof.Machine.execLowWordRead t fn offset s
  | .registerWrite t fn offset size value => Sys2Proof.Machine.execRegisterWrite t fn offset size value s
  | .barBadAccess t fn write offset size => Sys2Proof.Machine.execBarBadAccess t fn write offset size s
  | .write t p => Sys2Proof.Machine.execWrite t p s
  | .writeImm t p => Sys2Proof.Machine.execWriteImm t p s
  | .readReq t p => Sys2Proof.Machine.execReadReq t p s
  | .readResp t p => Sys2Proof.Machine.execReadResp t p s
  | .command t p => Sys2Proof.Machine.execCommand t p s
  | .ack t p => Sys2Proof.Machine.execAck t p s
  | .sack t p => Sys2Proof.Machine.execSack t p s
  | .nack t p => Sys2Proof.Machine.execNack t p s
  | .connect t p r => Sys2Proof.Machine.execConnect t p r s
  | .accept t p r => Sys2Proof.Machine.execAccept t p r s
  | .refuse t p r => Sys2Proof.Machine.execRefuse t p r s
  | .messageNotify t conn => Sys2Proof.Machine.execMessageNotify t conn s
  | .contextFetchDone t conn ok => Sys2Proof.Machine.execContextFetchDone t conn ok s
  | .rtoExpiry t conn => Sys2Proof.Machine.execRtoExpiry t conn s
  | .ackDelayExpiry t conn => Sys2Proof.Machine.execAckDelayExpiry t conn s
  | .connectResend t conn => Sys2Proof.Machine.execConnectResend t conn s
  | .retryAfterExpiry t conn => Sys2Proof.Machine.execRetryAfterExpiry t conn s
  | .connCloseTimeout t conn => Sys2Proof.Machine.execConnCloseTimeout t conn s
  | .oldKeyExpiry t conn => Sys2Proof.Machine.execOldKeyExpiry t conn s
  | .ptpSync t domain breakout offset logInterval => Sys2Proof.Machine.execPtpSync t domain breakout offset logInterval s
  | .ptpAnnounce t domain breakout a => Sys2Proof.Machine.execPtpAnnounce t domain breakout a s
  | .ptpDelayResp t domain breakout delay => Sys2Proof.Machine.execPtpDelayResp t domain breakout delay s
  | .syncTimeout t announce => Sys2Proof.Machine.execSyncTimeout t announce s
  | .holdoverSecond t => Sys2Proof.Machine.execHoldoverSecond t s
  | .ppsInEdge t => Sys2Proof.Machine.execPpsInEdge t s
  | .ppsLoss t => Sys2Proof.Machine.execPpsLoss t s
  | .ppsOutEdge t => Sys2Proof.Machine.execPpsOutEdge t s
  | .arpRx t breakout target request => Sys2Proof.Machine.execArpRx t breakout target request s
  | .ethFrameDrop t breakout kind => Sys2Proof.Machine.execEthFrameDrop t breakout kind s
  | .wakeFrame t f => Sys2Proof.Machine.execWakeFrame t f s
  | .egressDecision t breakout => Sys2Proof.Machine.execEgressDecision t breakout s
  | .linkDown t breakout => Sys2Proof.Machine.execLinkDown t breakout s
  | .linkUp t breakout => Sys2Proof.Machine.execLinkUp t breakout s
  | .gateTakeover t ridge breakout => Sys2Proof.Machine.execGateTakeover t ridge breakout s
  | .shutterTakeover t breakout => Sys2Proof.Machine.execShutterTakeover t breakout s
  | .fabricActivation t => Sys2Proof.Machine.execFabricActivation t s
  | .drainDeadline t => Sys2Proof.Machine.execDrainDeadline t s
  | .exposureBoundary t n => Sys2Proof.Machine.execExposureBoundary t n s
  | .deadlineInstant t slot => Sys2Proof.Machine.execDeadlineInstant t slot s
  | .queryPlaced t slot data => Sys2Proof.Machine.execQueryPlaced t slot data s
  | .thinPhaseDone t slot err => Sys2Proof.Machine.execThinPhaseDone t slot err s
  | .itemDispatch t cirque => Sys2Proof.Machine.execItemDispatch t cirque s
  | .itemComplete t cirque cell err flip => Sys2Proof.Machine.execItemComplete t cirque cell err flip s
  | .mergeAccept t cirque => Sys2Proof.Machine.execMergeAccept t cirque s
  | .spillComplete t cirque cell => Sys2Proof.Machine.execSpillComplete t cirque cell s
  | .fillComplete t cirque slot kind err => Sys2Proof.Machine.execFillComplete t cirque slot kind err s
  | .requestFinish t slot => Sys2Proof.Machine.execRequestFinish t slot s
  | .outputDelivered t slot ok => Sys2Proof.Machine.execOutputDelivered t slot ok s
  | .pageSeal t cirque err => Sys2Proof.Machine.execPageSeal t cirque err s
  | .ringReuseResume t slot => Sys2Proof.Machine.execRingReuseResume t slot s
  | .forkResume t slot => Sys2Proof.Machine.execForkResume t slot s
  | .sequenceRelease t index => Sys2Proof.Machine.execSequenceRelease t index s
  | .ringSpanFetch t ridge ring => Sys2Proof.Machine.execRingSpanFetch t ridge ring s
  | .coalTimeout t ridge ring => Sys2Proof.Machine.execCoalTimeout t ridge ring s
  | .stripeSwitch t ridge index cirque => Sys2Proof.Machine.execStripeSwitch t ridge index cirque s
  | .segmentComplete t cirque bank err => Sys2Proof.Machine.execSegmentComplete t cirque bank err s
  | .modeEntryComplete t cirque group => Sys2Proof.Machine.execModeEntryComplete t cirque group s
  | .cairnTick t stack => Sys2Proof.Machine.execCairnTick t stack s
  | .refreshDue t cirque bank => Sys2Proof.Machine.execRefreshDue t cirque bank s
  | .lingerExpiry t cirque group => Sys2Proof.Machine.execLingerExpiry t cirque group s
  | .patrolRead t stack err => Sys2Proof.Machine.execPatrolRead t stack err s
  | .scrubPass t upset shadowBad => Sys2Proof.Machine.execScrubPass t upset shadowBad s
  | .healthDecay t => Sys2Proof.Machine.execHealthDecay t s
  | .advisoryMinute t => Sys2Proof.Machine.execAdvisoryMinute t s
  | .leaseRecordSend t ridge => Sys2Proof.Machine.execLeaseRecordSend t ridge s
  | .leaseExpiry t ridge => Sys2Proof.Machine.execLeaseExpiry t ridge s
  | .orphanReclaim t ridge => Sys2Proof.Machine.execOrphanReclaim t ridge s
  | .injectExpiry t id => Sys2Proof.Machine.execInjectExpiry t id s
  | .watchdogFire t slot => Sys2Proof.Machine.execWatchdogFire t slot s
  | .filmstripSync t => Sys2Proof.Machine.execFilmstripSync t s
  | .stopCut t => Sys2Proof.Machine.execStopCut t s
  | .cutWritten t => Sys2Proof.Machine.execCutWritten t s
  | .holdMaxExpiry t => Sys2Proof.Machine.execHoldMaxExpiry t s
  | .throttleStep t k => Sys2Proof.Machine.execThrottleStep t k s
  | .sensorUpdate t r => Sys2Proof.Machine.execSensorUpdate t r s
  | .fwSwitch t selfCheckOk => Sys2Proof.Machine.execFwSwitch t selfCheckOk s
  | .ridgeOpened t ridge trngOk => Sys2Proof.Machine.execRidgeOpened t ridge trngOk s
  | .ridgeCloseComplete t ridge readBacks => Sys2Proof.Machine.execRidgeCloseComplete t ridge readBacks s
  | .ridgeZeroed t ridge => Sys2Proof.Machine.execRidgeZeroed t ridge s
  | .pwrEntryComplete t => Sys2Proof.Machine.execPwrEntryComplete t s
  | .wakeEvent t source breakout fn post => Sys2Proof.Machine.execWakeEvent t source breakout fn post s
  | .a0Reported t imageOk => Sys2Proof.Machine.execA0Reported t imageOk s
  | .cellRegate t cirque => Sys2Proof.Machine.execCellRegate t cirque s
  | .stripComplete t r => Sys2Proof.Machine.execStripComplete t r s
  | .coldReset t c => Sys2Proof.Machine.execColdReset t c s
  | .perstReset t => Sys2Proof.Machine.execPerstReset t s
  | .functionLevelReset t fn => Sys2Proof.Machine.execFunctionLevelReset t fn s
  | .supplyExcursion t code us c => Sys2Proof.Machine.execSupplyExcursion t code us c s
  | .clockLoss t clk => Sys2Proof.Machine.execClockLoss t clk s
  | .thermtrip t celsius stack => Sys2Proof.Machine.execThermtrip t celsius stack s
  | .clockReturn t clk c => Sys2Proof.Machine.execClockReturn t clk c s
  | .trngHealthFailure t => Sys2Proof.Machine.execTrngHealthFailure t s
  | .warmResetComplete t c => Sys2Proof.Machine.execWarmResetComplete t c s
  | .ridgeResetComplete t ridge => Sys2Proof.Machine.execRidgeResetComplete t ridge s
  | .attestReportHoldExpiry t fn => Sys2Proof.Machine.execAttestReportHoldExpiry t fn s
  | .submissionFetchComplete t ridge ring span => Sys2Proof.Machine.execSubmissionFetchComplete t ridge ring span s
  | .pcieReadFailed t what => Sys2Proof.Machine.execPcieReadFailed t what s
  | .mboxUnsupportedOpcode t h opcode => Sys2Proof.Machine.execMboxUnsupportedOpcode t h opcode s
  | .undefinedCommandOpcode t src d => Sys2Proof.Machine.execUndefinedCommandOpcode t src d s
  | .pcieReplay t => Sys2Proof.Machine.execPcieReplay t s
  | .sriovVfEnable t numVfs enable => Sys2Proof.Machine.execSriovVfEnable t numVfs enable s

end Sys2Proof.Machine
end

