-- ==== Sys2Proof/Safety.lean ====
section
/-! DEFINITION. What counts as a safe run, and the conditions under which a message's own part runs, in the terms the statements use. -/

namespace Sys2Proof.Machine

open Sys2Proof

/-- The state a command ends in. -/
def after (o : Host.Outcome State Fault Refusal) (s : State) : State :=
  match o with
  | .next x => x
  | .fault _ => s
  | .refused _ => s

/-- The state a message's own part leaves. -/
def MRes.st (r : MRes) : State :=
  match r with
  | .ans s _ _ _ => s
  | .wait s => s

/-- The settings of the node that ridge 0, the host's configuration space or the hardware fixes for every ridge: the commands that
wait, the virtual functions, the fabric description, issue throttling, the clocks that run, the test strip, firmware and identity,
and the ports. -/
structure Settings where
  pending : List Instr
  numVfs : Nat
  vfEnable : Bool
  fab : FabricSt
  issueK : Nat
  lowK : Nat
  tripped : Bool
  lost : List Clock
  strip : StripSt
  boot : BootSt
  ports : FMap Port
  deriving DecidableEq, Repr

/-- The settings a state holds. -/
def State.settings (s : State) : Settings :=
  { pending := s.pending, numVfs := s.numVfs, vfEnable := s.vfEnable, fab := s.fab, issueK := s.sns.issueK, lowK := s.sns.lowK,
    tripped := s.sns.tripped, lost := s.sns.lost, strip := s.strip, boot := s.boot, ports := s.ports }

/-- The entries of the ports lie in their ranges (R295, R296). -/
def portsOk (l : FMap Port) : Bool :=
  l.all (fun e => decide (e.1 ≤ 1) && decide (e.2.mode ≤ 2) && decide (1500 ≤ e.2.mtu) && decide (e.2.mtu ≤ 9000))

/-- Every setting lies in its range: NumVFs (R368), a current and a pending description (R18, R19), DRAIN_PERIOD (R445), issue to
4 to 16 of 16 cycles and the lowest since the exposure opened (R167, R352), the strip's state, running exactly while it has a run
(R491, R492), and the mode and MTU of a port (R295, R296). -/
def Settings.ok (x : Settings) : Bool :=
  decide (x.numVfs ≤ 16) && x.fab.cur.all Fabric.rangesOk && x.fab.pend.all Fabric.rangesOk &&
  decide (100 ≤ x.fab.drainUs) && decide (x.fab.drainUs ≤ 10000000) &&
  decide (4 ≤ x.lowK) && decide (x.lowK ≤ x.issueK) && decide (x.issueK ≤ 16) &&
  decide (x.strip.state ≤ 3) && (x.strip.state == 1) == x.strip.run.isSome &&
  portsOk x.ports

/-- The state that meets a message: its instant has come and its header stands in the request buffer (R372, R374). -/
def State.submitted (s : State) (t : Nat) (h : MbxHdr) (op : Nat) : State := (s.advance t).fillRequest h op

/-- A mailbox in service of a message: BUSY with its opcode and TAG (R373). -/
def State.serving (s : State) (t : Nat) (h : MbxHdr) (op : Nat) : State :=
  ((s.submitted t h op).event none 0x0F 1).modFunc h.fn.key (fun f => { f with busy := some (op, h.tag), done := false })

/-- The state in which a message's own part runs. -/
def State.atMsg (s : State) (t : Nat) (h : MbxHdr) (op : Nat) : State :=
  (s.serving t h op).modFunc h.fn.key (fun f => { f with series := none })

/-- A message reaches its own part: the node is awake and its clocks run, the mailbox is served, ready and idle, checks 1 to 6 of
R510 pass, its required TLVs are there, a chunk series is whole (R375), and no held cut stops the engine it needs (R470). -/
def State.msgRuns (s : State) (t : Nat) (h : MbxHdr) (op : Nat) (who : Rights) : Bool :=
  let a := s.submitted t h op
  let k := h.fn.key
  !a.dead && !a.asleep && a.fnServing h.fn && (a.func k).ready && !(a.boot.recovery && !a.inRecovery op) && (a.func k).busy.isNone &&
  ((s.serving t h op).mboxCheck h op true who).isNone && h.complete && !((s.atMsg t h op).trace.held && needsEngine op) &&
  (match h.chunk with
    | none => true
    | some c => chunkStep ((s.serving t h op).func k).series op h.tag c == .whole)

/-- A message reaches its own part and names a ridge from 1 to 16 (R374). -/
def State.msgOn (s : State) (t : Nat) (h : MbxHdr) (op : Nat) (who : Rights) (r : Nat) : Bool :=
  s.msgRuns t h op who && decide (h.target = some r) && decide (1 ≤ r) && decide (r ≤ 16)

/-- A message's own part ends in OK with these values (R373). -/
def State.okMsg (s : State) (h : MbxHdr) (op : Nat) (vals : List Nat) : State := s.answer h.fn.key h.tag op .ok 0 vals

/-- A data-path command of a source is taken: no held cut, sleep or dead power stops the ingress, the command it carries is `c`, the
state is then `x`, and the conditions of R390 hold of it. -/
def State.taken (s : State) (t : Nat) (src : Src) (d : Desc) (inl : List Byte) (layout : List (Nat × Nat × Nat)) (x : State)
    (c : Cmd) : Prop :=
  (s.advance t).frozen = false ∧ (s.advance t).take src d inl = (x, some c) ∧ x.preCheck c layout = none

/-- A data-path command of a source is taken and passes the conditions of R390 and the checks of its opcode, and runs as `c` in the
state `x`. -/
def State.cmdRuns (s : State) (t : Nat) (src : Src) (d : Desc) (inl : List Byte) (layout : List (Nat × Nat × Nat))
    (checks : State → Cmd → List (Bool × Status)) (x : State) (c : Cmd) : Prop :=
  (s.advance t).frozen = false ∧ (s.advance t).take src d inl = (x, some c) ∧ x.preCheck c layout = none ∧
  firstFail (checks x c) = none

/-- A BAR write of a function takes effect: the clocks run, the node is awake and the window is served (R368, R482). -/
def State.barRuns (s : State) (t : Nat) (f : Fn) : Bool :=
  let a := s.advance t
  !a.dead && !a.asleep && (a.event none 0x0E 1).fnServing f

/-- The state in which a BAR write takes effect: the access is counted (R457). -/
def State.atBar (s : State) (t : Nat) : State := (s.advance t).event none 0x0E 1

/-- The state in which a packet of connection `c` comes to check 4 of R269: its filters and searches are counted (R325, R328) and its
frame is metered (R449). -/
def State.kMetered (s : State) (c : Conn) (p : KPkt) : State :=
  ((s.kFront p).1.classify p).1.meterRx c.ridge p.breakout (rxFrameBytes p)

/-- The state in which it has passed checks 4 to 7: the packet is counted (R294) and its context used (R283, R288). -/
def State.kVerified (s : State) (c : Conn) (p : KPkt) : State :=
  let a := (s.kMetered c p).rxCounted c.ridge p
  a.modConn p.hdr.conn (fun x => x.verified p a.now)

/-- A packet of connection `c`, as the packet finds it, passes checks 1 to 7 of R269: the node's power and stop states let it in (R393,
R468, R479), the outer headers and the classification pass (R259, R328), the ridge's ingress share has room (R298), the context is on
die (R284), the trailer verifies (R259, R287), the connection is Open (R268), and the header is that of the protocol and of the
connection's ridge (R261, R328). -/
def State.kPasses (s : State) (c : Conn) (p : KPkt) : Prop :=
  let a := s.kMetered c p
  s.kGate p = none ∧ (s.kFront p).2 = true ∧ p.hdr.conn ≠ 0 ∧ ((s.kFront p).1.classify p).2 = true ∧
  a.conns.get? p.hdr.conn = some c ∧
  (a.ingress.get? c.ridge).getD 0 + rxFrameBytes p ≤ (a.ridge c.ridge).p.ingressShare ∧
  c.onDie = true ∧ c.trailerOk p a.now = true ∧ c.state = .opened ∧
  p.hdr.ver = 1 ∧ p.hdr.op < 8 ∧ p.reservedOk = true ∧ 1 ≤ p.hdr.ridge ∧ p.hdr.ridge ≤ 16 ∧ p.hdr.ridge = c.ridge

/-- A data packet passes checks 8 to 13 of R269 on its connection: it is no duplicate, in the window, of a map epoch in force, of a
right length, and its region takes it. -/
def State.kAccepted (s : State) (c : Conn) (p : KPkt) : Prop :=
  c.duplicate p.hdr.psn p.hdr.msn = false ∧ c.inWindow p.hdr.psn p.hdr.msn = true ∧ s.epochOk p.hdr.epoch = true ∧
  p.lengthOk c.seg = true ∧ s.regionOk c p = true

/-- The stored content of the node that a command which fails on state leaves as it is (R391): sequences and generations, pages, write
generations, frames, the cirques and their memory units, regions and indexes. -/
structure Store where
  seqs : FMap SeqD
  gens : FMap Nat
  pages : FMap Page
  wgens : FMap Nat
  frames : FMap Frame
  hands : FMap Nat
  cirques : FMap Cirque
  groups : FMap Group
  banks : FMap Bank
  dramStacks : FMap Stack
  regions : FMap Region
  indexes : FMap Index
  indexGens : FMap Nat
  deriving DecidableEq, Repr

/-- The stored content of a state. -/
def State.store (s : State) : Store :=
  { seqs := s.seqs, gens := s.gens, pages := s.pages, wgens := s.wgens, frames := s.frames, hands := s.hands, cirques := s.cirques,
    groups := s.groups, banks := s.banks, dramStacks := s.dramStacks, regions := s.regions, indexes := s.indexes, indexGens := s.indexGens }

end Sys2Proof.Machine

namespace Sys2Proof

open Sys2Proof.Machine

/-- What a data-path command of R386 is taken with: its instant, its source, its descriptor, the bytes that come with it and the fields
its layout defines. -/
def Instr.dataPath (i : Instr) : Option (Nat × Src × Desc × List Byte × List (Nat × Nat × Nat)) :=
  match i with
  | .openSeq t src d => some (t, src, d, [], openLayout)
  | .append t src d data => some (t, src, d, inlineOf d data, appendLayout)
  | .sealSeq t src d => some (t, src, d, [], handleLayout)
  | .fork t src d => some (t, src, d, [], forkLayout)
  | .free t src d => some (t, src, d, [], handleLayout)
  | .ingest t src d data => some (t, src, d, inlineOf d data, ingestLayout)
  | .read t src d => some (t, src, d, [], readLayout)
  | .prefetch t src d => some (t, src, d, [], prefetchLayout)
  | .develop t src d inl => some (t, src, d, inl, developLayout)
  | .reverse t src d inl => some (t, src, d, inl, developLayout)
  | .composite t src d => some (t, src, d, [], compositeLayout)
  | .gradSend t src d => some (t, src, d, [], gradSendLayout)
  | .gradClear t src d => some (t, src, d, [], gradClearLayout)
  | .query t src d inl => some (t, src, d, inl, queryLayout)
  | .insert t src d data => some (t, src, d, inlineOf d data, insertLayout)
  | .delete t src d data => some (t, src, d, inlineOf d data, insertLayout)
  | .ctrMerge t src d => some (t, src, d, [], handleLayout)
  | .cairn t src d inl => some (t, src, d, inl, cairnLayout)
  | .cairnHoldEnter t src d => some (t, src, d, [], holdLayout)
  | .cairnHoldLeave t src d => some (t, src, d, [], holdLayout)
  | _ => none

/-- A data-path command whose check 4 reads a sequence handle (R53, R390). -/
def Instr.namesSeq (i : Instr) : Bool :=
  match i with
  | .append _ _ _ _ => true
  | .sealSeq _ _ _ => true
  | .fork _ _ _ => true
  | .free _ _ _ => true
  | .ingest _ _ _ _ => true
  | .read _ _ _ => true
  | .prefetch _ _ _ => true
  | .develop _ _ _ _ => true
  | .reverse _ _ _ _ => true
  | .gradSend _ _ _ => true
  | .gradClear _ _ _ => true
  | _ => false

/-- A data-path command whose check 4 reads an index handle (R216, R390). -/
def Instr.namesIndex (i : Instr) : Bool :=
  match i with
  | .query _ _ _ _ => true
  | .insert _ _ _ _ => true
  | .delete _ _ _ _ => true
  | .ctrMerge _ _ _ => true
  | _ => false

/-- The commands that may change the settings of the node: the operator's messages (a VF's are denied), the host's configuration space,
resets, the clocks and supplies, and what the node itself does at its own instants. No command of the data path, no BAR write, and no
packet or frame is among them. -/
def Instr.mayChangeSettings (i : Instr) : Bool :=
  match i with
  | .hello _ _ _ => false
  | .idGet _ _ => false
  | .certGet _ _ _ _ => false
  | .attest _ _ _ _ _ => false
  | .fabricSet _ h _ => !h.fn.isVf
  | .fabricGet _ _ => false
  | .ridgeOpen _ _ _ => false
  | .ridgeModify _ _ _ _ => false
  | .ridgeDrain _ _ => false
  | .ridgeOpenAgain _ _ => false
  | .ridgeClose _ _ _ => false
  | .ridgeGet _ _ => false
  | .ringCreate _ _ _ => false
  | .ringDestroy _ _ _ => false
  | .ringReset _ _ _ => false
  | .ringGet _ _ _ => false
  | .connCreate _ _ _ => false
  | .connReset _ _ _ => false
  | .connClose _ _ _ => false
  | .connGet _ _ _ => false
  | .mprogLoad _ _ _ _ _ => false
  | .mprogClear _ _ _ => false
  | .cbufCreate _ _ _ _ _ => false
  | .cbufDestroy _ _ _ => false
  | .cscrCreate _ _ _ _ => false
  | .cscrDestroy _ _ _ => false
  | .ctrCreate _ _ _ => false
  | .ctrDestroy _ _ _ => false
  | .pskrCreate _ _ _ _ _ => false
  | .pskrDestroy _ _ => false
  | .loupeSetAdd _ _ _ _ => false
  | .loupeSetDelete _ _ _ _ => false
  | .loupeSetReplace _ _ _ _ _ => false
  | .portSet _ h _ _ _ _ => !h.fn.isVf
  | .ntStep _ _ => false
  | .cbsSet _ _ _ _ _ _ _ _ => false
  | .gateSet _ _ _ _ _ => false
  | .shtSet _ _ _ _ _ => false
  | .shtGet _ _ _ => false
  | .fwStage _ h _ => !h.fn.isVf
  | .fwActivate _ h _ => !h.fn.isVf
  | .fwFloor _ h _ => !h.fn.isVf
  | .ownerEnrol _ h _ _ => !h.fn.isVf
  | .pwrEnter _ _ _ => false
  | .resetWarm _ h => !h.fn.isVf
  | .ridgeReset _ _ => false
  | .cirqueReset _ _ _ => false
  | .stripRun _ h _ => !h.fn.isVf
  | .errRead _ _ _ _ => false
  | .healthGet _ _ => false
  | .shadowSet _ _ _ => false
  | .shadowSetRelease _ _ _ _ => false
  | .inject _ _ _ _ _ => false
  | .injectClear _ _ _ => false
  | .belaySetDrain _ _ _ => false
  | .belaySetMirror _ _ _ _ => false
  | .belaySetStandin _ _ _ => false
  | .belaySetLease _ _ _ => false
  | .leaseGet _ _ => false
  | .meterRead _ _ => false
  | .epochDrain _ h _ => !h.fn.isVf
  | .epochDrainEndNow _ h => !h.fn.isVf
  | .stopAt _ _ _ _ => false
  | .stopAtCancel _ _ => false
  | .stopAtRelease _ _ => false
  | .watchdogSet _ _ _ => false
  | .traceSetEvsel _ _ _ => false
  | .traceSetRecords _ _ _ => false
  | .traceSetMode _ _ _ => false
  | .traceSetDump _ _ _ _ _ => false
  | .mboxOverrun _ _ => false
  | .openSeq _ _ _ => false
  | .append _ _ _ _ => false
  | .sealSeq _ _ _ => false
  | .fork _ _ _ => false
  | .free _ _ _ => false
  | .ingest _ _ _ _ => false
  | .read _ _ _ => false
  | .prefetch _ _ _ => false
  | .develop _ _ _ _ => false
  | .reverse _ _ _ _ => false
  | .composite _ _ _ => false
  | .gradSend _ _ _ => false
  | .gradClear _ _ _ => false
  | .query _ _ _ _ => false
  | .insert _ _ _ _ => false
  | .delete _ _ _ _ => false
  | .ctrMerge _ _ _ => false
  | .cairn _ _ _ _ => false
  | .cairnHoldEnter _ _ _ => false
  | .cairnHoldLeave _ _ _ => false
  | .ringDb _ _ _ _ _ => false
  | .cqHead _ _ _ _ _ => false
  | .intCauseClear _ _ _ => false
  | .intEnable _ _ _ => false
  | .flmMark _ _ => false
  | .lowWordRead _ _ _ => false
  | .registerWrite _ _ _ _ _ => false
  | .barBadAccess _ _ _ _ _ => false
  | .write _ _ => false
  | .writeImm _ _ => false
  | .readReq _ _ => false
  | .readResp _ _ => false
  | .command _ _ => false
  | .ack _ _ => false
  | .sack _ _ => false
  | .nack _ _ => false
  | .connect _ _ _ => false
  | .accept _ _ _ => false
  | .refuse _ _ _ => false
  | .messageNotify _ _ => false
  | .contextFetchDone _ _ _ => false
  | .rtoExpiry _ _ => false
  | .ackDelayExpiry _ _ => false
  | .connectResend _ _ => false
  | .retryAfterExpiry _ _ => false
  | .connCloseTimeout _ _ => false
  | .oldKeyExpiry _ _ => false
  | .ptpSync _ _ _ _ _ => false
  | .ptpAnnounce _ _ _ _ => false
  | .ptpDelayResp _ _ _ _ => false
  | .syncTimeout _ _ => false
  | .holdoverSecond _ => false
  | .ppsInEdge _ => false
  | .ppsLoss _ => false
  | .ppsOutEdge _ => false
  | .arpRx _ _ _ _ => false
  | .ethFrameDrop _ _ _ => false
  | .wakeFrame _ _ => false
  | .egressDecision _ _ => false
  | .linkDown _ _ => false
  | .linkUp _ _ => false
  | .gateTakeover _ _ _ => false
  | .shutterTakeover _ _ => false
  | .fabricActivation _ => true
  | .drainDeadline _ => true
  | .exposureBoundary _ _ => true
  | .deadlineInstant _ _ => false
  | .queryPlaced _ _ _ => false
  | .thinPhaseDone _ _ _ => false
  | .itemDispatch _ _ => false
  | .itemComplete _ _ _ _ _ => false
  | .mergeAccept _ _ => false
  | .spillComplete _ _ _ => false
  | .fillComplete _ _ _ _ _ => false
  | .requestFinish _ _ => false
  | .outputDelivered _ _ _ => false
  | .pageSeal _ _ _ => false
  | .ringReuseResume _ _ => false
  | .forkResume _ _ => false
  | .sequenceRelease _ _ => false
  | .ringSpanFetch _ _ _ => false
  | .coalTimeout _ _ _ => false
  | .stripeSwitch _ _ _ _ => false
  | .segmentComplete _ _ _ _ => false
  | .modeEntryComplete _ _ _ => false
  | .cairnTick _ _ => false
  | .refreshDue _ _ _ => false
  | .lingerExpiry _ _ _ => false
  | .patrolRead _ _ _ => false
  | .scrubPass _ _ _ => false
  | .healthDecay _ => false
  | .advisoryMinute _ => false
  | .leaseRecordSend _ _ => false
  | .leaseExpiry _ _ => false
  | .orphanReclaim _ _ => false
  | .injectExpiry _ _ => false
  | .watchdogFire _ _ => false
  | .filmstripSync _ => false
  | .stopCut _ => false
  | .cutWritten _ => false
  | .holdMaxExpiry _ => false
  | .throttleStep _ _ => true
  | .sensorUpdate _ _ => false
  | .fwSwitch _ _ => true
  | .ridgeOpened _ _ _ => false
  | .ridgeCloseComplete _ _ _ => false
  | .ridgeZeroed _ _ => false
  | .pwrEntryComplete _ => false
  | .wakeEvent _ _ _ _ _ => false
  | .a0Reported _ _ => true
  | .cellRegate _ _ => false
  | .stripComplete _ _ => true
  | .coldReset _ _ => true
  | .perstReset _ => true
  | .functionLevelReset _ _ => false
  | .supplyExcursion _ _ _ _ => true
  | .clockLoss _ _ => true
  | .thermtrip _ _ _ => true
  | .clockReturn _ _ _ => true
  | .trngHealthFailure _ => true
  | .warmResetComplete _ _ => true
  | .ridgeResetComplete _ _ => false
  | .attestReportHoldExpiry _ _ => false
  | .submissionFetchComplete _ _ _ _ => false
  | .pcieReadFailed _ _ => false
  | .mboxUnsupportedOpcode _ _ _ => false
  | .undefinedCommandOpcode _ _ _ => false
  | .pcieReplay _ => false
  | .sriovVfEnable _ _ _ => true

end Sys2Proof
end

