-- ==== Sys2Proof/Certificates/Slice0/Obligations.lean ====
section
/-! DEFINITION. The statements for the provers, in the order of the spec's chapters: the queue, the mailbox, one completion statement
for each family of commands, then rules, frames and invariants. -/

open Sys2Proof Sys2Proof.Machine

-- The queue of commands, and the whole node.

/-- A step runs the command at the front of the queue, with the queue's rest. -/
def Obligations.StepRunsFrontCommand : Prop :=
  ∀ (s : State) (c : Instr) (rest : List Instr), s.pending = c :: rest → step s = exec c { s with pending := rest }

/-- On an empty queue the node idles: the model's choice (log entry 10). -/
def Obligations.EmptyQueueIdles : Prop := ∀ s : State, s.pending = [] → step s = .next s

/-- Every command, from every state, is answered by a next state: none ends in a fault or a refusal. -/
def Obligations.EveryCommandGoesOn : Prop := ∀ (c : Instr) (s : State), ∃ x, exec c s = .next x

-- Completion of the mailbox messages (R372 to R379), family by family.

/-- HELLO opens the sender's session with version 1 where the two have it in common (R379); ID_GET answers identity (R378); CERT_GET
answers a chunk of a certificate, or INVALID_ARG past its end (R356, R375); ATTEST without OFFSET answers a new report and, for a ridge,
holds it for one second (R362, R363). FABRIC_SET makes a valid description current at once when ACT_TIME is 0, and else pending,
replacing any other (R18, R19, R21); FABRIC_GET answers both (R21); EPOCH_DRAIN sets DRAIN_PERIOD, and with END_NOW ends the drain at
the instant of acceptance (R445). -/
def Obligations.SessionAndFabricMessagesComplete : Prop :=
  (∀ (s : State) (t : Nat) (h : MbxHdr) (versions : Nat), s.msgRuns t h 0x0001 .any = true → versions.testBit 1 = true →
    let m := s.atMsg t h 0x0001
    let r := ridgeOfFn h.fn
    exec (.hello t h versions) s = .next ((m.modFunc h.fn.key (fun f => { f with session := some 1 })).okMsg h 0x0001
      [1, idDevice, idRev, r, r, (m.ridge r).state.code, (m.ridge r).p.ringShare, m.ringCount r, tableSize h.fn])) ∧
  (∀ (s : State) (t : Nat) (h : MbxHdr), s.msgRuns t h 0x0002 .any = true →
    let m := s.atMsg t h 0x0002
    exec (.idGet t h) s = .next (m.okMsg h 0x0002 [m.boot.deviceId.toNat, idDevice, idRev, m.boot.fwSvn])) ∧
  (∀ (s : State) (t : Nat) (h : MbxHdr) (aliasCert : Bool) (offset : Nat), s.msgRuns t h 0x0003 .any = true →
    let m := s.atMsg t h 0x0003
    (aliasCert = true → m.boot.identity = true) →
    exec (.certGet t h aliasCert offset) s = .next
      (if (m.boot.certificate aliasCert).length ≤ offset then m.answer h.fn.key h.tag 0x0003 .invalidArg 0 []
       else m.okMsg h 0x0003 (chunkReply (m.boot.certificate aliasCert) offset))) ∧
  (∀ (s : State) (t : Nat) (h : MbxHdr) (nonce : BitVec 256) (sel : Nat), s.msgRuns t h 0x0004 .any = true →
    selOk h.fn sel = none →
    let m := (s.atMsg t h 0x0004).modFunc h.fn.key (fun f => { f with report := none })
    (m.ridge sel).resetAt = none → m.boot.identity = true →
    let bytes := m.buildReport nonce sel
    let kept := if sel = 31 then m
      else m.modFunc h.fn.key (fun f => { f with report := some { tag := h.tag, bytes := bytes, until_ := m.now + 1000000000 } })
    exec (.attest t h nonce sel none) s = .next (kept.okMsg h 0x0004 (chunkReply bytes 0))) ∧
  (∀ (s : State) (t : Nat) (h : MbxHdr) (x : FabricMsg) (d : Fabric), s.msgRuns t h 0x0010 .ridge0 = true →
    let m := s.atMsg t h 0x0010
    x.desc = some d → d.validFor m.fab.cur m.now = true → d.actTime = 0 →
    exec (.fabricSet t h x) s = .next ((m.becomeCurrent d).okMsg h 0x0010 [])) ∧
  (∀ (s : State) (t : Nat) (h : MbxHdr) (x : FabricMsg) (d : Fabric), s.msgRuns t h 0x0010 .ridge0 = true →
    let m := s.atMsg t h 0x0010
    x.desc = some d → d.validFor m.fab.cur m.now = true → d.actTime ≠ 0 →
    exec (.fabricSet t h x) s = .next (((State.raiseAll { m with fab := { m.fab with pend := some d } } causeSchedule).conflictPending
      d.actTime).okMsg h 0x0010 [])) ∧
  (∀ (s : State) (t : Nat) (h : MbxHdr), s.msgRuns t h 0x0011 .ridge0 = true →
    let m := s.atMsg t h 0x0011
    let part (o : Option Fabric) : List Nat := match o with
      | some f => 1 :: fabricVals f
      | none => [0]
    exec (.fabricGet t h) s = .next (m.okMsg h 0x0011 (part m.fab.cur ++ part m.fab.pend))) ∧
  (∀ (s : State) (t : Nat) (h : MbxHdr) (us : Nat), s.msgRuns t h 0x0067 .ridge0 = true → 100 ≤ us → us ≤ 10000000 →
    let m := s.atMsg t h 0x0067
    exec (.epochDrain t h us) s =
      .next (State.okMsg { m with fab := { m.fab with drainUs := us } } h 0x0067 [us, m.fab.drainAt])) ∧
  (∀ (s : State) (t : Nat) (h : MbxHdr), s.msgRuns t h 0x0067 .ridge0 = true →
    let m := s.atMsg t h 0x0067
    let at_ := min m.now m.fab.drainAt
    exec (.epochDrainEndNow t h) s =
      .next (State.okMsg { m with fab := { m.fab with drainAt := at_ } } h 0x0067 [m.fab.drainUs, at_]))

/-- RIDGE_OPEN of an Absent ridge with free resources makes it Opening with its resources owned, and waits for RIDGE_OPENED (R342,
R344); RIDGE_MODIFY, RIDGE_DRAIN and RIDGE_OPEN_AGAIN answer the ridge's new state; RIDGE_CLOSE starts the close and waits; RIDGE_GET
answers state, epochs and the rows still to be zeroed (R343, R344). -/
def Obligations.RidgeMessagesComplete : Prop :=
  (∀ (s : State) (t : Nat) (h : MbxHdr) (p : RidgeParams) (r : Nat), s.msgOn t h 0x0018 .ridge0 r = true →
    let m := s.atMsg t h 0x0018
    p.rangesOk = true → (m.ridge r).state = .absent → (p.scratch = 1 → m.boot.scratchAllow = true) → m.roomFor p = true →
    let own := p.banks.foldl (fun s b => s.modBankL b.1 (fun q => { q with owner := r }))
      (m.modRidge r (fun g => { g.again .absent p.held with waiter := some h.fn }))
    exec (.ridgeOpen t h p) s = .next (own.setRState r .opening)) ∧
  (∀ (s : State) (t : Nat) (h : MbxHdr) (pf en : Option Nat) (r : Nat), s.msgOn t h 0x0019 .ridge0 r = true →
    let m := s.atMsg t h 0x0019
    pf.getD 0 ≤ 8 → en.getD (m.ridge r).p.scratch ≤ 1 → (m.ridge r).state = .opened →
    (en = some 1 → m.boot.scratchAllow = true) → (en = some 0 → m.holdsScratch r = false) →
    let x := m.modRidge r (fun g => { g with
      ridgeEpoch := g.ridgeEpoch + 1
      p := { g.p with pfDepth := some (pf.getD g.p.depth), scratchEn := some (en.getD (m.ridge r).p.scratch) } })
    exec (.ridgeModify t h pf en) s = .next (x.okMsg h 0x0019 (x.ridgeVals r))) ∧
  (∀ (s : State) (t : Nat) (h : MbxHdr) (r : Nat), s.msgOn t h 0x001A .ridge0 r = true →
    let m := s.atMsg t h 0x001A
    (m.ridge r).state = .opened →
    let x := (m.modRidge r (fun g => { g with refused := false })).setRState r .draining
    exec (.ridgeDrain t h) s = .next (x.okMsg h 0x001A (x.ridgeVals r))) ∧
  (∀ (s : State) (t : Nat) (h : MbxHdr) (r : Nat), s.msgOn t h 0x001B .ridge0 r = true →
    let m := s.atMsg t h 0x001B
    (m.ridge r).state = .draining → (m.ridge r).refused = false →
    let x := m.setRState r .opened
    exec (.ridgeOpenAgain t h) s = .next (x.okMsg h 0x001B (x.ridgeVals r))) ∧
  (∀ (s : State) (t : Nat) (h : MbxHdr) (force : Bool) (r : Nat), s.msgOn t h 0x001C .ridge0 r = true →
    let m := s.atMsg t h 0x001C
    ((m.ridge r).state = .draining ∨ ((m.ridge r).state = .opened ∧ force = true)) →
    exec (.ridgeClose t h force) s = .next (m.startClose r force (some h.fn))) ∧
  (∀ (s : State) (t : Nat) (h : MbxHdr) (r : Nat), s.msgRuns t h 0x001D .any = true → h.target = some r → r ≤ 16 →
    let m := s.atMsg t h 0x001D
    exec (.ridgeGet t h) s =
      .next (m.okMsg h 0x001D (m.ridgeVals r ++ [(m.ridge r).rowsLeft.foldl (fun n e => n + e.2) 0])))

/-- RING_CREATE gives the lowest free ring number of the ridge an empty Active ring (R380); RING_DESTROY removes an idle ring that no
connection names; RING_RESET makes an idle Error ring a fresh Active one (R382); RING_GET answers state and heads (R378). CONN_CREATE
declares the lowest free connection from 1 on, with its peer value, its completion target region and drawn initial sequences, and the
side that initiates sends CONNECT (R265, R266); CONN_RESET declares a Failed connection again; CONN_CLOSE of a connection that is not
Open or has nothing outstanding closes it at once, and one with something outstanding waits at most 1 ms (R268); CONN_GET answers state,
version, segment, round trip and window. -/
def Obligations.RingAndConnectionMessagesComplete : Prop :=
  (∀ (s : State) (t : Nat) (h : MbxHdr) (p : RingParams) (r i : Nat), s.msgOn t h 0x0020 .any r = true →
    let m := s.atMsg t h 0x0020
    let creator : Fn := if h.fn = .bmc then .pf else h.fn
    (m.ridge r).state = .opened → m.ringOk r creator p = true → m.sliceOk p = true →
    m.freeRing r 0 (m.ridge r).p.ringShare = some i →
    exec (.ringCreate t h p) s =
      .next (State.okMsg { m with rings := m.rings.set (ringKey r i) (Ring.fresh creator p) } h 0x0020 [i])) ∧
  (∀ (s : State) (t : Nat) (h : MbxHdr) (i r : Nat) (g : Ring), s.msgOn t h 0x0021 .any r = true → i < 8192 →
    let m := s.atMsg t h 0x0021
    m.rings.get? (ringKey r i) = some g → m.ringBusy r i g = false →
    m.conns.any (fun e => e.2.ridge == r && e.2.p.cmdRing == some i) = false →
    exec (.ringDestroy t h i) s = .next (State.okMsg { m with rings := m.rings.erase (ringKey r i) } h 0x0021 [])) ∧
  (∀ (s : State) (t : Nat) (h : MbxHdr) (i r : Nat) (g : Ring), s.msgOn t h 0x0022 .any r = true → i < 8192 →
    let m := s.atMsg t h 0x0022
    m.rings.get? (ringKey r i) = some g → m.ringBusy r i g = false → g.state = .error →
    exec (.ringReset t h i) s =
      .next (State.okMsg { m with rings := m.rings.set (ringKey r i) (Ring.fresh g.creator g.params) } h 0x0022 [])) ∧
  (∀ (s : State) (t : Nat) (h : MbxHdr) (i r : Nat) (g : Ring), s.msgOn t h 0x0023 .any r = true → i < 8192 →
    let m := s.atMsg t h 0x0023
    m.rings.get? (ringKey r i) = some g →
    exec (.ringGet t h i) s =
      .next (m.okMsg h 0x0023 [i, g.state.code, g.sqHead, g.sqTail, g.cqTail, g.cqHead, g.phase])) ∧
  (∀ (s : State) (t : Nat) (h : MbxHdr) (p : ConnParams) (r n peer own : Nat) (m1 m2 : State), s.msgOn t h 0x0028 .any r = true →
    let m := s.atMsg t h 0x0028
    (m.ridge r).state = .opened → m.connParamsOk r p = true → m.connCount r < (m.ridge r).p.connAllow →
    (m.fab.cur.any (fun f => f.crossRack p.peerAddr) = true → m.boot.trngBad = false) →
    m.conns.fresh 1 131072 = some n → m.peerFor r p.peerAddr = some (m1, peer) →
    m1.newRegion r (.completion (lowestOf (m.ridge r).p.cirques)) 8192 = some (m2, own) →
    let cross := match m2.fab.cur with
      | some f => f.crossRack p.peerAddr
      | none => false
    let d := m2.drawSeqs
    let m3 : State := { d.2 with
      conns := d.2.conns.set n (Conn.declared r p cross peer own d.1.1 d.1.2.1 d.1.2.2)
      loupe := { d.2.loupe with cmap := d.2.loupe.cmap.set n { ridge := r, peer := peer, cls := p.cls } } }
    let m4 := m3.placeContext n r
    exec (.connCreate t h p) s = .next ((if p.initiate then m4.sendConnect n else m4).okMsg h 0x0028 [n])) ∧
  (∀ (s : State) (t : Nat) (h : MbxHdr) (n r : Nat) (c : Conn), s.msgOn t h 0x0029 .any r = true →
    let m := s.atMsg t h 0x0029
    m.conns.get? n = some c → c.ridge = r → c.state = .failed → (c.crossRack = true → m.boot.trngBad = false) →
    let d := m.drawSeqs
    let k : Conn := { Conn.declared r c.p c.crossRack c.peer c.own d.1.1 d.1.2.1 d.1.2.2 with
                      onDie := c.onDie, lru := c.lru, cmdQ := c.cmdQ, cmdAdmitted := c.cmdAdmitted }
    let x : State := { d.2 with conns := d.2.conns.set n k }
    exec (.connReset t h n) s = .next ((if c.p.initiate then x.sendConnect n else x).okMsg h 0x0029 [])) ∧
  (∀ (s : State) (t : Nat) (h : MbxHdr) (n r : Nat) (c : Conn), s.msgOn t h 0x002A .any r = true →
    let m := s.atMsg t h 0x002A
    m.conns.get? n = some c → c.ridge = r → c.closingAt = none →
    exec (.connClose t h n) s = .next (if c.state ≠ .opened ∨ c.quiet = true then (m.closeConn n).okMsg h 0x002A []
      else m.modConn n (fun c => { c with closingAt := some (m.now + 1000000), closer := some h.fn }))) ∧
  (∀ (s : State) (t : Nat) (h : MbxHdr) (n r : Nat) (c : Conn), s.msgOn t h 0x002B .any r = true →
    let m := s.atMsg t h 0x002B
    m.conns.get? n = some c → c.ridge = r →
    exec (.connGet t h n) s =
      .next (m.okMsg h 0x002B [c.state.code, if c.state = .opened then 1 else 0, c.seg, c.srtt, c.cwnd]))

/-- MPROG_LOAD stores a program that passes its checks under a new version, and MPROG_CLEAR empties the slot (R105); CBUF_CREATE and
CBUF_DESTROY make and end a composite buffer (R123), CSCR_CREATE and CSCR_DESTROY a scratch region of one cirque's row groups (R200).
CTR_CREATE reserves the index's slots in each of its cirques, zeroes its counters, draws its two whitening patterns and answers its
handle (R213, R215, R216); CTR_DESTROY removes an idle index and advances its generation (R216); PSKR_CREATE and PSKR_DESTROY make and
end the ridge's page-sketch region while it has no sequence (R236). -/
def Obligations.BufferAndIndexMessagesComplete : Prop :=
  (∀ (s : State) (t : Nat) (h : MbxHdr) (slot : Nat) (words consts : List W32) (r : Nat), s.msgOn t h 0x0030 .any r = true →
    let m := s.atMsg t h 0x0030
    slot ≤ 15 → mprogOk words consts = true → m.ridgeUp r = true →
    let last := (((m.ridge r).mprogs.get? slot).map (·.last)).getD 0
    let v := if last = 65535 then 1 else last + 1
    exec (.mprogLoad t h slot words consts) s = .next ((m.modRidge r (fun g => { g with
      mprogs := g.mprogs.set slot { prog := some (words, consts), last := v } })).okMsg h 0x0030 [v])) ∧
  (∀ (s : State) (t : Nat) (h : MbxHdr) (slot r : Nat), s.msgOn t h 0x0031 .any r = true →
    let m := s.atMsg t h 0x0031
    slot ≤ 15 → m.ridgeUp r = true →
    exec (.mprogClear t h slot) s = .next ((m.modRidge r (fun g => { g with
      mprogs := g.mprogs.adjust slot (fun q => { q with prog := none }) })).okMsg h 0x0031 [0])) ∧
  (∀ (s : State) (t : Nat) (h : MbxHdr) (slots size cirque r g : Nat) (m1 : State), s.msgOn t h 0x0034 .any r = true →
    let m := s.atMsg t h 0x0034
    1 ≤ slots → slots ≤ 512 → size % 1024 = 0 → 1024 ≤ size → size ≤ 1048576 → (m.ridge r).p.cirques.contains cirque = true →
    (m.ridge r).state = .opened → m.cbufBytes cirque + slots * size ≤ 1048576 → m.cbufCount r < 64 →
    m.newRegion r (.composite slots size cirque none) (slots * size) = some (m1, g) →
    exec (.cbufCreate t h slots size cirque) s = .next (m1.okMsg h 0x0034 [g])) ∧
  (∀ (s : State) (t : Nat) (h : MbxHdr) (region r : Nat), s.msgOn t h 0x0035 .any r = true →
    let m := s.atMsg t h 0x0035
    m.isCbuf r region = true → (m.freeBuf r region).isSome = true →
    exec (.cbufDestroy t h region) s = .next ((m.endRegion r region).okMsg h 0x0035 [])) ∧
  (∀ (s : State) (t : Nat) (h : MbxHdr) (cirque groups r g : Nat) (gs : List Nat) (m1 : State), s.msgOn t h 0x0038 .any r = true →
    let m := s.atMsg t h 0x0038
    1 ≤ groups → groups ≤ 1024 → (m.ridge r).p.cirques.contains cirque = true → (m.ridge r).p.scratch ≠ 0 →
    (m.ridge r).state = .opened → m.findGroups cirque groups = some gs →
    m.newRegion r (.scratch cirque gs false) (groups * 256 * rowBytes) = some (m1, g) →
    let w := m1.claim [groupSlots cirque gs]
    exec (.cscrCreate t h cirque groups) s = .next
      (((w.2.modRegion (regionKey r g) (fun x => { x with wgen := w.1 })).countRows cirque (groups * 256)).okMsg h 0x0038 [g])) ∧
  (∀ (s : State) (t : Nat) (h : MbxHdr) (region r q n : Nat), s.msgOn t h 0x0039 .any r = true →
    let m := s.atMsg t h 0x0039
    m.scratchOf r region = some (q, n, false) →
    m.reqs.any (fun e => e.2.ridge == r && (e.2.opcode == 0x30 || e.2.opcode == 0x31) && e.2.phase != .posted &&
      e.2.region == region) = false →
    exec (.cscrDestroy t h region) s = .next ((m.endRegion r region).okMsg h 0x0039 [])) ∧
  (∀ (s : State) (t : Nat) (h : MbxHdr) (p : IndexParams) (r x : Nat) (gs : FMap (List Nat)) (ex : FMap (List Nat)),
    s.msgOn t h 0x003C .any r = true →
    let m := s.atMsg t h 0x003C
    p.ok = true → p.cirques.all (fun c => (m.ridge r).p.cirques.contains c) = true → (m.ridge r).state = .opened →
    m.health.drain = false → (List.range 16).find? (fun x => (m.indexes.get? (indexKey r x)).isNone) = some x →
    m.reserveIndex p p.cirques = some (gs, ex) → m.boot.trngBad = false →
    let z := m.clearCtrs (fun c => match c with
      | .index q y _ => q == r && y == x
      | .ridge _ _ => false
      | .cirque _ _ => false
      | .bank _ _ => false
      | .node _ => false)
    let w := z.drawPattern (p.width / 64)
    let tag := w.2.drawPattern 1
    let gen := (tag.2.indexGens.get? (indexKey r x)).getD 1
    let k := tag.2.claim (gs.map (fun e => groupSlots e.1 e.2) ++ ex.map (fun e => e.2.map (fun k => e.1 * slotsPerCirque + k)))
    let new : Index :=
      { p := p, gen := gen, commit := 0, whiteW := w.1, whiteT := tag.1, wgen := k.1, parts := [], groups := gs, extra := ex }
    exec (.ctrCreate t h p) s =
      .next (State.okMsg { k.2 with indexes := k.2.indexes.set (indexKey r x) new } h 0x003C [indexHandle x gen])) ∧
  (∀ (s : State) (t : Nat) (h : MbxHdr) (index r : Nat) (x : Index), s.msgOn t h 0x003D .any r = true →
    let m := s.atMsg t h 0x003D
    m.indexOf r index = some x → m.indexBusy r index = false →
    exec (.ctrDestroy t h index) s = .next (State.okMsg { m with
      indexes := m.indexes.erase (indexKey r (indexNo index))
      indexGens := m.indexGens.set (indexKey r (indexNo index)) (nextIndexGen x.gen) } h 0x003D [])) ∧
  (∀ (s : State) (t : Nat) (h : MbxHdr) (width : Nat) (seed : BitVec 64) (groups r : Nat) (gs : FMap (List Nat)),
    s.msgOn t h 0x003E .any r = true →
    let m := s.atMsg t h 0x003E
    (width = 256 ∨ width = 512) → 1 ≤ groups → groups ≤ 64365 → (m.ridge r).state = .opened → (m.ridge r).pskr = none →
    m.seqCount r = 0 → m.reserveGroups groups (m.ridge r).p.cirques = some gs → m.boot.trngBad = false →
    let w := m.drawPattern (width / 64)
    let k := w.2.claim (gs.map (fun e => groupSlots e.1 e.2))
    exec (.pskrCreate t h width seed groups) s = .next (((gs.foldl (fun s e => s.countRows e.1 (groups * 256)) k.2).modRidge r (fun g =>
      { g with pskr := some { width := width, seed := seed, groups := groups, white := w.1, wgen := k.1, rowGroups := gs, rows := [], nextBank := [] } })).okMsg
      h 0x003E [])) ∧
  (∀ (s : State) (t : Nat) (h : MbxHdr) (r : Nat), s.msgOn t h 0x003F .any r = true →
    let m := s.atMsg t h 0x003F
    (m.ridge r).pskr.isSome = true → m.seqCount r = 0 →
    exec (.pskrDestroy t h) s = .next ((m.modRidge r (fun g => { g with pskr := none })).okMsg h 0x003F []))

/-- LOUPE_SET on a filter table: ADD puts a well-formed entry in the lowest free place of its owner's banks and answers the place,
DELETE invalidates a named entry, REPLACE does both at one index; firmware's copy follows (R333, R335). OFS and OFL are ridge 0's.
PORT_SET takes the port's links down, then sets mode, MTU and the MAC of each breakout (R296); NT_STEP steps network time in ACQUIRING,
and in the later states while no tenant ridge exists (R303); CBS_SET sets or queues a shaper (R310); GATE_SET and SHT_SET queue a list
for its takeover (R311, R312, R314); SHT_GET answers the ridge's own slots (R314). -/
def Obligations.LoupePortAndTimeMessagesComplete : Prop :=
  (∀ (s : State) (t : Nat) (h : MbxHdr) (table : LoupeTable) (e : LoupeBody) (r b i : Nat),
    (table = .rfl ∧ s.msgOn t h 0x0040 .any r = true ∨ (table = .ofs ∨ table = .ofl) ∧ r = 0 ∧ s.msgRuns t h 0x0040 .ridge0 = true) →
    let m := s.atMsg t h 0x0040
    loupeOk e table = true → m.lFree r table = some (b, i) →
    exec (.loupeSetAdd t h table e) s = .next
      (((m.lPut b i (loupeEntry e table)).keepCopy b i (some (loupeEntry e table))).okMsg h 0x0040 [2048 * b + i])) ∧
  (∀ (s : State) (t : Nat) (h : MbxHdr) (table : LoupeTable) (index r b i : Nat),
    (table = .rfl ∧ s.msgOn t h 0x0040 .any r = true ∨ (table = .ofs ∨ table = .ofl) ∧ r = 0 ∧ s.msgRuns t h 0x0040 .ridge0 = true) →
    let m := s.atMsg t h 0x0040
    m.lNamed r table index = some (b, i) →
    exec (.loupeSetDelete t h table index) s = .next (((m.lDel b i).keepCopy b i none).okMsg h 0x0040 [])) ∧
  (∀ (s : State) (t : Nat) (h : MbxHdr) (table : LoupeTable) (index : Nat) (e : LoupeBody) (r b i : Nat),
    (table = .rfl ∧ s.msgOn t h 0x0040 .any r = true ∨ (table = .ofs ∨ table = .ofl) ∧ r = 0 ∧ s.msgRuns t h 0x0040 .ridge0 = true) →
    let m := s.atMsg t h 0x0040
    m.lNamed r table index = some (b, i) → loupeOk e table = true →
    exec (.loupeSetReplace t h table index e) s = .next
      ((((m.lDel b i).lPut b i (loupeEntry e table)).keepCopy b i (some (loupeEntry e table))).okMsg h 0x0040 [])) ∧
  (∀ (s : State) (t : Nat) (h : MbxHdr) (port mode mtu : Nat) (macs : List Nat), s.msgRuns t h 0x0048 .ridge0 = true →
    let m := s.atMsg t h 0x0048
    port ≤ 1 → mode ≤ 2 → 1500 ≤ mtu → mtu ≤ 9000 → macs.length = 2 ^ mode → macs.all (fun a => decide (a < 2 ^ 48)) = true →
    m.conns.any (fun e => e.2.p.breakout / 4 == port) = false →
    let d := (List.range 4).foldl (fun s b => s.linkLost (4 * port + b) false) m
    let x : State := { d with ports := d.ports.set port { mode := mode, mtu := mtu } }
    exec (.portSet t h port mode mtu macs) s = .next
      (((macs.zipIdx).foldl (fun s e => s.modBrk (4 * port + e.2) (fun b => { b with mac := e.1 })) x).okMsg h 0x0048 [])) ∧
  (∀ (s : State) (t : Nat) (h : MbxHdr), s.msgRuns t h 0x0049 .ridge0 = true →
    let m := s.atMsg t h 0x0049
    (m.time.st = .acquiring ∨ m.time.st ≠ .unset ∧ m.tenantExists = false) →
    exec (.ntStep t h) s = .next (m.stepTime.okMsg h 0x0049 [])) ∧
  (∀ (s : State) (t : Nat) (h : MbxHdr) (x cls idle hi r : Nat) (enable full : Bool),
    s.msgRuns t h 0x004A .any = true → h.target = some r → r ≤ 16 →
    let m := s.atMsg t h 0x004A
    let b := m.brk x
    let k := classKey r cls
    m.brkExists x = true → cls ≤ 7 → 1 ≤ idle → idle ≤ m.rateOf x * 1000 →
    (((m.ports.get? (x / 4)).getD { mode := 0, mtu := 9000 }).mtu + 22) * 8 ≤ hi → hi ≤ 2 ^ 24 →
    b.slopes r k + (if enable then idle else 0) ≤ m.rateOf x * 1000 →
    let old : Shaper := (b.shapers.get? k).getD { enabled := false, idle := 0, hi := 0, credit := 0, at_ := m.now, pend := none }
    let new : Shaper := { old with pend := some (enable, idle, hi, full) }
    let busy := match b.sending with
      | some f => f.ridge == r && f.cls == cls && decide (m.now < b.busyTo)
      | none => false
    let put : Shaper := if busy then new else { new.apply with at_ := m.now }
    exec (.cbsSet t h x cls idle hi enable full) s =
      .next ((m.modBrk x (fun b => { b with shapers := b.shapers.set k put })).okMsg h 0x004A [])) ∧
  (∀ (s : State) (t : Nat) (h : MbxHdr) (x r takeover : Nat) (entries : List (Nat × Nat)),
    s.msgRuns t h 0x004B .any = true → h.target = some r → r ≤ 16 →
    let m := s.atMsg t h 0x004B
    let g := (m.brk x).gate r
    m.brkExists x = true → gateOk entries = true → m.takeoverOk g.run takeover = true →
    let new : Sched := { g with pend := some (entries, takeover) }
    exec (.gateSet t h x entries takeover) s =
      .next ((m.modBrk x (fun b => { b with gates := b.gates.set r new })).okMsg h 0x004B [])) ∧
  (∀ (s : State) (t : Nat) (h : MbxHdr) (x takeover : Nat) (slots : List (Nat × Nat)), s.msgRuns t h 0x004C .ridge0 = true →
    let m := s.atMsg t h 0x004C
    let g := (m.brk x).shutter
    m.brkExists x = true → shutterOk slots = true → m.takeoverOk g.run takeover = true →
    let new : Sched := { g with pend := some (slots, takeover) }
    exec (.shtSet t h x slots takeover) s = .next ((m.modBrk x (fun b => { b with shutter := new })).okMsg h 0x004C [])) ∧
  (∀ (s : State) (t : Nat) (h : MbxHdr) (x r : Nat), s.msgRuns t h 0x004D .any = true → h.target = some r → r ≤ 16 →
    let m := s.atMsg t h 0x004D
    m.brkExists x = true →
    exec (.shtGet t h x) s = .next (m.okMsg h 0x004D (slotOffsets r 0 (m.brk x).shutter.run.entries)))

/-- FW_STAGE marks an image that passes as staged; FW_ACTIVATE of a staged image sets its time and waits for the switch (R365); FW_FLOOR
raises the floor up to the running version (R361); OWNER_ENROL stores the owner record for the next activation or cold reset (R360).
PWR_ENTER reaches A0 and A1 at once and begins an entry to A2 or A3, whose answer comes with PWR_ENTRY_COMPLETE (R478, R479); RESET_WARM
is answered as it is accepted (R488); RIDGE_RESET resets an Open or Draining ridge and waits (R364, R487); CIRQUE_RESET resets a cirque
that is not being zeroed (R487); STRIP_RUN starts a run whose conditions hold, and waits (R490 to R492). -/
def Obligations.FirmwarePowerAndResetMessagesComplete : Prop :=
  (∀ (s : State) (t : Nat) (h : MbxHdr) (img : FwImage), s.msgRuns t h 0x0050 .ridge0 = true →
    let m := s.atMsg t h 0x0050
    m.boot.activation = none → m.boot.blobOk = true → img.passes m.boot.owner m.boot.bootFloor = true →
    exec (.fwStage t h img) s = .next (State.okMsg
      { m with boot := { m.boot with staged := some { svn := img.svn, meas := Config.sha384 img.bytes } } } h 0x0050 [])) ∧
  (∀ (s : State) (t : Nat) (h : MbxHdr) (at_ : Nat), s.msgRuns t h 0x0051 .ridge0 = true →
    let m := s.atMsg t h 0x0051
    (at_ = 0 ∨ m.now ≤ at_) → m.trace.armed = none → m.trace.held = false → m.boot.activation = none → m.boot.staged.isSome = true →
    exec (.fwActivate t h at_) s =
      .next { m with boot := { m.boot with activation := some (if at_ = 0 then m.now else at_, h.fn) } }) ∧
  (∀ (s : State) (t : Nat) (h : MbxHdr) (value : Nat), s.msgRuns t h 0x0052 .ridge0 = true →
    let m := s.atMsg t h 0x0052
    m.boot.floorBad = false → m.boot.floor ≤ value → value ≤ m.boot.svn →
    exec (.fwFloor t h value) s = .next (State.okMsg { m with boot := { m.boot with floor := value } } h 0x0052 [])) ∧
  (∀ (s : State) (t : Nat) (h : MbxHdr) (rec : OwnerRec) (release : Option ReleaseRec), s.msgRuns t h 0x0053 .ridge0 = true →
    let m := s.atMsg t h 0x0053
    rec.deviceId = m.boot.deviceId → rec.vendorEd = true → rec.vendorMl = true →
    ((m.boot.owner = none ∧ m.boot.ownerNext = none) ∨ releases m.boot.deviceId release = true) →
    exec (.ownerEnrol t h rec release) s =
      .next (State.okMsg { m with boot := { m.boot with ownerNext := some rec.keys } } h 0x0053 [])) ∧
  (∀ (s : State) (t : Nat) (h : MbxHdr) (target : Nat), s.msgRuns t h 0x0058 .ridge0 = true →
    let m := s.atMsg t h 0x0058
    target ≤ 3 → target ≠ m.power.state → (target = 0 → m.power.state = 1) → m.boot.activation = none → m.strip.state ≠ 1 →
    m.trace.armed = none → m.trace.held = false → m.working = false →
    (2 ≤ target → m.ridges.any (fun e => e.2.state == .opening || e.2.state == .closing) = false) →
    exec (.pwrEnter t h target) s = .next (
      if target = 0 then State.okMsg { m.gateIdle false with power := { m.power with state := 0 } } h 0x0058 []
      else if target = 1 then (State.bumpN { m.gateIdle true with power := { m.power with state := 1 } } 2336).okMsg h 0x0058 []
      else { m with power := { m.power with transit := .entering, target := target, waiter := some h.fn, wake := none } })) ∧
  (∀ (s : State) (t : Nat) (h : MbxHdr), s.msgRuns t h 0x0059 .ridge0 = true →
    exec (.resetWarm t h) s = .next (((s.atMsg t h 0x0059).warmReset.bumpN 2347).okMsg h 0x0059 [])) ∧
  (∀ (s : State) (t : Nat) (h : MbxHdr) (r : Nat), s.msgOn t h 0x005A .ridge0 r = true →
    let m := s.atMsg t h 0x005A
    m.ridgeUp r = true → (m.ridge r).resetAt = none →
    exec (.ridgeReset t h) s =
      .next (((m.resetRidge r).modRidge r (fun g => { g with resetAt := some m.now, waiter := some h.fn })).bumpN 2348)) ∧
  (∀ (s : State) (t : Nat) (h : MbxHdr) (cirque : Nat), s.msgRuns t h 0x005B .ridge0 = true →
    let m := s.atMsg t h 0x005B
    cirque < 16 → m.zeroing cirque = false →
    exec (.cirqueReset t h cirque) s = .next (((m.resetCirque cirque).bumpN 2349).okMsg h 0x005B [])) ∧
  (∀ (s : State) (t : Nat) (h : MbxHdr) (run : StripRun), s.msgRuns t h 0x005C .ridge0 = true →
    let m := s.atMsg t h 0x005C
    run.cirques.all (fun c => decide (c < 16)) = true → run.banks.all (fun b => decide (b < 16)) = true →
    run.breakouts.all (fun x => decide (x < 8)) = true → m.strip.state ≠ 1 → m.stripReady run = true →
    run.clocksOk = true → run.suppliesOk = true →
    exec (.stripRun t h run) s = .next (State.bumpN { m with strip := { m.strip with
      state := 1, pass := false, logic := m.strip.logic / 65536 % 2 * 65536, mem := 0, analog := 0, doneAt := 0,
      waiter := some h.fn, run := some run } } 2350))

/-- ERR_READ answers the first number held, LOST and at most 31 records of a log its sender may read, or 7 of the wait-for log (R378,
R418, R466); HEALTH_GET node drain and the components in scope (R425, R427); SHADOW_SET a fraction up to 1,024 (R428), and with RELEASE
it clears a cell's quarantine (R432); INJECT arms an injection and answers its number (R433); INJECT with CLEAR restores the check byte
(R435). BELAY_SET sets node drain and records the change to every ridge (R427), mirroring of sequences opened later (R437), STANDIN
(R442), or a lease: the first creates its region, a later one renews it (R446); LEASE_GET answers the lease and the peer's record;
METER_READ the open meter set and the closed ones (R450). -/
def Obligations.HealthAndBelayMessagesComplete : Prop :=
  (∀ (s : State) (t : Nat) (h : MbxHdr) (r start : Nat), s.msgRuns t h 0x0060 .any = true → logRights h.fn (.ridge r) = none →
    let m := s.atMsg t h 0x0060
    let l := (m.ridge r).log
    let recs := (l.recs.filter (fun e => decide (start ≤ e.seq))).reverse.take 31
    exec (.errRead t h (.ridge r) start) s = .next (m.okMsg h 0x0060
      ([l.next - l.recs.length, l.lost, recs.length] ++ recs.flatMap (fun e => e.bytes.map (·.toNat))))) ∧
  (∀ (s : State) (t : Nat) (h : MbxHdr) (start : Nat), s.msgRuns t h 0x0060 .any = true → logRights h.fn .waitFor = none →
    let m := s.atMsg t h 0x0060
    let recs := (m.health.waits.filter (fun w => decide (start ≤ w.seq))).reverse.take 7
    exec (.errRead t h .waitFor start) s = .next (m.okMsg h 0x0060
      ([m.health.nextWait - m.health.waits.length, recs.length] ++ recs.flatMap (fun w => w.bytes.map (·.toNat))))) ∧
  (∀ (s : State) (t : Nat) (h : MbxHdr), s.msgRuns t h 0x0061 .any = true →
    let m := s.atMsg t h 0x0061
    let r := h.target.getD 0
    r ≤ 16 →
    exec (.healthGet t h) s = .next (m.okMsg h 0x0061
      (flagBit m.health.drain 0 :: (components.filter (fun c => m.owns r c)).flatMap (fun c =>
        [c.kind, c.id, (m.healthOf c).score, (m.healthOf c).level.code])))) ∧
  (∀ (s : State) (t : Nat) (h : MbxHdr) (fraction r : Nat), s.msgOn t h 0x0062 .ridge0 r = true → fraction ≤ 1024 →
    exec (.shadowSet t h fraction) s =
      .next (((s.atMsg t h 0x0062).modRidge r (fun g => { g with shadow := fraction })).okMsg h 0x0062 [])) ∧
  (∀ (s : State) (t : Nat) (h : MbxHdr) (cirque cell : Nat), s.msgRuns t h 0x0062 .ridge0 = true → cirque < 16 → cell < 75 →
    exec (.shadowSetRelease t h cirque cell) s = .next
      (((s.atMsg t h 0x0062).modCell cirque cell (fun c => { c with quarantined := false, odd := 0 })).okMsg h 0x0062 [])) ∧
  (∀ (s : State) (t : Nat) (h : MbxHdr) (target : InjTarget) (count expiry : Nat), s.msgRuns t h 0x0063 .ridge0 = true →
    let m := s.atMsg t h 0x0063
    m.boot.injectAllow = true → target.ok = true → m.injTargetOk target = true → 1 ≤ count → count ≤ 255 → m.now < expiry →
    m.health.injs.length < 16 →
    let j : Inj := { id := m.health.nextInj, target := target, left := count, expiry := expiry, fired := false }
    exec (.inject t h target count expiry) s = .next ((State.fireDue
      { m with health := { m.health with injs := m.health.injs ++ [j], nextInj := m.health.nextInj + 1 } }).okMsg h 0x0063
      [m.health.nextInj])) ∧
  (∀ (s : State) (t : Nat) (h : MbxHdr) (id : Nat), s.msgRuns t h 0x0063 .ridge0 = true →
    let m := s.atMsg t h 0x0063
    m.boot.injectAllow = true → m.health.check2.any (fun e => e.1 == id) = true →
    let x := (m.health.check2.filter (fun e => e.1 == id)).foldl (fun s e => s.modPage e.2.1 (fun p =>
      { p with bad := p.bad.filter (fun g => g != e.2.2), injected := p.injected.filter (fun g => g != e.2.2) })) m
    exec (.injectClear t h id) s = .next (State.okMsg
      { x with health := { x.health with check2 := x.health.check2.filter (fun e => e.1 != id) } } h 0x0063 [])) ∧
  (∀ (s : State) (t : Nat) (h : MbxHdr) (on : Bool), s.msgRuns t h 0x0064 .ridge0 = true →
    let m := s.atMsg t h 0x0064
    m.health.drain ≠ on →
    let x : State := { m with health := { m.health with drain := on } }
    let y : State := (m.ridges.filter (fun e => e.2.state != .absent)).foldl (fun (s : State) e =>
      s.report (ErrRec.of .advisory e.1 .none)) x
    exec (.belaySetDrain t h on) s = .next (y.okMsg h 0x0064 [])) ∧
  (∀ (s : State) (t : Nat) (h : MbxHdr) (conn : Option Nat) (sync : Bool) (r : Nat), s.msgOn t h 0x0064 .ridge0 r = true →
    let m := s.atMsg t h 0x0064
    (∀ n, conn = some n → ∃ c, m.conns.get? n = some c ∧ c.ridge = r ∧ c.state = .opened) →
    exec (.belaySetMirror t h conn sync) s =
      .next ((m.modRidge r (fun g => { g with mirror := conn.map (fun n => (n, sync)) })).okMsg h 0x0064 [])) ∧
  (∀ (s : State) (t : Nat) (h : MbxHdr) (on : Bool) (r : Nat), s.msgOn t h 0x0064 .ridge0 r = true →
    (s.atMsg t h 0x0064).ridgeUp r = true →
    exec (.belaySetStandin t h on) s =
      .next (((s.atMsg t h 0x0064).modRidge r (fun g => { g with standin := on })).okMsg h 0x0064 [])) ∧
  (∀ (s : State) (t : Nat) (h : MbxHdr) (p : LeaseParams) (r k : Nat) (m1 : State), s.msgOn t h 0x0064 .ridge0 r = true →
    let m := s.atMsg t h 0x0064
    (m.ridge r).state = .opened → (m.ridge r).lease = none → m.leaseOk r p = true → m.newRegion r .lease 64 = some (m1, k) →
    exec (.belaySetLease t h p) s = .next ((m1.grantLease r p k none).okMsg h 0x0064 [k])) ∧
  (∀ (s : State) (t : Nat) (h : MbxHdr) (p : LeaseParams) (r : Nat) (l : Lease), s.msgOn t h 0x0064 .ridge0 r = true →
    let m := s.atMsg t h 0x0064
    (m.ridge r).lease = some l → m.leaseOk r p = true →
    exec (.belaySetLease t h p) s = .next ((m.grantLease r p l.region (some l)).okMsg h 0x0064 [l.region])) ∧
  (∀ (s : State) (t : Nat) (h : MbxHdr) (r : Nat), s.msgOn t h 0x0065 .ridge0 r = true →
    let m := s.atMsg t h 0x0065
    let vals := match (m.ridge r).lease with
      | none => [0]
      | some l => [1, l.p.role, l.p.epoch, l.p.expires, flagBit l.holding 0, l.region] ++ (match l.peerRec with
        | some q => [1, q.role, q.epoch, q.node, q.expires, q.sent, q.device]
        | none => [0])
    exec (.leaseGet t h) s = .next (m.okMsg h 0x0065 vals)) ∧
  (∀ (s : State) (t : Nat) (h : MbxHdr) (r : Nat), s.msgOn t h 0x0066 .any r = true →
    let m := (s.atMsg t h 0x0066).chargeAll (s.atMsg t h 0x0066).frozen
    exec (.meterRead t h) s =
      .next (m.okMsg h 0x0066 (((m.ridge r).meterNow r m.now).vals ++ (m.ridge r).meters.flatMap Meter.vals)))

/-- STOP_AT arms an instant at least 1 ms ahead, CANCEL disarms it, RELEASE ends a held cut (R467, R470); WATCHDOG_SET sets a period up
to 1,000 ms (R464); TRACE_SET rewrites event selectors (R456), the record selection (R461) or the mode (R463), and with DUMP writes the
buffer, oldest record first, to the host (R463). A SUBMIT that finds the mailbox BUSY sets OVERRUN and is not served (R373); an opcode
R378 does not define is answered UNSUPPORTED when checks 1 to 3 of R510 pass; a data-path opcode R386 does not define is answered
MALFORMED when the conditions of R390 hold. -/
def Obligations.TraceAndStrayMessagesComplete : Prop :=
  (∀ (s : State) (t : Nat) (h : MbxHdr) (instant : Nat) (holdMax : Option Nat), s.msgRuns t h 0x0068 .ridge0 = true →
    let m := s.atMsg t h 0x0068
    let hold := holdMax.getD 10
    1 ≤ hold → hold ≤ 60 → m.now + 1000000 ≤ instant → instant ≤ ctrMax → m.time.st ≠ .unset → m.time.st ≠ .acquiring →
    m.power.state < 2 → m.power.transit = .none → m.boot.activation = none → m.trace.held = false →
    exec (.stopAt t h instant holdMax) s =
      .next (State.okMsg { m with trace := { m.trace with armed := some (instant, hold) } } h 0x0068 [])) ∧
  (∀ (s : State) (t : Nat) (h : MbxHdr), s.msgRuns t h 0x0068 .ridge0 = true →
    let m := s.atMsg t h 0x0068
    exec (.stopAtCancel t h) s = .next (State.okMsg { m with trace := { m.trace with armed := none } } h 0x0068 [])) ∧
  (∀ (s : State) (t : Nat) (h : MbxHdr), s.msgRuns t h 0x0068 .ridge0 = true → (s.atMsg t h 0x0068).trace.held = true →
    exec (.stopAtRelease t h) s = .next ((s.atMsg t h 0x0068).release.okMsg h 0x0068 [])) ∧
  (∀ (s : State) (t : Nat) (h : MbxHdr) (ms r : Nat), s.msgRuns t h 0x0069 .ridge0 = true → h.target = some r → r ≤ 16 → ms ≤ 1000 →
    exec (.watchdogSet t h ms) s =
      .next (((s.atMsg t h 0x0069).modRidge r (fun g => { g with watchdogMs := ms })).okMsg h 0x0069 [])) ∧
  (∀ (s : State) (t : Nat) (h : MbxHdr) (sels : List EvSel), s.msgRuns t h 0x006A .ridge0 = true → sels.all EvSel.ok = true →
    exec (.traceSetEvsel t h sels) s = .next ((sels.foldl State.selectEvent (s.atMsg t h 0x006A)).okMsg h 0x006A [])) ∧
  (∀ (s : State) (t : Nat) (h : MbxHdr) (sel : RecSel), s.msgRuns t h 0x006A .ridge0 = true → sel.k ≤ 16 → sel.ridges ≤ 0x1FFFF →
    sel.cirques ≤ 0xFFFF → sel.types ≤ 0x1FFFF →
    let m := s.atMsg t h 0x006A
    exec (.traceSetRecords t h sel) s = .next (State.okMsg { m with trace := { m.trace with sel := sel } } h 0x006A [])) ∧
  (∀ (s : State) (t : Nat) (h : MbxHdr) (mode : FlmMode), s.msgRuns t h 0x006A .ridge0 = true →
    let m := s.atMsg t h 0x006A
    let up := m.trace.portUp || (mode != .off && !m.sns.lost.contains .trace)
    exec (.traceSetMode t h mode) s =
      .next ((State.drainBuf { m with trace := { m.trace with mode := mode, portUp := up } }).okMsg h 0x006A [])) ∧
  (∀ (s : State) (t : Nat) (h : MbxHdr) (addr len : Nat), s.msgRuns t h 0x006A .ridge0 = true →
    let m := s.atMsg t h 0x006A
    m.trace.held = false → m.trace.mode ≠ .stream → addr + len ≤ 2 ^ 64 →
    exec (.traceSetDump t h false addr len) s = .next
      ((m.dumpWrites addr ((m.trace.buf.reverse.flatMap FlmRec.bytes).take len)).okMsg h 0x006A [])) ∧
  (∀ (s : State) (t : Nat) (fn : Fn), let a := s.advance t
    a.asleep = false → a.dead = false → a.fnServing fn = true → (a.func fn.key).busy.isSome = true →
    exec (.mboxOverrun t fn) s = .next (a.modFunc fn.key (fun f => { f with overrun := true }))) ∧
  (∀ (s : State) (t : Nat) (h : MbxHdr) (op v : Nat), let a := s.advance t
    a.dead = false → a.asleep = false → a.fnServing h.fn = true → (a.func h.fn.key).ready = true → a.boot.recovery = false →
    (a.func h.fn.key).busy = none → h.framing = true → (s.serving t h op).switching = false → a.power.warmAt = none →
    ((s.serving t h op).func h.fn.key).session = some v → h.proto = v → (s.serving t h op).power.warmAt = none →
    exec (.mboxUnsupportedOpcode t h op) s = .next ((s.serving t h op).answer h.fn.key h.tag op .unsupported 0 [])) ∧
  (∀ (s : State) (t : Nat) (src : Src) (d : Desc) (x : State) (c : Cmd), let a := s.advance t
    a.frozen = false → a.take src d [] = (x, some c) → firstFail (x.conditions c) = none →
    exec (.undefinedCommandOpcode t src d) s = .next ((x.reject c .malformed 0 0).noteDrained c))

-- Completion of the data-path commands (R386 to R391).

/-- OPEN takes a free descriptor in state Open, mirrored where the ridge is, and answers its handle (R54, R55, R437); SEAL seals a Open
sequence and every layer's last page (R60); FREE begins the release of an Open or Sealed one (R72); each completes at once with OK. A
sequence command that passes its checks takes a request slot and runs: FORK copies the descriptor once the shared pages are sealed
(R61), APPEND and INGEST write the bytes their source gives (R57, R442), READ delivers the records it reads (R255), and PREFETCH warms
the pages it names or completes at once where there are none (R87). -/
def Obligations.SequenceCommandsComplete : Prop :=
  (∀ (s : State) (t : Nat) (src : Src) (d : Desc) (x : State) (c : Cmd), s.taken t src d [] openLayout x c →
    x.health.drain = false → x.seqFree c.ridge = true → openShape c.d = true → x.tagParams c.d false = true →
    let p := x.putSeq (openSeqOf c.d c.ridge (x.mirrorFor c.ridge))
    let y := match (p.2.ridge c.ridge).mirror with
      | none => p.2
      | some m => p.2.mirSend m.1 (p.2.handleAt p.1) 0x01 (descOf (mirHeader 0x01 c.ridge c.d.prio) + (c.d >>> 128) <<< 128).bytes none none
    exec (.openSeq t src d) s = .next (y.quick c .ok (p.2.handleAt p.1) 0)) ∧
  (∀ (s : State) (t : Nat) (src : Src) (d : Desc) (x : State) (c : Cmd) (q : SeqD), s.taken t src d [] handleLayout x c →
    x.handleOk c.ridge c.d.handle = true → x.seqIn c.ridge c.d.handle [.opened] = true → x.tagParams c.d false = true →
    x.seqs.get? (handleIdx c.d.handle) = some q →
    let y := q.layers.foldl (fun (s : State) e => s.sealLayer (handleIdx c.d.handle) e.1 e.2)
      (x.modSeq (handleIdx c.d.handle) (fun q => { q with state := .sealed }))
    exec (.sealSeq t src d) s =
      .next ((y.mirror c.d.handle c.d.handle 0x03 (descOf (mirHeader 0x03 c.ridge c.d.prio)).bytes none).quick c .ok 0 0)) ∧
  (∀ (s : State) (t : Nat) (src : Src) (d : Desc) (x : State) (c : Cmd), s.taken t src d [] handleLayout x c →
    x.handleOk c.ridge c.d.handle = true → x.seqIn c.ridge c.d.handle [.opened, .sealed] = true → x.tagParams c.d false = true →
    let y := x.modSeq (handleIdx c.d.handle) (fun q => { q with state := .closing })
    exec (.free t src d) s =
      .next ((y.mirror c.d.handle c.d.handle 0x05 (descOf (mirHeader 0x05 c.ridge c.d.prio)).bytes none).quick c .ok 0 0)) ∧
  (∀ (s : State) (t : Nat) (src : Src) (d : Desc) (x : State) (c : Cmd) (q : SeqD), s.taken t src d [] forkLayout x c →
    x.seqOf c.ridge c.d.handle = some q → x.health.drain = false → (q.state = .opened ∨ q.state = .sealed) →
    q.start ≤ c.d.forkPos → c.d.forkPos ≤ q.lowestNext → x.seqFree c.ridge = true → x.forkLimit q c.d.forkPos = false →
    x.tagParams c.d false = true →
    exec (.fork t src d) s = .next ((x.admitReq c .engine id).1.runFork (x.admitReq c .engine id).2)) ∧
  (∀ (s : State) (t : Nat) (src : Src) (d : Desc) (data : Option (List Byte)) (x y : State) (c : Cmd) (q : SeqD) (bs : List Byte),
    s.cmdRuns t src d (inlineOf d data) appendLayout appendChecks x c → x.seqOf c.ridge c.d.handle = some q →
    x.source c (c.d.count * q.fmt.rowBytes) data = (y, some bs) →
    let a := y.admitReq c .engine (fun r => { r with data := bs })
    exec (.append t src d data) s = .next (a.1.runAppend a.2)) ∧
  (∀ (s : State) (t : Nat) (src : Src) (d : Desc) (data : Option (List Byte)) (x y : State) (c : Cmd) (q : SeqD) (bs : List Byte),
    s.taken t src d (inlineOf d data) ingestLayout x c → x.seqOf c.ridge c.d.handle = some q →
    (x.ridge c.ridge).standin = true → q.state = .opened → q.hasLayer c.d.layer = true →
    q.pageOf (x.nextPos q c.d.handle c.d.layer) + c.d.imagesM1 ≤ pageMax →
    x.tagParams c.d false = true → x.srcParams c = true → c.d.srcOf.qsrc ≠ 0 →
    x.source c ((c.d.imagesM1 + 1) * 65536) data = (y, some bs) →
    let a := y.admitReq c .engine (fun r => { r with data := bs })
    exec (.ingest t src d data) s = .next (a.1.runIngest a.2)) ∧
  (∀ (s : State) (t : Nat) (src : Src) (d : Desc) (x : State) (c : Cmd) (q : SeqD) (keys : List Nat) (bs : List Byte),
    s.taken t src d [] readLayout x c → x.seqOf c.ridge c.d.handle = some q → (q.state = .opened ∨ q.state = .sealed) →
    q.hasLayer c.d.layer = true → State.readSlots q c.d = some keys → x.tagParams c.d false = true → x.outParams c = true →
    let a := x.admitReq c .engine id
    (a.1.countReads keys).readImages keys = .ok bs →
    exec (.read t src d) s = .next ((a.1.countReads keys).deliverOut a.2 bs)) ∧
  (∀ (s : State) (t : Nat) (src : Src) (d : Desc) (x : State) (c : Cmd) (q : SeqD),
    s.cmdRuns t src d [] prefetchLayout prefetchChecks x c → x.seqOf c.ridge c.d.handle = some q →
    let l := x.prefetchPages c.ridge q c.d
    let a := x.admitReq c .engine (fun r => { r with list := l })
    exec (.prefetch t src d) s =
      .next (if l.isEmpty then a.1.complete a.2 .ok 0 0 0 else l.foldl (fun (s : State) e => s.warm a.2 e) a.1))

/-- DEVELOP and REVERSE that pass their checks take a request slot with the window and the pages fixed at admission (R92, R130); a REVERSE
that is not late allocates its gradient pages first (R136); COMPOSITE arms its buffer, and stops waiting at once past its deadline (R125,
R126); GRAD_SEND delivers the range's records, in the layout of UNROT (R139); GRAD_CLEAR clears the range and completes (R139). -/
def Obligations.ProofCommandsRun : Prop :=
  (∀ (s : State) (t : Nat) (src : Src) (d : Desc) (inl : List Byte) (x : State) (c : Cmd) (q : SeqD),
    s.cmdRuns t src d inl developLayout attendChecks x c → x.seqOf c.ridge c.d.handle = some q →
    let a := x.admitReq c .waiting (x.fixAttend c q)
    exec (.develop t src d inl) s = .next (a.1.afterAdmit a.2)) ∧
  (∀ (s : State) (t : Nat) (src : Src) (d : Desc) (inl : List Byte) (x y : State) (c : Cmd) (q : SeqD),
    s.cmdRuns t src d inl developLayout attendChecks x c → x.seqOf c.ridge c.d.handle = some q →
    let a := x.admitReq c .waiting (x.fixAttend c q)
    (c.d.lateDiscard = true → a.1.now ≤ a.1.deadlineFor c.d) →
    a.1.allocGrads (handleIdx c.d.handle) c.d.layer (q.gradsNeeded c.d) = .ok y →
    exec (.reverse t src d inl) s = .next (y.afterAdmit a.2)) ∧
  (∀ (s : State) (t : Nat) (src : Src) (d : Desc) (x : State) (c : Cmd), s.cmdRuns t src d [] compositeLayout compositeChecks x c →
    let a := x.admitReq c .armed (fun q => { q with region := c.d.handle })
    let y := a.1.modRegion (regionKey c.ridge c.d.handle) (fun g => { g with kind := match g.kind with
      | .composite n b e _ => .composite n b e (some a.2)
      | .scratch n b e => .scratch n b e
      | .lease => .lease
      | .completion k => .completion k
      | .query => .query })
    exec (.composite t src d) s = .next (if y.deadlineFor c.d < y.now then y.stopWaiting a.2 else y)) ∧
  (∀ (s : State) (t : Nat) (src : Src) (d : Desc) (x : State) (c : Cmd) (q : SeqD) (l : List (List Byte)),
    s.cmdRuns t src d [] gradSendLayout (gradChecks true) x c → x.seqOf c.ridge c.d.handle = some q →
    let a := x.admitReq c .engine id
    a.1.gradRecords q c.d.layer c.d.rangeLo (c.d.rangeHi + 1 - c.d.rangeLo) = .ok l →
    exec (.gradSend t src d) s =
      .next (a.1.deliverOut a.2 (l.flatMap (fun r => if c.d.unrot then q.fmt.unrotRecord r else r)))) ∧
  (∀ (s : State) (t : Nat) (src : Src) (d : Desc) (x : State) (c : Cmd) (q : SeqD),
    s.cmdRuns t src d [] gradClearLayout (gradChecks false) x c → x.seqOf c.ridge c.d.handle = some q →
    let y := x.clearGrads (handleIdx c.d.handle) c.d.layer c.d.rangeLo c.d.rangeHi c.d.gFree
    exec (.gradClear t src d) s = .next ((if q.wholeLayer c.d then
      y.modLayer (handleIdx c.d.handle) c.d.layer (fun l => { l with dirty := false }) else y).quick c .ok 0 0))

/-- QUERY takes a request slot and counts (R224); INSERT and DELETE commit the items their source gives (R221, R222); CTR_MERGE starts a
merge in every cirque of the index and completes when all are done (R234). CAIRN queues one segment in each bank it names and starts
what can start (R202); CAIRN_HOLD ENTER holds the region's 64 groups, and completes when all are in the mode; LEAVE releases the hold
after the commands in flight (R201). -/
def Obligations.IndexAndCairnCommandsRun : Prop :=
  (∀ (s : State) (t : Nat) (src : Src) (d : Desc) (inl : List Byte) (x : State) (c : Cmd) (g : Index),
    s.cmdRuns t src d inl queryLayout queryChecks x c → x.indexOf c.ridge c.d.index = some g →
    let a := x.admitReq c .waiting g.fixQuery
    exec (.query t src d inl) s = .next ((a.1.bump (.index c.ridge (indexNo c.d.index) 0)).afterAdmit a.2)) ∧
  (∀ (s : State) (t : Nat) (src : Src) (d : Desc) (data : Option (List Byte)) (x y : State) (c : Cmd) (g : Index) (bs : List Byte),
    s.cmdRuns t src d (inlineOf d data) insertLayout indexChecks x c → x.indexOf c.ridge c.d.index = some g →
    x.source c (c.d.itemBytes g.p) data = (y, some bs) →
    let a := y.admitReq c .engine id
    exec (.insert t src d data) s = .next (a.1.commitInsert a.2 c g bs)) ∧
  (∀ (s : State) (t : Nat) (src : Src) (d : Desc) (data : Option (List Byte)) (x y : State) (c : Cmd) (g : Index) (bs : List Byte),
    s.cmdRuns t src d (inlineOf d data) insertLayout indexChecks x c → x.indexOf c.ridge c.d.index = some g →
    x.source c (c.d.itemBytes g.p) data = (y, some bs) →
    let a := y.admitReq c .engine id
    exec (.delete t src d data) s = .next (a.1.commitDelete a.2 c g bs)) ∧
  (∀ (s : State) (t : Nat) (src : Src) (d : Desc) (x : State) (c : Cmd) (g : Index), s.taken t src d [] handleLayout x c →
    x.indexOf c.ridge c.d.index = some g → x.tagParams c.d false = true →
    exec (.ctrMerge t src d) s = .next
      ((g.p.cirques.foldl (fun (s : State) k => s.startMerge c.ridge c.d.index k true) (x.admitReq c .engine id).1).mergesDone c.ridge c.d.index)) ∧
  (∀ (s : State) (t : Nat) (src : Src) (d : Desc) (inl : List Byte) (x : State) (c : Cmd) (q n : Nat) (held : Bool),
    s.cmdRuns t src d inl cairnLayout cairnChecks x c → x.scratchOf c.ridge c.d.handle = some (q, n, held) →
    let a := x.admitReq c .engine (fun r => { r with region := c.d.handle })
    let banks := if c.d.crnAll then List.range 256 else [c.d.crnBank]
    let latch := if c.d.crnOp = 8 ∨ c.d.crnOp = 9 then some (leNat (sliceBytes c.inl 0 128)) else none
    exec (.cairn t src d inl) s = .next ((a.1.queueSegs (banks.map (fun j => (bankKey q j,
      { req := a.2, ops := a.1.cairnOps c, latch := latch, ridge := c.ridge, issued := a.1.now })))).kickCirque q)) ∧
  (∀ (s : State) (t : Nat) (src : Src) (d : Desc) (x : State) (c : Cmd) (q n : Nat) (held : Bool),
    s.cmdRuns t src d [] holdLayout holdEnterChecks x c → x.scratchOf c.ridge c.d.handle = some (q, n, held) →
    let a := x.admitReq c .engine (fun r => { r with region := c.d.handle })
    let y := (a.1.setHeld c.ridge c.d.handle true).holdGroups q (regionHolder c.ridge c.d.handle) (List.range 64)
    exec (.cairnHoldEnter t src d) s = .next (if y.allInMode q then y.complete a.2 .ok 0 0 0 else y)) ∧
  (∀ (s : State) (t : Nat) (src : Src) (d : Desc) (x : State) (c : Cmd), s.cmdRuns t src d [] holdLayout holdLeaveChecks x c →
    let a := x.admitReq c .engine (fun r => { r with region := c.d.handle })
    exec (.cairnHoldLeave t src d) s = .next ((a.1.setHeld c.ridge c.d.handle false).finishLeaves c.ridge c.d.handle))

-- Completion of the BAR accesses (R367, R382, R397, R398, R403, R473).

/-- A BAR write of a served function while the node is awake: a doorbell moves the tail, CQ_HEAD the head (R381, R382), a write of
INT_CAUSE clears bits and of INT_ENABLE sets the mask (R403), FLM_MARK makes a record (R473), another register takes what the register
map gives it (R397), and an access of a wrong size or place is ignored and counted (R397). While a cut is held the doorbell waits
(R468). A read of the low word of a 64-bit register answers its low half and latches its high half for the function; a read of the high
word answers the latched half once, and with nothing latched the present one (R398); a 32-bit register answers as it stands and disturbs
no latch (the row's second use, log entry 11); a bad read answers 0 and is counted (R397). -/
def Obligations.BarAccessesComplete : Prop :=
  (∀ (s : State) (t : Nat) (fn : Fn) (ridge ring tail : Nat), s.barRuns t fn = true →
    let off := ringOff fn ridge ring 0
    exec (.ringDb t fn ridge ring tail) s = .next ((s.atBar t).heldWrite fn off (tail % 4096)
      (fun s => s.ringDbW (ringRidge fn ridge) ring (tail % 4096)))) ∧
  (∀ (s : State) (t : Nat) (fn : Fn) (ridge ring head : Nat), s.barRuns t fn = true →
    let off := ringOff fn ridge ring 4
    exec (.cqHead t fn ridge ring head) s = .next ((s.atBar t).heldWrite fn off (head % 4096)
      (fun s => s.cqHeadW (ringRidge fn ridge) ring (head % 4096)))) ∧
  (∀ (s : State) (t : Nat) (fn : Fn) (bits : W32), s.barRuns t fn = true →
    exec (.intCauseClear t fn bits) s = .next ((s.atBar t).causeW fn.key bits)) ∧
  (∀ (s : State) (t : Nat) (fn : Fn) (bits : W32), s.barRuns t fn = true →
    exec (.intEnable t fn bits) s = .next ((s.atBar t).enableW fn.key bits)) ∧
  (∀ (s : State) (t : Nat) (value : W32), s.barRuns t .pf = true →
    exec (.flmMark t value) s = .next ((s.atBar t).markW value.toNat)) ∧
  (∀ (s : State) (t : Nat) (fn : Fn) (offset size value : Nat), s.barRuns t fn = true →
    exec (.registerWrite t fn offset size value) s = .next ((s.atBar t).barWrite fn offset size value)) ∧
  (∀ (s : State) (t : Nat) (fn : Fn) (offset size : Nat), s.barRuns t fn = true →
    exec (.barBadAccess t fn true offset size) s = .next ((s.atBar t).bumpN 15)) ∧
  (∀ (s : State) (t : Nat) (fn : Fn) (offset v : Nat), (s.advance t).frozen = false →
    let a := ((s.advance t).chargeAll false).event none 0x0E 1
    a.dead = false → a.reg64Now fn offset = some v →
    exec (.lowWordRead t fn offset) s = .next ((a.modFunc fn.key (fun f => { f with latch := f.latch.set offset (v / 2 ^ 32) })).emit
      (.readData fn offset (v % 2 ^ 32)))) ∧
  (∀ (s : State) (t : Nat) (fn : Fn) (offset v : Nat), (s.advance t).frozen = false →
    let a := ((s.advance t).chargeAll false).event none 0x0E 1
    a.dead = false → a.reg64Now fn offset = none → a.reg32Now fn offset = some v →
    exec (.lowWordRead t fn offset) s = .next (a.emit (.readData fn offset v))) ∧
  (∀ (s : State) (t : Nat) (fn : Fn) (offset v : Nat), (s.advance t).frozen = false →
    let a := ((s.advance t).chargeAll false).event none 0x0E 1
    a.dead = false → a.reg64Now fn offset = none → a.reg32Now fn offset = none → offset % 8 = 4 → a.reg64Now fn (offset - 4) = some v →
    exec (.lowWordRead t fn offset) s = .next ((a.modFunc fn.key (fun f => { f with latch := f.latch.erase (offset - 4) })).emit
      (.readData fn offset (((a.func fn.key).latch.get? (offset - 4)).getD (v / 2 ^ 32))))) ∧
  (∀ (s : State) (t : Nat) (fn : Fn) (offset : Nat), (s.advance t).frozen = false →
    let a := ((s.advance t).chargeAll false).event none 0x0E 1
    a.dead = false → a.reg64Now fn offset = none → a.reg32Now fn offset = none → offset % 8 ≠ 4 → (sizeOk offset 4 && assigned fn offset) = false →
    exec (.lowWordRead t fn offset) s = .next (a.badRead fn offset)) ∧
  (∀ (s : State) (t : Nat) (fn : Fn) (offset size : Nat), (s.advance t).asleep = false → (s.advance t).dead = false →
    let a := (s.advance t).event none 0x0E 1
    a.asleep = false → a.fnServing fn = true →
    exec (.barBadAccess t fn false offset size) s = .next ((a.bumpN 15).emit (.readData fn offset 0)))

-- Completion of what arrives from the fabric (R262 to R285, R297, R301 to R304).

/-- A Kalad packet that the node's power and stop states let through, that passes checks 1 to 3 and is classified to its connection,
goes on to the connection's ingress and check 5, whatever its operation (R269, R328). CONNECT that fits a declared connection opens it
with the smaller segment and answers ACCEPT; ACCEPT opens the connection that was connecting; REFUSE with a reason from 1 to 3 fails it
(R266, R268). -/
def Obligations.PacketsComplete : Prop :=
  (∀ (s : State) (t : Nat) (p : KPkt) (i : Instr) (x y : State),
    i = .write t p ∨ i = .writeImm t p ∨ i = .readReq t p ∨ i = .readResp t p ∨ i = .command t p ∨ i = .ack t p ∨ i = .sack t p ∨
      i = .nack t p →
    (s.advance t).kGate p = none → (s.advance t).kFront p = (x, true) → p.hdr.conn ≠ 0 → x.classify p = (y, true) →
    exec i s = .next (y.kAdmit p.hdr.conn p)) ∧
  (∀ (s : State) (t : Nat) (p : KPkt) (r : SetupRec) (x : State) (n : Nat) (c : Conn), (s.advance t).setupFront p = (x, true) →
    x.acceptDecl p r = some (n, c) → c.state ≠ .opened → r.versions.testBit 1 = true →
    r.paramsOk (if c.crossRack then 1216 else 0) = true →
    let seg := min r.seg c.p.seg
    let a := { c with seg := seg }.accept n r.keyData
    let z := x.setupRx c.ridge p
    let y := z.modConn n (fun c => { c.opening r p.srcPort seg (c.derive r.keyData r.body a.body) z.now with sent := some a })
    exec (.connect t p r) s = .next (y.kSetup n 2 a)) ∧
  (∀ (s : State) (t : Nat) (p : KPkt) (r : SetupRec) (x : State) (n : Nat) (c : Conn), (s.advance t).setupFront p = (x, true) →
    x.connectingTo p = some (n, c) → r.versions = 1 → r.paramsOk (if c.crossRack then 1120 else 0) = true → r.seg ≤ c.p.seg →
    let own := (c.sent.map (·.body)).getD []
    let z := x.setupRx c.ridge p
    exec (.accept t p r) s = .next (z.modConn n (fun c => c.opening r p.srcPort r.seg (c.derive r.keyData own r.body) z.now))) ∧
  (∀ (s : State) (t : Nat) (p : KPkt) (r : SetupRec) (x : State) (n : Nat) (c : Conn), (s.advance t).setupFront p = (x, true) →
    x.connectingTo p = some (n, c) → 1 ≤ r.reason → r.reason ≤ 3 →
    exec (.refuse t p r) s = .next ((x.setupRx c.ridge p).failConn n))

/-- A packet that meets an Open connection and passes checks 1 to 7 of R269 takes its effect when its own conditions hold: a WRITE,
WRITE_IMM, READ_REQ, READ_RESP or COMMAND that passes checks 8 to 13 too is placed, completes its message with the last byte, is served
when it is a READ_REQ, and is acknowledged by the rules of R276 (R262, R264, R271, R272, R274); an ACK, or a SACK, of PSNs that have been
sent acknowledges them, moves the window and lets waiting packets leave (R277 to R279); a NACK of a defined code does what its code says
(R281). Each is recorded as passed where its PSN is sampled (R459). -/
def Obligations.AcceptedPacketsTakeEffect : Prop :=
  (∀ (s : State) (t : Nat) (p : KPkt) (i : Instr) (c : Conn),
    i = .write t p ∧ p.hdr.op = 0 ∨ i = .writeImm t p ∧ p.hdr.op = 1 ∨ i = .readReq t p ∧ p.hdr.op = 2 ∨
      i = .readResp t p ∧ p.hdr.op = 3 ∨ i = .command t p ∧ p.hdr.op = 4 →
    (s.advance t).kPasses c p →
    let n := p.hdr.conn
    let z := (s.advance t).kVerified c p
    let k := c.verified p z.now
    (z.ceMarked n p).kAccepted k p →
    exec i s = .next (((z.ceMarked n p).filmRx n k p 0).kPlace n k p)) ∧
  (∀ (s : State) (t : Nat) (p : KPkt) (i : Instr) (c : Conn),
    i = .ack t p ∧ p.hdr.op = 5 ∨ i = .sack t p ∧ p.hdr.op = 6 →
    (s.advance t).kPasses c p → serLt p.hdr.psn c.txPsn = true →
    (p.hdr.op = 6 → (sackPsns p.hdr.psn p.wire).all (fun k => serLt k c.txPsn) = true) →
    let z := (s.advance t).kVerified c p
    exec i s = .next ((z.filmRx p.hdr.conn (c.verified p z.now) p 0).kAckIn p.hdr.conn p)) ∧
  (∀ (s : State) (t : Nat) (p : KPkt) (c : Conn), p.hdr.op = 7 →
    (s.advance t).kPasses c p → (NackCode.ofCode (p.hdr.imm >>> 24)).isSome = true →
    let z := (s.advance t).kVerified c p
    exec (.nack t p) s = .next ((z.filmRx p.hdr.conn (c.verified p z.now) p 0).kNackIn p.hdr.conn p))

/-- A message is notified in order: an immediate one to its ring, a COMMAND to the connection's queue where there is room, and else
deferred with a BUSY NACK (R274, R285); packets parked for a context are processed when it is there, and an uncorrectable context fails
the connection (R284). The timers of an Open connection act when they are due: RTO backs off and sends every unacknowledged packet
again, or fails the connection after RETRY_MAX (R278, R279); the ACK delay sends an ACK (R276); RETRY_AFTER sends its messages again
(R281); an old key goes (R288). CONNECT is sent again after 100 µs, ten times in all (R266), and a close ends when its wait does (R268). -/
def Obligations.ConnectionEventsComplete : Prop :=
  (∀ (s : State) (t n msn : Nat) (c : Conn) (m : RxMsg), let a := s.advance t
    a.conns.get? n = some c → a.frozen = false → c.state = .opened → c.nextNotice = some (msn, m) →
    let y := a.modConn n (fun c =>
      let k := { c with rxMsgs := c.rxMsgs.adjust msn (fun m => { m with notified := true, bytes := [] }) }
      if serLe msn k.watermark then { k with rxMsgs := k.rxMsgs.erase msn } else k.advanceMark 1025)
    exec (.messageNotify t n) s = .next (
      if m.op = 1 then y.notifyImm n c m
      else if a.cmdRoom c then (y.modConn n (fun c => { c with cmdQ := c.cmdQ ++ [m.command], cmdAdmitted := c.cmdAdmitted + 1 })).joinRing c n
      else (a.modConn n (fun c => { c with rxMsgs := c.rxMsgs.adjust msn (fun m =>
        { m with mark := .deferred, bytes := [], placed := 0, total := none }) })).kNack n .busy m.psn msn 0 m.ent 0)) ∧
  (∀ (s : State) (t n : Nat) (c : Conn), let a := s.advance t
    a.conns.get? n = some c → a.frozen = false → c.onDie = false → c.parked.isEmpty = false →
    let y := ((a.unpark n).makeRoom c.ridge).modConn n (fun c => { c with onDie := true, lru := a.now })
    exec (.contextFetchDone t n true) s = .next (c.parked.foldl (fun (s : State) e => s.kCheck5 n e.2) y)) ∧
  (∀ (s : State) (t n : Nat) (c : Conn), let a := s.advance t
    a.conns.get? n = some c → a.frozen = false → c.onDie = false → c.parked.isEmpty = false →
    exec (.contextFetchDone t n false) s =
      .next (((a.bumpN 2049).report { ErrRec.of .uncorr c.ridge .none with handle := n }).failConn n)) ∧
  (∀ (s : State) (t n at_ : Nat) (c : Conn), let a := s.advance t
    a.conns.get? n = some c → c.rtoAt = some at_ → a.frozen = false → c.state = .opened → at_ ≤ a.now → c.unacked.isEmpty = false →
    let y := (a.fetchFor n).bumpR c.ridge 83
    let z := y.modConn n (fun c =>
      let k := { c with backoff := c.backoff + 1, cwnd := c.seg, lastDec := y.now }
      { k with rtoAt := some (y.now + k.rto) })
    exec (.rtoExpiry t n) s = .next (if y.retryMax < c.backoff + 1 then y.failConn n
      else c.unacked.foldl (fun (s : State) p => s.kResend n p) z)) ∧
  (∀ (s : State) (t n at_ : Nat) (c : Conn), let a := s.advance t
    a.conns.get? n = some c → c.oldestUnacked = some at_ → a.frozen = false → c.state = .opened → at_ + a.ackDelay * 1000 ≤ a.now →
    exec (.ackDelayExpiry t n) s = .next ((a.fetchFor n).kAck n c.oldestEnt)) ∧
  (∀ (s : State) (t n : Nat) (c : Conn), let a := s.advance t
    a.conns.get? n = some c → a.frozen = false → c.state = .connecting → c.connectAt + 100000 ≤ a.now →
    exec (.connectResend t n) s = .next (if 10 ≤ c.connects then a.failConn n else a.sendConnect n)) ∧
  (∀ (s : State) (t n : Nat) (c : Conn), let a := s.advance t
    a.conns.get? n = some c → a.frozen = false → c.state = .opened →
    let pkts := c.unacked.filter (fun p => isDueAt p.retryAt a.now)
    let msgs := c.msgs.filter (fun m => isDueAt m.retryAt a.now)
    exec (.retryAfterExpiry t n) s = .next
      (msgs.foldl (fun (s : State) m => s.resendWhole n m) (pkts.foldl (fun (s : State) p => s.resendPkt n p) a))) ∧
  (∀ (s : State) (t n at_ : Nat) (c : Conn), let a := s.advance t
    a.conns.get? n = some c → c.closingAt = some at_ → a.frozen = false → (at_ ≤ a.now ∨ c.quiet = true) →
    exec (.connCloseTimeout t n) s = .next ((a.closeConn n).answerBusy c.closer .ok 0 [])) ∧
  (∀ (s : State) (t n at_ : Nat) (c : Conn), let a := s.advance t
    a.conns.get? n = some c → c.oldKeyAt = some at_ → at_ ≤ a.now →
    exec (.oldKeyExpiry t n) s = .next ((a.fetchFor n).modConn n (fun c => { c with oldKeyAt := none, oldKeys := [] })))

/-- A Sync of the master's breakout is a phase measurement: the first one, or one beyond the step threshold while stepping is allowed,
steps the time, another slews it unless 1PPS gives the phase and the state is not FAULT (R302, R303, R305); an Announce is heard, and one
better than all others is the master; a Delay_Resp of the master's breakout sets the path delay (R301). The 1PPS input is the phase of a
second (R305). Without the master's Announce, or without a Sync for four Sync intervals, the time goes to HOLDOVER (R302); a whole second
of it makes a record (R304); 1PPS lost for 3 s gives the phase back to Sync; 1PPS out pulses once at each whole second (R305). -/
def Obligations.TimeEventsComplete : Prop :=
  (∀ (s : State) (t domain brk : Nat) (offset logInterval : Int) (x : State) (m : Announce), (s.advance t).ptpOn = true →
    (s.advance t).ptpFront domain brk = (x, true) → (x.bumpN 9).time.master = some (brk, m) →
    let b := x.bumpN 9
    let first := b.time.st == .unset
    let c : State := { b with time := { b.time with
      offset := offset, left := offset, lastSync := b.now, synced := true, syncInt := syncNs logInterval } }
    let d := c.ioFrame brk ptpQueue 68
    let e := if first then d.setTState .acquiring else d
    exec (.ptpSync t domain brk offset logInterval) s = .next (
      if (first || e.time.stepThUs * 1000 < offset.natAbs) && e.mayStep then e.stepTime
      else if e.countSync.time.ppsPhase && e.countSync.time.st != .fault then e.countSync else e.countSync.slew)) ∧
  (∀ (s : State) (t domain brk : Nat) (n : Announce) (x : State), (s.advance t).ptpOn = true →
    (s.advance t).ptpFront domain brk = (x, true) →
    exec (.ptpAnnounce t domain brk n) s = .next (x.hear brk n)) ∧
  (∀ (x : State) (brk : Nat) (n : Announce),
    (∀ e ∈ x.time.heard, (e.1 = brk ∧ e.2.gmIdentity = n.gmIdentity) ∨ lexLess (announceKey n brk) (announceKey e.2 e.1) = true) →
    (x.hear brk n).time.master = some (brk, n)) ∧
  (∀ (s : State) (t domain brk delay : Nat) (x : State) (m : Announce), (s.advance t).ptpOn = true →
    (s.advance t).ptpFront domain brk = (x, true) → x.time.master = some (brk, m) →
    exec (.ptpDelayResp t domain brk delay) s = .next { x with time := { x.time with delay := delay } }) ∧
  (∀ (s : State) (t : Nat), let a := s.advance t
    a.ppsRole = .input → a.ptpOn = true → a.time.st ≠ .unset →
    exec (.ppsInEdge t) s = .next (State.slew { a with time := { a.time with
      ppsPhase := true, lastPps := a.now, offset := a.ppsOffset, left := a.ppsOffset } })) ∧
  (∀ (s : State) (t : Nat), let a := s.advance t
    exec (.syncTimeout t true) s = .next a.unhear.holdover) ∧
  (∀ (s : State) (t : Nat), let a := s.advance t
    a.time.lastSync + 4 * a.time.syncInt ≤ a.now → exec (.syncTimeout t false) s = .next a.holdover) ∧
  (∀ (s : State) (t : Nat), let a := s.advance t
    a.time.st = .holdover → a.time.holdFrom + (a.time.holdRecs + 1) * 1000000000 ≤ a.now →
    exec (.holdoverSecond t) s = .next (State.timeRecord { a with time := { a.time with holdRecs := a.time.holdRecs + 1 } })) ∧
  (∀ (s : State) (t : Nat), let a := s.advance t
    a.time.ppsPhase = true → a.time.lastPps + 3000000000 ≤ a.now →
    exec (.ppsLoss t) s = .next { a with time := { a.time with ppsPhase := false, ppsChanges := a.time.ppsChanges + 1 } }) ∧
  (∀ (s : State) (t : Nat), let a := s.advance t
    a.ppsRole = .output → a.now % 1000000000 = 0 → a.time.st ≠ .unset → a.time.st ≠ .acquiring → a.ptpOn = true →
    a.time.lastPpsOut ≠ a.now →
    exec (.ppsOutEdge t) s = .next (State.emit { a with time := { a.time with lastPpsOut := a.now } } (.pps a.now)))

/-- An ARP or neighbour request for an own address of the breakout is answered (R17, R24); a frame that is no Kalad, PTP or ARP frame, a
PAUSE and a bad FCS are dropped and counted (R297, R423); a wake frame wakes the node from A2 (R481). A breakout at the end of a frame,
with link and awake, accounts its idle time and starts the frame its slot and arbitration choose, or none (R307); a link goes down, its
frames discarded (R299), and comes up, ridge 0 told (R403); a gate list and the shutter schedule are taken over at their instants (R311,
R314). -/
def Obligations.FrameAndPortEventsComplete : Prop :=
  (∀ (s : State) (t brk target : Nat) (f : Fabric), let a := s.advance t
    a.ptpOn = true → (a.brk brk).link = true → a.trace.held = false → a.fab.cur = some f →
    f.portAddrs.any (fun p => p.breakout == brk && (p.ipv6 == target || p.ipv4 == some target)) = true →
    exec (.arpRx t brk target true) s = .next ((a.emit (.arpReply brk target)).ioFrame brk arpQueue 64)) ∧
  (∀ (s : State) (t brk : Nat), ((s.advance t).brk brk).link = true →
    exec (.ethFrameDrop t brk .etherType) s = .next ((s.advance t).bumpN 7) ∧
    exec (.ethFrameDrop t brk .pause) s = .next (((s.advance t).bumpN 7).bumpN 8) ∧
    exec (.ethFrameDrop t brk .fcs) s = .next (((s.advance t).bumpN 6).lineError brk)) ∧
  (∀ (s : State) (t : Nat) (f : WakeFrame), let a := s.advance t
    a.dead = false → a.isWake f = true → a.trace.held = false → a.asleep = true → a.wakes 4 = true →
    exec (.wakeFrame t f) s = .next (a.wakeUp 4 f.breakout 0)) ∧
  (∀ (s : State) (t x : Nat), let a := s.advance t
    (a.brk x).busyTo ≤ a.now → a.brkExists x = true → a.trace.held = false →
    let y := a.accountIdle x a.now
    let z := y.modBrk x (fun b => { b with sending := none, shapers := b.shapers.mapVals (fun k h => b.credit k y.now h) })
    let w := z.modBrk x (fun b => { b with decidedAt := z.now })
    let slot := (w.brk x).slotAt w.now
    (w.brk x).link = true → w.dead = false → w.asleep = false →
    exec (.egressDecision t x) s = .next (match w.choose7 x (w.brk x) slot.1 slot.2 [7, 6, 5, 4, 3, 2, 1, 0] with
      | none => w
      | some (c, q, f, defs) => w.startFrame7 x slot.1 c q f defs)) ∧
  (∀ (s : State) (t x : Nat), let a := s.advance t
    (a.brk x).link = true →
    let y := (a.modBrk x (fun b => { b with link := false, queue := [], sending := none })).bumpN (16 + x)
    let z := y.weighLanes x 50 false
    exec (.linkDown t x) s =
      .next ((z.report (ErrRec.of .link 31 (.lane (((z.lanesOf x)[0]?).getD 0)))).raiseCause 0 causeLink)) ∧
  (∀ (s : State) (t x : Nat), let a := s.advance t
    (a.brk x).link = false → a.brkExists x = true → a.power.state ≠ 3 → a.dead = false → a.sns.lost.contains (.eth (x / 4)) = false →
    exec (.linkUp t x) s = .next ((a.modBrk x (fun b => { b with link := true })).raiseCause 0 causeLink)) ∧
  (∀ (s : State) (t r x : Nat), let a := s.advance t
    exec (.gateTakeover t r x) s = .next (a.modBrk x (fun b => { b with gates := b.gates.adjust r (·.takeover a.now) }))) ∧
  (∀ (s : State) (t x : Nat) (slots : List (Nat × Nat)) (at_ : Nat), let a := s.advance t
    (a.brk x).shutter.pend = some (slots, at_) → at_ ≤ a.now →
    exec (.shutterTakeover t x) s = .next ((a.accountIdle x at_).modBrk x (fun b => { b with
      shutter := b.shutter.takeover (a.accountIdle x at_).now })))

-- Completion of the ports' and the fabric's own instants.

/-- A pending description becomes current at its activation time (R19); past DRAIN_AT the previous epoch is refused (R23, R445); exposure n
opens: once in each exposure the tempo is published and the requests that wait for it start (R144, R146, R352); a request's deadline
instant passes (R145). -/
def Obligations.FabricInstantsComplete : Prop :=
  (∀ (s : State) (t : Nat) (f : Fabric), let a := s.advance t
    a.fab.pend = some f → f.actTime ≤ a.now → exec (.fabricActivation t) s = .next (a.becomeCurrent f)) ∧
  (∀ (s : State) (t : Nat), let a := s.advance t
    a.fab.drainAt ≤ a.now → exec (.drainDeadline t) s = .next { a with fab := { a.fab with drainAt := 0 } }) ∧
  (∀ (s : State) (t n : Nat) (f : Fabric), let a := s.advance t
    a.fab.cur = some f → openingOf f n ≤ a.now → a.now < openingOf f (n + 1) → a.asleep = false → a.dead = false →
    a.sns.boundaryAt ≠ some (openingOf f n) →
    let b : State := { a with sns := { a.sns with boundaryAt := some (openingOf f n) } }
    let y := (b.tempo n).film 0x0A .ioRing 31 [n, ((b.tempo n).ridge 0).tempoLevel, (b.tempo n).sns.issueK]
    exec (.exposureBoundary t n) s = .next (if y.frozen then y else y.startDue)) ∧
  (∀ (s : State) (t slot : Nat), exec (.deadlineInstant t slot) s = .next ((s.advance t).deadlineDue slot))

-- Completion of the engines' own events (R87 to R145, R158 to R164, R188 to R235, R249).

/-- A request's operands are placed and it goes on (R95, R96); its thin phase ends when no segment is left (R108, R227); its dense phase
ends when it has nothing left (R145); its output is delivered (R113). A ready item is dispatched in its cirque, whose clocks run again
(R158, R476); a fed item that is not stalled completes and gives its result (R160, R164); a merge is accepted (R161); a spill ends and
the cell takes the item that caused it (R162); a fill counts what it read and places the page (R87, R89). -/
def Obligations.RequestAndCellEventsComplete : Prop :=
  (∀ (s : State) (t slot : Nat) (data : Option (List Byte)) (q : Request) (bytes : List Byte), let a := s.advance t
    a.frozen = false → a.reqs.get? slot = some q → q.phase = .fetching → a.placedBytes q data = some bytes →
    a.operandBytes q ≤ bytes.length → (a.now ≤ q.deadline ∨ q.desc.srcOf.qsrc ≠ 3 ∧ q.placed = true) →
    let y := if q.desc.srcOf.qsrc = 3 then a.event none 0x0D (a.operandBytes q) else a
    exec (.queryPlaced t slot data) s = .next (y.operands slot q (bytes.take (a.operandBytes q)))) ∧
  (∀ (s : State) (t slot : Nat) (err : MemErr) (q : Request), let a := s.advance t
    a.reqs.get? slot = some q → a.frozen = false → q.phase = .thin → a.segsOf slot = 0 →
    exec (.thinPhaseDone t slot err) s = .next (if q.opcode = 0x28 then a.thinQuery slot err else a.selectPages slot err)) ∧
  (∀ (s : State) (t slot : Nat) (q : Request), let a := s.advance t
    a.reqs.get? slot = some q → a.frozen = false → a.denseDone slot q = true →
    exec (.requestFinish t slot) s = .next (if q.opcode = 0x28 then a.finishQuery slot else a.finishAttend slot)) ∧
  (∀ (s : State) (t slot : Nat) (ok : Bool) (q : Request), let a := s.advance t
    a.frozen = false → a.reqs.get? slot = some q → q.phase = .output → q.desc.outOf.out = 2 →
    exec (.outputDelivered t slot ok) s = .next (a.delivered slot q ok)) ∧
  (∀ (s : State) (t slot : Nat) (ok b : Bool) (q : Request), let a := s.advance t
    a.frozen = false → a.reqs.get? slot = some q → q.phase = .output → q.desc.outOf.out ≠ 2 → q.outDone = some b →
    exec (.outputDelivered t slot ok) s = .next (a.delivered slot q b)) ∧
  (∀ (s : State) (t q : Nat), let a := s.advance t
    a.frozen = false → (a.cirque q).ready.isEmpty = false →
    exec (.itemDispatch t q) s = .next (State.dispatch (if (a.cirque q).gated then
      (a.chargeCirque q).modCirque q (fun k => { k with gated := false }) else a) q)) ∧
  (∀ (s : State) (t q cell : Nat) (flip : Option (Nat × W32)) (i : Item) (r : Request) (w : Work), let a := s.advance t
    ((a.cirque q).cell cell).item = some i → a.frozen = false → ((a.cirque q).cell cell).fed = true →
    ((a.cirque q).cell cell).stallTo ≤ a.now → ((a.cirque q).cell cell).bad = false →
    let y := a.onCell q cell (fun x => { x with item := none, fed := false, bad := false, buffer := none })
    y.reqs.get? i.req = some r → r.opcode ≠ 0x28 → (a.reqs.get? i.req).bind (fun r => a.workOf q cell r i) = some w →
    let z := y.film 0x06 (.cell (75 * q + cell)) r.ridge [1, i.req, i.page, i.head]
    let pairs := r.desc.blockPairs (r.desc.blockSize w.f.d r.prog) i.head i.block
    exec (.itemComplete t q cell .none flip) s = .next
      (((((z.itemEvents q w i.page pairs).itemResult q cell r i ((w.item i.page pairs).flip flip)).afterItem q cell i).prefetchAhead
        i.req))) ∧
  (∀ (s : State) (t q : Nat), let a := s.advance t
    a.frozen = false → exec (.mergeAccept t q) s = .next ((a.drainLane 129 q).mergeAccept q)) ∧
  (∀ (s : State) (t q cell : Nat), let a := s.advance t
    let x := (a.cirque q).cell cell
    a.frozen = false → x.spilling = true →
    let y := if x.held.isSome then (a.bumpC q 0).bumpC q 1 else a.bumpC q 0
    let z := y.onCell q cell (fun x => { x with
      spilling := false
      held := none
      spills := match x.held with
        | some h => putHeld x.spills h
        | none => x.spills })
    exec (.spillComplete t q cell) s = .next (z.giveMark q cell)) ∧
  (∀ (s : State) (t q slot start : Nat) (kind : FillKind) (err : MemErr) (p : Page), let a := s.advance t
    a.frozen = false → (a.cirque q).fills.find? (fun f => f.1 == slot && f.2.1 == kind) = some (slot, kind, start) →
    a.pages.get? slot = some p →
    let n := granules p.stored
    let b := a.modCirque q (fun k => { k with fills := k.fills.erase (slot, kind, start) })
    let c := (b.bumpBy (.ridge p.ridge 68) n).bumpBy (.ridge p.ridge 69) (granules p.coded)
    let d := ((c.dramRead (slotCirque slot) (8 + n)).event (some q) (4 + fillCode kind) 1).event (some q) 0x09 p.coded
    let e := d.film 0x08 (.cirque q) p.ridge [fillCode kind, slot % slotsPerCirque, 8 + n]
    exec (.fillComplete t q slot kind err) s = .next (match e.fillRead slot p err with
      | (f, some (g, cause)) => f.fillFailed q slot g p cause
      | (f, none) => if kind = .stream then f.streamGood q slot p else f.frameGood q slot p))

/-- The encoder seals the first page of a cirque's queue (R249, R250); a held APPEND or INGEST goes on (R71), a FORK whose shared pages are
sealed copies its descriptor (R61), and a closing sequence is released (R72). -/
def Obligations.PageEventsComplete : Prop :=
  (∀ (s : State) (t q key : Nat) (rest : List Nat) (p : Page), let a := s.advance t
    a.trace.held = false → a.dead = false → a.asleep = false → (a.cirque q).sealQ = key :: rest →
    let b := a.modCirque q (fun k => { k with sealQ := rest })
    b.pages.get? key = some p → p.bad = [] →
    exec (.pageSeal t q .none) s = .next (b.sealGood key p)) ∧
  (∀ (s : State) (t slot : Nat), let a := s.advance t
    a.frozen = false → a.isHeld slot 0x02 = true → exec (.ringReuseResume t slot) s = .next (a.runAppend slot)) ∧
  (∀ (s : State) (t slot : Nat), let a := s.advance t
    a.frozen = false → a.isHeld slot 0x02 = false → a.isHeld slot 0x06 = true →
    exec (.ringReuseResume t slot) s = .next (a.runIngest slot)) ∧
  (∀ (s : State) (t slot : Nat) (r : Request) (q : SeqD), let a := s.advance t
    a.frozen = false → a.reqs.get? slot = some r → r.phase = .forkWait → a.seqOf r.ridge r.desc.handle = some q →
    (a.forkWaits q r.desc.forkPos).isEmpty = true → exec (.forkResume t slot) s = .next (a.runFork slot)) ∧
  (∀ (s : State) (t index : Nat), let a := s.advance t
    a.frozen = false → exec (.sequenceRelease t index) s = .next (a.releaseSeq index))

/-- A ring's next span is fetched again once a request slot is free (R383), read whole and held for submission (R381), and a ring's
pending completions raise its MSI-X after COAL_US (R381). A failed read puts an Active host ring into Error, and ends the request whose
operands cannot be had (R370). A PCIe replay weighs 1 on the I/O ring (R423); a function-level reset returns the function's own
registers, and for a VF stops its rings (R371); the host's NumVFs and VF Enable are taken, at most 16 (R368). -/
def Obligations.RingAndPcieEventsComplete : Prop :=
  (∀ (s : State) (t r i : Nat) (g : Ring), let a := s.advance t
    a.rings.get? (ringKey r i) = some g → a.frozen = false → g.slotWait = true → a.slotFree r = true →
    exec (.ringSpanFetch t r i) s = .next (a.modRing (ringKey r i) (fun g => { g with slotWait := false }))) ∧
  (∀ (s : State) (t r i at_ : Nat) (g : Ring), let a := s.advance t
    a.rings.get? (ringKey r i) = some g → g.coalSince = some at_ → a.frozen = false → at_ + 1000 * g.coalUs ≤ a.now → g.state ≠ .stopped →
    exec (.coalTimeout t r i) s = .next (a.ringMsix (ringKey r i) g)) ∧
  (∀ (s : State) (t r i span : Nat) (g : Ring), let a := s.advance t
    a.rings.get? (ringKey r i) = some g → a.frozen = false → g.host = true → g.state = .active → a.ridgeUp r = true →
    g.slotWait = false → 1 ≤ span → span < g.entries → span ≤ g.waiting → g.outstanding + g.fetched.length + g.unread < g.entries →
    let first := (g.sqHead + g.fetched.foldl (· + ·) 0) % g.entries
    let b := (spanReads g.sqAddr g.entries first span).foldl (fun (s : State) x =>
      (s.emit (.hostRead g.creator x.1 x.2)).event none 0x0C 1) a
    exec (.submissionFetchComplete t r i span) s =
      .next ((b.event none 0x0D (128 * span)).modRing (ringKey r i) (fun g => { g with fetched := g.fetched ++ [span] }))) ∧
  (∀ (s : State) (t r i : Nat) (g : Ring), let a := s.advance t
    a.rings.get? (ringKey r i) = some g → a.frozen = false → g.host = true → g.state = .active →
    exec (.pcieReadFailed t (.fetch r i)) s = .next (a.ringError r i)) ∧
  (∀ (s : State) (t slot : Nat) (q : Request), let a := s.advance t
    a.reqs.get? slot = some q → a.frozen = false → q.phase = .fetching → q.desc.srcOf.qsrc = 3 →
    exec (.pcieReadFailed t (.query slot)) s = .next (a.queryLate slot q)) ∧
  (∀ (s : State) (t : Nat), exec (.pcieReplay t) s = .next ((s.advance t).weigh .ioRing 1 false)) ∧
  (∀ (s : State) (t : Nat), exec (.functionLevelReset t .pf) s = .next ((s.advance t).modFunc 0 Func.reset)) ∧
  (∀ (s : State) (t r : Nat), exec (.functionLevelReset t (.vf r)) s =
    .next (((s.advance t).stopRings (fun f => f == .vf r)).modFunc r Func.reset)) ∧
  (∀ (s : State) (t numVfs : Nat) (enable : Bool),
    exec (.sriovVfEnable t numVfs enable) s = .next { s.advance t with numVfs := min numVfs 16, vfEnable := enable })

/-- The Cairn units' own events: a merge's next stripe takes over when no older QUERY uses the retired one (R235); a segment ends (R188); a
group's aperture is live (R172); the tick meters the stack and starts what its budget allows (R196 to R198); a refresh is issued, owed or
preempts (R193, R194); an idle group leaves the mode (R173). -/
def Obligations.CairnEventsComplete : Prop :=
  (∀ (s : State) (t r i q no : Nat) (x : Index) (m : Nat), let a := s.advance t
    a.indexes.get? (indexKey r i) = some x → (x.part q).merge = some (m, no) → a.frozen = false →
    (x.part q).retired.any (fun e => a.queryBefore r (indexHandle i x.gen) e.2) = false →
    let p := (x.part q).switched m no a.nextOrder
    let n := x.p.granulesOf ((p.stripes.get? no).getD []).length
    let b := ((a.dramRead q n).dramWrite q n).modPart (indexKey r i) q (fun _ => p)
    exec (.stripeSwitch t r i q) s = .next ((b.bump (.index r i 4)).mergeFrom r (indexHandle i x.gen) q m (no + 1))) ∧
  (∀ (s : State) (t q bank : Nat) (met : SegMet) (g : Segment), let a := s.advance t
    a.frozen = false → (a.bank (bankKey q bank)).running = some g →
    exec (.segmentComplete t q bank met) s = .next (if a.apertureLive q bank then a.endSegment q bank g met else a.notInMode q bank g)) ∧
  (∀ (s : State) (t q g : Nat), let a := s.advance t
    a.frozen = false → (a.group (groupKey q g)).entering.isSome = true →
    let b := (a.modGroup (groupKey q g) (fun g => { g with mode := true, entering := none })).resetUnits q g 0
    (b.kickCirque q).allInMode q = false →
    exec (.modeEntryComplete t q g) s = .next (b.kickCirque q)) ∧
  (∀ (s : State) (t k : Nat), let a := s.advance t
    a.frozen = false → (a.stack k).lastTick < a.now / 1000 →
    let cfg := (a.cairnCfg.get? (k / 2)).getD { budget := 560, actTh := 280, linger := 5 }
    let b := a.modStack k (fun x => x.tick cfg (a.now / 1000))
    let c := if (b.stack k).throttled then b.bumpC (k / 2) 23 else b
    let d := if (c.stack k).hot then (c.bumpC (k / 2) 24).hotFallback k else c
    exec (.cairnTick t k) s = .next ((d.startSegments 128 k).zeroRows k)) ∧
  (∀ (s : State) (t q bank : Nat), let a := s.advance t
    a.frozen = false →
    let b := a.bank (bankKey q bank)
    b.refDue ≤ 32 * a.now →
    let due := (if b.refDue = 0 then 32 * a.now else b.refDue) + (a.stack (bankStack q bank)).refInterval
    let x := a.modBank (bankKey q bank) (fun b => { b with owed := b.owed + 1, refDue := due })
    exec (.refreshDue t q bank) s = .next (
      if b.running.isNone then x.boundary (bankKey q bank)
      else if b.owed < 8 then x
      else (x.bumpC q 22).boundary (bankKey q bank))) ∧
  (∀ (s : State) (t q g at_ : Nat), let a := s.advance t
    a.frozen = false → (a.group (groupKey q g)).holders.isEmpty = true → a.groupBusy q g = false →
    (a.group (groupKey q g)).lingerAt = some at_ → at_ ≤ a.now →
    exec (.lingerExpiry t q g) s = .next (a.leaveMode q g))

/-- The patrol reads the stack's next row and goes on to the one after it; a row without error is counted (R416). A Loupe scrub pass
scrubs every bank, and restores an entry found upset from its copy (R334, R335). Health decays each second (R424), and each minute the
advisories held back come in summaries (R425). Every PERIOD a lease's record is sent over its peer connection (R446); when an EXPIRES
passes the flag is evaluated (R447); a ridge without its role for ORPHAN_T reclaims its sequences and records it (R448). -/
def Obligations.HealthAndLeaseEventsComplete : Prop :=
  (∀ (s : State) (t k : Nat), let a := s.advance t
    a.frozen = false → a.zeroing (k / 2) = false → a.pages = [] →
    let n := (a.stack k).patrolRow
    let b := a.modStack k (fun x => { x with patrolRow := (n + 1) % 8388608 })
    b.zeroing (k / 2) = false → (b.bumpN 2054).pages = [] →
    exec (.patrolRead t k .none) s = .next (b.bumpN 2054)) ∧
  (∀ (s : State) (t : Nat), let a := s.advance t
    a.frozen = false → a.now % 2000000 = 0 →
    exec (.scrubPass t none false) s = .next ((a.loupe.banks.map (·.1)).foldl State.scrubBank a)) ∧
  (∀ (s : State) (t b i : Nat) (e : LEntry), let a := s.advance t
    a.frozen = false → a.now % 2000000 = 0 →
    let x := (a.loupe.banks.map (·.1)).foldl State.scrubBank a
    (x.lBank b).shadow.get? i = some e →
    exec (.scrubPass t (some (b, i)) false) s =
      .next (x.fixUnits b i 1)) ∧
  (∀ (s : State) (t : Nat), let a := s.advance t
    a.asleep = false → a.dead = false → a.health.lastDecay + 1000000000 ≤ a.now →
    let new := a.health.scores.map (fun h => h.decayed a.health.cfg a.now)
    let b : State := { a with health := { a.health with scores := new, lastDecay := a.now } }
    exec (.healthDecay t) s = .next ((a.health.scores.zip new).foldl (fun (s : State) p =>
      if p.1.level = p.2.level then s else s.levelChange p.2.comp p.2.score p.1.level p.2.level) b)) ∧
  (∀ (s : State) (t : Nat), let a := s.advance t
    a.asleep = false → a.dead = false → a.health.advMinuteFrom + 60000000000 ≤ a.now →
    let l := summaries a.health.advHeld
    let b : State := { a with health := { a.health with
      advHeld := l.drop 16, advMinuteFrom := a.now, advCount := (l.take 16).length } }
    exec (.advisoryMinute t) s =
      .next ((l.take 16).foldl (fun (s : State) e => s.advise e.1 (s.healthOf e.1).score e.2.1 e.2.2) b)) ∧
  (∀ (s : State) (t id : Nat), let a := s.advance t
    exec (.injectExpiry t id) s = .next { a with health := { a.health with
      injs := a.health.injs.filter (fun j => !(j.id == id && decide (j.expiry ≤ a.now))) } }) ∧
  (∀ (s : State) (t r n : Nat) (l : Lease) (k : Nat), let a := s.advance t
    (a.ridge r).lease = some l → a.frozen = false → l.lastSend + l.p.period * 1000 ≤ a.now → l.p.peer = some (k, n) →
    let b := a.modLease r (fun l => { l with lastSend := a.now })
    exec (.leaseRecordSend t r) s = .next
      (match b.kSend n 1 l.p.peerRegion 0 0 (leaseBytes l b.leaseNode b.now b.boot.deviceId.toNat) (.lease r) with
        | none => b
        | some (c, _) => c)) ∧
  (∀ (s : State) (t r : Nat), exec (.leaseExpiry t r) s = .next ((s.advance t).leaseCheck r)) ∧
  (∀ (s : State) (t r : Nat) (l : Lease), let a := s.advance t
    (a.ridge r).lease = some l → a.frozen = false → l.holding = false → l.reclaimed = false → l.p.orphan ≠ 0 →
    l.lostAt + l.p.orphan * 1000000000 ≤ a.now →
    exec (.orphanReclaim t r) s = .next
      ((((a.liveSeqs r).foldl (fun (s : State) k => s.reclaim r k) (a.modLease r (fun l => { l with reclaimed := true }))).bumpN
        2064).report { ErrRec.of .lease r .none with count := min 65535 (a.liveSeqs r).length }))

/-- A request beyond its watchdog period is reported (R464); a SYNC record comes at each whole millisecond (R459); at an armed T the node
holds its cut (R468), written it raises STOP and records it (R469), and HOLD_MAX releases it (R470). -/
def Obligations.TraceEventsComplete : Prop :=
  (∀ (s : State) (t slot : Nat) (q : Request), let a := s.advance t
    a.reqs.get? slot = some q → a.frozen = false → q.watchFired = false → q.phase ≠ .posted → q.phase ≠ .waiting →
    (a.ridge q.ridge).watchdogMs ≠ 0 →
    q.startedAt.getD q.admittedAt + q.heldNs + (a.ridge q.ridge).watchdogMs * 1000000 ≤ a.now →
    exec (.watchdogFire t slot) s = .next (a.watchdog slot q (q.startedAt.getD q.admittedAt))) ∧
  (∀ (s : State) (t : Nat), let a := s.advance t
    a.asleep = false → a.dead = false → a.trace.lastSync / 1000000 < a.now / 1000000 →
    let b : State := { a with trace := { a.trace with lastSync := a.now } }
    exec (.filmstripSync t) s = .next (b.film 0x01 .none 31 [a.now / 1000000000, a.time.st.code, a.nodeNo])) ∧
  (∀ (s : State) (t at_ hold : Nat), let a := s.advance t
    a.trace.armed = some (at_, hold) → at_ ≤ a.now → a.asleep = false → a.dead = false →
    let b := a.chargeAll false
    exec (.stopCut t) s = .next (State.bumpN { b with trace := { b.trace with
      armed := none, held := true, written := false, holdMaxS := hold, cutAt := at_ } } 2306)) ∧
  (∀ (s : State) (t : Nat), let a := s.advance t
    a.trace.held = true → a.trace.written = false → a.dead = false →
    let b : State := { a with trace := { a.trace with written := true } }
    exec (.cutWritten t) s = .next ((b.raiseCause 0 causeStop).film 0x0F .none 31 [0, a.trace.cutAt])) ∧
  (∀ (s : State) (t : Nat), let a := s.advance t
    a.trace.held = true → a.trace.cutAt + a.trace.holdMaxS * 1000000000 ≤ a.now → a.dead = false →
    exec (.holdMaxExpiry t) s = .next a.release)

/-- THROTTLE_STEP sets issue to k of 16 cycles (R167); the sensors' readings stand in the SNS block and the stacks (R174, R508); an
entry ends in its target state with the answer written, and a latched wake starts the exit (R479, R483); a wake starts the exit (R480);
at the end of the exit's time the node is in A0 and serves what waited (R484, R485); an idle cirque's clocks stop in A1 (R476). A cold
reset boots the node anew (R487, R502); a supply excursion of more than 20 µs does so and is recorded (R503); PERST# resets the host
interface at once while awake (R488) and is queued with a wake asleep (R486); a lost SYS_REFCLK stops the engines until it returns with
a cold reset (R504); THERMTRIP stops every clock (R506, R507). -/
def Obligations.PowerAndResetEventsComplete : Prop :=
  (∀ (s : State) (t k : Nat), let a := s.advance t
    4 ≤ k → k ≤ 16 → a.frozen = false → k ≠ a.sns.issueK → (a.sns.issueK < k → a.hot = false ∧ a.sns.avsOk = true) →
    let b := a.chargeAll false
    let c : State := { b with sns := { b.sns with issueK := k, lowK := min b.sns.lowK k } }
    exec (.throttleStep t k) s = .next (c.film 0x0B .none 31 [k])) ∧
  (∀ (s : State) (t : Nat) (r : Sensors), let a := s.advance t
    a.asleep = false → a.dead = false →
    let b := (r.stackTemps.zipIdx.filter (fun e => decide (e.2 < 32))).foldl (fun (s : State) e =>
      s.modStack e.2 (fun x => { x with temp := min 127 e.1 })) a
    let c : State := { b with sns := { b.sns with
      dieMax := min 255 r.dieMax, stackMax := min 255 (r.stackTemps.foldl max 0), substrate := min 255 r.substrate
      power := min 65535 r.power, measMv := min 4095 r.measMv } }
    exec (.sensorUpdate t r) s = .next (c.avsWrite r.avsAcks)) ∧
  (∀ (s : State) (t : Nat), let a := s.advance t
    a.power.transit = .entering → a.dead = false → a.cirques.any (fun e => !e.2.sealQ.isEmpty) = false →
    let b := (a.powerDown a.power.target).answerBusy a.power.waiter .ok 0 []
    let c := State.bumpN { b with power := { b.power with
      state := a.power.target, transit := .none, target := 0, waiter := none, since := b.now } } (2335 + a.power.target)
    exec (.pwrEntryComplete t) s = .next (if c.power.wake.isSome then (c.startExit true).bumpN 2340 else c)) ∧
  (∀ (s : State) (t source brk : Nat) (fn : Fn), let a := s.advance t
    a.dead = false → a.asleep = true → a.wakes source = true →
    exec (.wakeEvent t source brk fn none) s =
      .next (a.wakeUp source (if source = 4 ∨ source = 5 then brk else 0) (if source = 1 then fn.key else 0))) ∧
  (∀ (s : State) (t : Nat) (imageOk : Bool), let a := s.advance t
    let bad := a.power.fromState = 3 && !imageOk
    a.power.transit = .exiting → a.dead = false → a.power.exitAt + (if bad then 300000000 else 0) ≤ a.now →
    exec (.a0Reported t imageOk) s = .next (a.reachA0 bad).drainQueued) ∧
  (∀ (s : State) (t q : Nat), let a := s.advance t
    a.frozen = false → a.power.state = 1 → (a.cirque q).gated = false → (a.cirque q).idle? = true →
    (a.cirque q).idleSince + 50000 ≤ a.now →
    exec (.cellRegate t q) s = .next ((a.chargeCirque q).modCirque q (fun k => { k with gated := true }))) ∧
  (∀ (s : State) (t : Nat) (c : ColdInputs), exec (.coldReset t c) s = .next ((s.advance t).cold c none)) ∧
  (∀ (s : State) (t code us : Nat) (c : ColdInputs), 20 < us →
    exec (.supplyExcursion t code us c) s =
      .next ((s.advance t).cold c (if c.aonLost || code < 1 || 9 < code then none else some code))) ∧
  (∀ (s : State) (t : Nat), let a := s.advance t
    (a.asleep = false ∨ a.dead = true) → exec (.perstReset t) s = .next a.perst) ∧
  (∀ (s : State) (t : Nat), let a := s.advance t
    a.sns.lost.contains .sys = false →
    let b := if a.frozen then a else a.chargeAll false
    exec (.clockLoss t .sys) s = .next { b with sns := { b.sns with lost := b.sns.lost ++ [.sys] } }) ∧
  (∀ (s : State) (t : Nat) (c : ColdInputs), let a := s.advance t
    a.sns.lost.contains .sys = true →
    let b : State := { a with sns := { a.sns with lost := a.sns.lost.filter (fun x => x != .sys) } }
    exec (.clockReturn t .sys c) s = .next (b.cold c none)) ∧
  (∀ (s : State) (t celsius : Nat) (stack : Bool), let a := s.advance t
    (if stack then a.boot.limits.stackTrip else a.boot.limits.dieTrip) ≤ celsius → a.sns.tripped = false →
    let b := if a.frozen then a else a.chargeAll false
    exec (.thermtrip t celsius stack) s = .next (State.emit { b with sns := { b.sns with tripped := true } } .thermtripN))

/-- What a reset, a strip run or a switch began is completed: the warm reset reboots firmware and ends every mailbox session (R376, R488), a
ridge reset and a strip run answer their message (R364, R492), a staged image that passes its self-check becomes the running one, and
one that fails it leaves the old one running and a record (R365),
a held report goes after its time (R363), and a TRNG health failure is recorded (R366). -/
def Obligations.CompletionEventsComplete : Prop :=
  (∀ (s : State) (t : Nat) (c : ColdInputs), let a := s.advance t
    a.power.warmAt.isSome = true → a.dead = false →
    let b := (List.range 17).foldl State.warmAbsent a
    exec (.warmResetComplete t c) s = .next { b with
      boot := b.boot.boot c
      brks := b.brks.mapVals (fun x k => { k with mac := c.macs[x]?.getD k.mac })
      funcs := b.funcs.mapVals (fun _ f => { f with session := none, busy := none, done := false, overrun := false, resp := none })
      power := { b.power with warmAt := none, lastReset := 2 } }) ∧
  (∀ (s : State) (t r : Nat), let a := s.advance t
    a.frozen = false → (a.ridge r).resetAt.isSome = true →
    exec (.ridgeResetComplete t r) s = .next
      ((a.modRidge r (fun g => { g with resetAt := none, waiter := none })).answerBusy (a.ridge r).waiter .ok 0 [])) ∧
  (∀ (s : State) (t : Nat) (r : StripResult) (run : StripRun), let a := s.advance t
    a.strip.run = some run → a.frozen = false → a.strip.state = 1 →
    let cirqs := maskOf run.cirques
    let lanes := maskOf (run.breakouts.flatMap a.lanesOf)
    let logic := if run.logic then r.logic &&& cirqs else 0
    let mem := if run.memory then r.mem &&& (cirqs + maskOf run.banks * 65536) else 0
    let analog := if run.analog then r.analog &&& (lanes + lanes * 65536 + cirqs * 2 ^ 32 + 7 * 2 ^ 48) else 0
    let pass := logic = 0 && mem = 0 && analog = 0
    let x := { a.strip with state := 2, pass := pass, logic := a.strip.logic / 65536 * 65536 + logic, mem := mem, analog := analog,
                            doneAt := a.now, waiter := none, run := none }
    exec (.stripComplete t r) s =
      .next (State.answerBusy { a with strip := x } a.strip.waiter .ok 0 [flagBit pass 0, x.logic, mem, analog])) ∧
  (∀ (s : State) (t at_ : Nat) (fn : Fn) (x : Staged), let a := s.advance t
    a.boot.activation = some (at_, fn) → a.boot.staged = some x → at_ ≤ a.now → a.dead = false →
    let b : State := { a with boot := { a.boot with
      activation := none, svn := x.svn, meas := x.meas, staged := none, activeB := !a.boot.activeB, recovery := !a.boot.identity
      owner := a.boot.ownerNext.orElse (fun _ => a.boot.owner), ownerNext := none } }
    exec (.fwSwitch t true) s = .next ((b.raiseCause 0 causeFw).answerBusy (some fn) .ok 0 [])) ∧
  (∀ (s : State) (t at_ : Nat) (fn : Fn) (x : Staged), let a := s.advance t
    a.boot.activation = some (at_, fn) → a.boot.staged = some x → at_ ≤ a.now → a.dead = false →
    let b : State := { a with boot := { a.boot with activation := none } }
    exec (.fwSwitch t false) s =
      .next (((b.report (ErrRec.of .fw 31 .security)).raiseCause 0 causeFw).answerBusy (some fn) .hwFault 0 [])) ∧
  (∀ (s : State) (t : Nat) (fn : Fn) (r : Report), let a := s.advance t
    (a.func fn.key).report = some r → r.until_ ≤ a.now →
    exec (.attestReportHoldExpiry t fn) s = .next (a.modFunc fn.key (fun f => { f with report := none }))) ∧
  (∀ (s : State) (t : Nat), let a := s.advance t
    exec (.trngHealthFailure t) s =
      .next (State.report { a with boot := { a.boot with trngBad := true } } (ErrRec.of .trng 31 .security)))

/-- RIDGE_OPENED draws the key of an Opening ridge, sets its banks' widths, clears its counters, opens its meters and answers, or without
the TRNG makes it Absent again and answers HW_FAULT (R342, R345); RIDGE_CLOSE_COMPLETE stops what is left, zeroizes the key and answers, or
after three failed read-backs halts the ridge and answers HW_FAULT (R347, R350); RIDGE_ZEROED wipes the ridge, which is Absent (R347). -/
def Obligations.RidgeEventsComplete : Prop :=
  (∀ (s : State) (t r : Nat), let a := s.advance t
    a.frozen = false → (a.ridge r).state = .opening → a.boot.trngBad = false →
    let g := a.ridge r
    let b := a.draw.2.modRidge r (fun g => { g with
      key := some a.draws, keyEpoch := g.keyEpoch + 1, ridgeEpoch := g.ridgeEpoch + 1, waiter := none })
    let c := g.p.banks.foldl (fun (s : State) x =>
      s.modBankL x.1 (fun q => { q with width := widthCode x.2, entries := [], shadow := [] })) b
    let d := (g.p.cirques.foldl (fun (s : State) q => s.chargeCirque q) (c.clearTiming r)).clearCtrs (fun k => g.views r k)
    let e := d.modRidge r (fun g => { g with meter := { Meter.zero with epoch := d.epochNow, openAt := d.now } })
    let f := (e.modFunc r (fun f => { f with ready := true })).setRState r .opened
    exec (.ridgeOpened t r true) s = .next (f.answerBusy g.waiter .ok 0 (f.ridgeVals r))) ∧
  (∀ (s : State) (t r : Nat) (trngOk : Bool), let a := s.advance t
    let g := a.ridge r
    a.frozen = false → g.state = .opening → (trngOk = false ∨ a.boot.trngBad = true) →
    let b := (a.freeBanks g).modRidge r (fun g => g.again .opening RidgeParams.none)
    exec (.ridgeOpened t r trngOk) s =
      .next (((b.setRState r .absent).report (ErrRec.of .trng r .security)).answerBusy g.waiter .hwFault 0 [])) ∧
  (∀ (s : State) (t r : Nat) (readBacks : List Bool), let a := s.advance t
    let g := a.ridge r
    a.frozen = false → g.state = .closing → g.key.isSome = true → g.halted = false → (g.force = true ∨ a.commandsDone r = true) →
    (readBacks.take 3).contains true = true →
    let b := (a.abandonAll r).closeConns r
    let c := ((b.dropEntries g).disableVf r).stopCirques g
    let d := (c.modRidge r (fun g => { g with key := none, waiter := none })).zeroMode g
    exec (.ridgeCloseComplete t r readBacks) s = .next (d.answerBusy g.waiter .ok 0 (d.ridgeVals r))) ∧
  (∀ (s : State) (t r : Nat) (readBacks : List Bool), let a := s.advance t
    let g := a.ridge r
    a.frozen = false → g.state = .closing → g.key.isSome = true → g.halted = false → (g.force = true ∨ a.commandsDone r = true) →
    (readBacks.take 3).contains true = false →
    let b := (((a.abandonAll r).closeConns r).dropEntries g).disableVf r
    let c := ((b.stopCirques g).modRidge r (fun g => { g with halted := true, waiter := none })).logTo 0 (ErrRec.of .key r .security)
    exec (.ridgeCloseComplete t r readBacks) s = .next (c.1.answerBusy g.waiter .hwFault 0 [])) ∧
  (∀ (s : State) (t r : Nat), let a := s.advance t
    let g := a.ridge r
    a.frozen = false → g.state = .closing → g.key = none → g.rowsLeft.all (fun e => e.2 == 0) = true →
    let b := ((a.wipe r g).freeBanks g).clearCtrs (fun c => g.views r c)
    exec (.ridgeZeroed t r) s = .next ((b.modRidge r (fun g => g.again .closing RidgeParams.none)).setRState r .absent))

-- Reset, and the rules of the whole node.

/-- What cold reset leaves, where the spec gives it: no description and time UNSET (R17, R302), ridge 0 Open and every other ridge Absent
(R342), no VF (R368), no sequence, page, index, region or connection, issue in every cycle (R167), the gate list and the shutter of every
breakout (R311, R314), an EPOCH_DRAIN period of 20 ms (R445), the filmstrip off (R463) and no interrupt cause or enable set (R403). -/
def Obligations.ResetLeavesTheSpecsValues : Prop :=
  let s := State.reset
  s.pending = [] ∧ s.fab.cur = none ∧ s.fab.pend = none ∧ s.fab.drainUs = 20000 ∧ s.time.st = .unset ∧
  (s.ridge 0).state = .opened ∧ (∀ r, 1 ≤ r → r ≤ 16 → (s.ridge r).state = .absent) ∧ s.numVfs = 0 ∧ s.vfEnable = false ∧
  s.rings = [] ∧ s.seqs = [] ∧ s.pages = [] ∧ s.reqs = [] ∧ s.regions = [] ∧ s.indexes = [] ∧ s.conns = [] ∧
  s.sns.issueK = 16 ∧ s.power.state = 0 ∧ s.power.transit = .none ∧ s.trace.mode = .off ∧ s.trace.held = false ∧ s.strip.state = 0 ∧
  (∀ x, x < 8 → (s.brk x).shutter.run = CycList.ridge0 ∧ ∀ r, r ≤ 16 → ((s.brk x).gate r).run = CycList.openGate) ∧
  (∀ k, k < 18 → (s.func k).cause = 0 ∧ (s.func k).enable = 0 ∧ (s.func k).session = none)

/-- At reset every setting of the node lies in its range. -/
def Obligations.SettingsInRangeAtReset : Prop := State.reset.settings.ok = true

/-- Every step keeps every setting in its range: NumVFs at most 16, a current or pending description as R18 demands, DRAIN_PERIOD from
100 µs to 10 s, issue in 4 to 16 of 16 cycles and no lower since the exposure opened, the strip running exactly while it has a run, and
the mode and MTU of a port. -/
def Obligations.StepsKeepSettingsInRange : Prop :=
  ∀ s x : State, s.settings.ok = true → step s = .next x → x.settings.ok = true

/-- Only the operator's messages, the host's configuration space, resets, clocks, supplies and the node's own instants change the node's
settings: whatever a VF sends, whatever a data-path source commands, a BAR write does or a packet or frame brings, they stay as they
are. -/
def Obligations.SettingsChangeOnlyByTheirCommands : Prop :=
  ∀ (c : Instr) (s x : State), c.mayChangeSettings = false → exec c s = .next x → x.settings = s.settings

/-- No command puts another command into the queue or takes one out: only the step does. -/
def Obligations.CommandsLeaveTheQueue : Prop :=
  ∀ (c : Instr) (s x : State), exec c s = .next x → x.pending = s.pending

-- The data path's shared rules (R52, R53, R92, R142, R143, R390, R391).

/-- While a cut is held, outside A0 and A1 or without clocks, no data-path command is taken: only time passes (R393, R468, R504). -/
def Obligations.StoppedNodeTakesNoCommand : Prop :=
  ∀ (i : Instr) (s : State) (t : Nat) (src : Src) (d : Desc) (inl : List Byte) (layout : List (Nat × Nat × Nat)),
    i.dataPath = some (t, src, d, inl, layout) → (s.advance t).frozen = true → exec i s = .next (s.advance t)

/-- A data-path command that fails a condition of R390 or a check from 1 to 3 of R92 is turned away with that status, whatever else is
wrong with it, and the node's stored content is as before. -/
def Obligations.RefusedCommandsChangeNoContent : Prop :=
  ∀ (i : Instr) (s : State) (t : Nat) (src : Src) (d : Desc) (inl : List Byte) (layout : List (Nat × Nat × Nat)) (x : State) (c : Cmd)
    (st : Status),
    i.dataPath = some (t, src, d, inl, layout) → (s.advance t).frozen = false → (s.advance t).take src d inl = (x, some c) →
    x.preCheck c layout = some st →
    exec i s = .next ((x.reject c st 0 0).noteDrained c) ∧ ((x.reject c st 0 0).noteDrained c).store = s.store

/-- E_n is T0 + n × P, and exposure n ends at E_(n+1); the current exposure is the floor of (now − T0) / P, negative before T0, and the
window of R143 uses this signed value, while a tag is an unsigned number; a tagged command's deadline instant is E_n plus its DEADLINE_US,
or plus the default offset when that is 0. -/
def Obligations.ExposuresAndDeadlines : Prop :=
  (∀ (f : Fabric) (n : Nat), openingOf f n = f.t0 + n * f.period) ∧
  (∀ (f : Fabric) (now : Nat) (k : Int), 0 < f.period →
    (exposureAt f now = k ↔ (f.t0 : Int) + k * f.period ≤ now ∧ (now : Int) < f.t0 + (k + 1) * f.period)) ∧
  (∀ (f : Fabric) (now : Nat), 0 < f.period → now < f.t0 → exposureAt f now < 0) ∧
  (∀ (f : Fabric) (now n : Nat), 0 < f.period → (exposureAt f now = n ↔ openingOf f n ≤ now ∧ now < openingOf f (n + 1))) ∧
  (∀ (s : State) (f : Fabric) (n : Nat), s.tagOk f n = true → exposureAt f s.now - 16 ≤ (n : Int) ∧ (n : Int) ≤ exposureAt f s.now + 4) ∧
  (∀ d : Desc, d.exposure < 2 ^ 44) ∧
  (∀ (s : State) (f : Fabric) (d : Desc), s.fab.cur = some f → d.tagged = true →
    s.deadlineFor d = f.t0 + d.exposure * f.period + (if d.deadlineUs = 0 then f.deadlineUs else d.deadlineUs) * 1000)

/-- A command whose tag lies outside n_c − 16 to n_c + 4 completes with STATE_CONFLICT, whatever else is wrong with it: its descriptor, its
ridge, its epoch or its operands. -/
def Obligations.TagsOutsideTheWindowConflict : Prop :=
  ∀ (i : Instr) (s : State) (t : Nat) (src : Src) (d : Desc) (inl : List Byte) (layout : List (Nat × Nat × Nat)) (x : State) (c : Cmd)
    (f : Fabric),
    (i.dataPath = some (t, src, d, inl, layout) ∨ (i = .undefinedCommandOpcode t src d ∧ inl = [])) →
    (s.advance t).frozen = false → (s.advance t).take src d inl = (x, some c) → x.fab.cur = some f → c.d.tagged = true →
    ((c.d.exposure : Int) < exposureAt f x.now - 16 ∨ exposureAt f x.now + 4 < (c.d.exposure : Int)) →
    exec i s = .next ((x.reject c .stateConflict 0 0).noteDrained c)

/-- A handle names no sequence of the ridge when its generation is 0 or is not the descriptor's, when the descriptor is Free, or when it is
another ridge's; a command whose check 4 reads such a handle completes with BAD_HANDLE and leaves the node's stored content as it was. -/
def Obligations.StaleHandlesAreRefused : Prop :=
  (∀ (s : State) (r h : Nat), s.seqOf r h = none ↔
    (handleGen h = 0 ∨ s.seqs.get? (handleIdx h) = none ∨
      ∃ q, s.seqs.get? (handleIdx h) = some q ∧ (q.gen ≠ handleGen h ∨ q.ridge ≠ r))) ∧
  (∀ (i : Instr) (s : State) (t : Nat) (src : Src) (d : Desc) (inl : List Byte) (layout : List (Nat × Nat × Nat)) (x : State) (c : Cmd),
    i.dataPath = some (t, src, d, inl, layout) → i.namesSeq = true → s.taken t src d inl layout x c →
    x.seqOf c.ridge c.d.handle = none →
    exec i s = .next (x.reject c .badHandle 0 0) ∧ (x.reject c .badHandle 0 0).store = s.store)

/-- A command that names no index of its ridge completes with BAD_HANDLE and leaves the node's stored content as it was (R216, R225). -/
def Obligations.StaleIndexHandlesAreRefused : Prop :=
  ∀ (i : Instr) (s : State) (t : Nat) (src : Src) (d : Desc) (inl : List Byte) (layout : List (Nat × Nat × Nat)) (x : State) (c : Cmd),
    i.dataPath = some (t, src, d, inl, layout) → i.namesIndex = true → s.taken t src d inl layout x c →
    x.indexOf c.ridge c.d.index = none →
    exec i s = .next (x.reject c .badHandle 0 0) ∧ (x.reject c .badHandle 0 0).store = s.store

/-- A new sequence takes the lowest free descriptor under its current generation; with generations from 1 to 16,383 its handle is no 0 and
holds index and generation (R52); the generation after 16,383 is 1, and a generation stays in its range. -/
def Obligations.HandlesHoldIndexAndGeneration : Prop :=
  (∀ (s : State) (q : SeqD) (i : Nat), s.seqs.fresh 0 262144 = some i →
    let g := (s.gens.get? i).getD 1
    1 ≤ g → g ≤ 16383 →
    let p := s.putSeq q
    p.1 = i ∧ i < 262144 ∧ (∀ j, j < i → s.seqs.get? j ≠ none) ∧ p.2.handleAt i = g * 262144 + i ∧ p.2.handleAt i ≠ 0 ∧
    handleIdx (p.2.handleAt i) = i ∧ handleGen (p.2.handleAt i) = g ∧ p.2.seqOf q.ridge (p.2.handleAt i) = some { q with gen := g }) ∧
  (∀ g : Nat, 1 ≤ g → g ≤ 16383 → 1 ≤ nextGen g ∧ nextGen g ≤ 16383) ∧ nextGen 16383 = 1

/-- A closing sequence that holds no page and no request uses returns to Free, its generation one on (R52, R60, R72): its old handle is
stale from then on. -/
def Obligations.ReleaseAdvancesTheGeneration : Prop :=
  ∀ (s : State) (t idx : Nat) (q : SeqD), let a := s.advance t
    a.frozen = false → a.seqs.get? idx = some q → q.state = .closing → q.layers = [] → q.mirror = none →
    a.reqs.any (fun e => e.2.usesSeq (handleOf idx q.gen)) = false →
    exec (.sequenceRelease t idx) s = .next { a with seqs := a.seqs.erase idx, gens := a.gens.set idx (nextGen q.gen) }

-- The mailbox and its interrupts (R372 to R376, R393, R403, R480, R510).

/-- R510 decides by the first check that fails: framing, session, version, the BUSY of a switch or a warm reset, the opcode, rights, body;
a message that passes them all goes on to its own checks. -/
def Obligations.MailboxChecksInOrder : Prop :=
  ∀ (s : State) (h : MbxHdr) (op : Nat) (defined : Bool) (who : Rights),
    let f := s.func h.fn.key
    let hello := defined && op == 0x0001
    let version := (hello && h.proto == 0) || f.session == some h.proto
    let res := (s.mboxCheck h op defined who).map (·.1)
    (h.framing = false → res = some .malformed) ∧
    (h.framing = true → f.session = none → hello = false → res = some .noHello) ∧
    (h.framing = true → (f.session ≠ none ∨ hello = true) → version = false → res = some .malformed) ∧
    (h.framing = true → (f.session ≠ none ∨ hello = true) → version = true → (s.switching = true ∨ s.power.warmAt ≠ none) →
      res = some .busy) ∧
    (h.framing = true → (f.session ≠ none ∨ hello = true) → version = true → s.switching = false → s.power.warmAt = none →
      (defined = false → res = some .unsupported) ∧
      (defined = true → who = .ridge0 → h.fn.isVf = true → res = some .accessDenied) ∧
      (defined = true → (who ≠ .ridge0 ∨ h.fn.isVf = false) → (h.framed = false ∨ (h.fn.isVf = true ∧ h.ridge ≠ none)) →
        res = some .malformed) ∧
      (defined = true → (who ≠ .ridge0 ∨ h.fn.isVf = false) → h.framed = true → (h.fn.isVf = false ∨ h.ridge = none) → res = none))

/-- A mailbox message that finds the node asleep but with its power waits, wakes the node and is served after the exit; nothing else but
time and the counters changes, and no mailbox shows it (R393, R480). -/
def Obligations.MessagesWakeASleepingNode : Prop :=
  ∀ (s : State) (t : Nat) (h : MbxHdr), let a := s.advance t
    a.dead = false → a.asleep = true → (h.fn = .bmc ∨ a.writeQFull = false) →
    let b : State := { a with power := { a.power with msgs := a.power.msgs ++ [(h.fn, .idGet t h)] } }
    exec (.idGet t h) s = .next (b.wakeUp (if h.fn = .bmc then 3 else 1) 0 (if h.fn = .bmc then 0 else h.fn.key)) ∧
    ∀ k, (b.wakeUp (if h.fn = .bmc then 3 else 1) 0 (if h.fn = .bmc then 0 else h.fn.key)).func k = s.func k

/-- A cause bit that a function has goes to 1, and the vector-0 message goes exactly when it rises while its enable bit is 1; one that is 1
already sends nothing; outside a held cut (R403). -/
def Obligations.CausesRaiseTheirInterrupt : Prop :=
  ∀ (s : State) (k bit : Nat) (f : Func), s.funcs.get? k = some f → k < 17 → bit < 32 → (causeMask k).testBit bit = true →
    s.trace.held = false →
    let x := s.raiseCause k bit
    (x.func k).cause.toNat.testBit bit = true ∧
    (f.cause.toNat.testBit bit = true → x = s) ∧
    (f.cause.toNat.testBit bit = false → x.out = if f.enable.toNat.testBit bit then s.out ++ [.msix (fnOfKey k) 0] else s.out)

/-- Messages that only read leave every register of every other mailbox, and everything but time, the counters and the sender's mailbox and
interrupt, as it was: only network time's counter moves on. -/
def Obligations.ReadingMessagesChangeNothingElse : Prop :=
  ∀ (i : Instr) (s x : State) (t : Nat) (h : MbxHdr),
    (i = .idGet t h ∨ i = .fabricGet t h ∨ i = .ridgeGet t h ∨ (∃ n, i = .ringGet t h n) ∨ (∃ n, i = .connGet t h n) ∨
      (∃ n, i = .shtGet t h n) ∨ (∃ l n, i = .errRead t h l n) ∨ i = .healthGet t h ∨ i = .leaseGet t h) →
    (s.advance t).asleep = false → exec i s = .next x →
    { x with
      time := s.time, ctrs := s.ctrs, funcs := s.funcs, out := s.out
      trace := { x.trace with heldMsix := s.trace.heldMsix } } = s ∧
    x.time = { s.time with now := x.time.now } ∧ ∀ k, k ≠ h.fn.key → x.func k = s.func k

/-- A message about one setting of a ridge changes, beside time, the counters and the sender's mailbox and interrupt, that ridge alone. -/
def Obligations.RidgeSettingsStayInTheirRidge : Prop :=
  ∀ (i : Instr) (s x : State) (t : Nat) (h : MbxHdr),
    ((∃ n, i = .shadowSet t h n) ∨ (∃ b, i = .belaySetStandin t h b) ∨ (∃ c b, i = .belaySetMirror t h c b) ∨
      (∃ n, i = .watchdogSet t h n) ∨ (∃ n w c, i = .mprogLoad t h n w c) ∨ (∃ n, i = .mprogClear t h n)) →
    (s.advance t).asleep = false → exec i s = .next x →
    { x with
      time := s.time, ctrs := s.ctrs, funcs := s.funcs, out := s.out, ridges := s.ridges
      trace := { x.trace with heldMsix := s.trace.heldMsix } } = s ∧
    ∀ r, h.target ≠ some r → x.ridge r = s.ridge r

/-- RING_CREATE, RING_DESTROY and RING_RESET change rings; GATE_SET, SHT_SET and CBS_SET the breakout they name; STOP_AT, its CANCEL and a
record selection the trace; FW_FLOOR and OWNER_ENROL the boot records; EPOCH_DRAIN the description's record. Beside time, the counters and
the sender's mailbox and interrupt, nothing else changes. -/
def Obligations.OneUnitMessagesChangeOnlyTheirUnit : Prop :=
  ∀ (i : Instr) (s x : State) (t : Nat) (h : MbxHdr), (s.advance t).asleep = false → exec i s = .next x →
    let y : State := { x with
      time := s.time, ctrs := s.ctrs, funcs := s.funcs, out := s.out, trace := { x.trace with heldMsix := s.trace.heldMsix } }
    (((∃ p, i = .ringCreate t h p) ∨ (∃ n, i = .ringDestroy t h n) ∨ (∃ n, i = .ringReset t h n)) → { y with rings := s.rings } = s) ∧
    (∀ b, ((∃ e n, i = .gateSet t h b e n) ∨ (∃ e n, i = .shtSet t h b e n) ∨ (∃ c n m e f, i = .cbsSet t h b c n m e f)) →
      { y with brks := s.brks } = s ∧ ∀ k, k ≠ b → x.brk k = s.brk k) ∧
    (((∃ n m, i = .stopAt t h n m) ∨ i = .stopAtCancel t h ∨ (∃ q, i = .traceSetRecords t h q)) → { y with trace := s.trace } = s) ∧
    (((∃ n, i = .fwFloor t h n) ∨ (∃ q r, i = .ownerEnrol t h q r)) → { y with boot := s.boot } = s) ∧
    (((∃ n, i = .epochDrain t h n) ∨ i = .epochDrainEndNow t h) → { y with fab := s.fab } = s)

-- BAR registers (R206, R381, R382, R403).

/-- A doorbell of an Active host ring moves its submission tail, and a value at or above ENTRIES puts the ring in Error; no ring but the one
named changes (R382). -/
def Obligations.DoorbellsMoveTheTail : Prop :=
  ∀ (s : State) (r i tail : Nat) (g : Ring), s.rings.get? (ringKey r i) = some g → g.host = true → g.state = .active →
    (tail < g.entries → s.ringDbW r i tail = s.modRing (ringKey r i) (fun g => { g with sqTail := tail })) ∧
    (g.entries ≤ tail → ∃ k, (s.ringDbW r i tail).rings.get? (ringKey r i) = some k ∧ k.state = .error) ∧
    ∀ k, k ≠ ringKey r i → (s.ringDbW r i tail).rings.get? k = s.rings.get? k

/-- A W1C write clears exactly the cause bits written 1, and RING_ERROR's clears INT_FIRST_RING; INT_ENABLE takes the bits the function has;
nothing but the function's own block changes, its message aside (R403). -/
def Obligations.InterruptRegistersWrite : Prop :=
  ∀ (s : State) (k : Nat) (bits : W32) (f : Func), s.funcs.get? k = some f →
    ((s.causeW k bits).func k).cause = f.cause &&& ~~~bits ∧
    ((s.causeW k bits).func k).firstRing = (if bits.toNat.testBit causeRingError then none else f.firstRing) ∧
    { s.causeW k bits with funcs := s.funcs } = s ∧
    ((s.enableW k bits).func k).enable = bits &&& BitVec.ofNat 32 (causeMask k) ∧
    ((s.enableW k bits).func k).cause = f.cause ∧
    ∀ j, j ≠ k → (s.causeW k bits).func j = s.func j ∧ (s.enableW k bits).func j = s.func j

/-- Bit 8 × channel + 4 × rank + group of CAIRN_MODE is 1 while that bank group of the cirque is in the mode, and the register has no other
bit; it reads 0 after cold reset (R206). -/
def Obligations.CairnModeShowsEachGroup : Prop :=
  (∀ (s : State) (q channel rank group : Nat), channel < 8 → rank < 2 → group < 4 →
    (s.cairnMode q).testBit (8 * channel + 4 * rank + group) = (s.group (groupKey q (8 * channel + 4 * rank + group))).mode) ∧
  (∀ (s : State) (q : Nat), s.cairnMode q < 2 ^ 64) ∧ (∀ q, State.reset.cairnMode q = 0)

-- Arithmetic (R25, R26) and matching (R322).

/-- A division rounds to the nearest whole number, and to the even one of two that are as near (R25). -/
def Obligations.DivisionsRoundToNearestEven : Prop :=
  ∀ n d : Nat, 0 < d →
    let q := rneDiv n d
    2 * (q * d) ≤ 2 * n + d ∧ 2 * n ≤ 2 * (q * d) + d ∧ ((2 * n = 2 * (q * d) + d ∨ 2 * (q * d) = 2 * n + d) → q % 2 = 0)

/-- A BF16 operand reads as the FP32 value of the same sign, exponent and fraction, a subnormal one as the zero of its sign; rounding that
value back to BF16 gives the operand again, unless it is a subnormal or a NaN (R25, R26). -/
def Obligations.Bf16ReadsExactly : Prop :=
  ∀ b : Nat, b < 65536 →
    (b / 128 % 256 = 0 → fOfBf b = BitVec.ofNat 32 (b / 32768 * 2147483648)) ∧
    (b / 128 % 256 ≠ 0 → fSign (fOfBf b) = b.testBit 15 ∧ fExpo (fOfBf b) = b / 128 % 256 ∧ fFrac (fOfBf b) = b % 128 * 65536) ∧
    (b / 128 % 256 ≠ 0 → ¬ (b / 128 % 256 = 255 ∧ b % 128 ≠ 0) → bfOf (fOfBf b) = b)

/-- A valid entry of a table matches a key exactly when the two agree in every bit its MASK compares (R322). -/
def Obligations.LoupeEntriesMatchUnderTheirMask : Prop :=
  ∀ (e : LEntry) (k : Nat), e.valid = true →
    (e.matches e.table k = true ↔ ∀ i, e.mask.testBit i = true → k.testBit i = e.key.testBit i)

-- Schedules, power and supplies (R312 to R314, R479, R483, R503).

/-- Gate and shutter takeovers are independent: at its T a gate list is taken over whatever the shutter shows, the shutter stays as it is,
and the shutter's takeover leaves every gate as it is; so both apply where both fall at the same T. -/
def Obligations.TakeoversAreIndependent : Prop :=
  ∀ (s : State) (t r x : Nat) (b : Breakout), s.brks.get? x = some b →
    let u := after (exec (.gateTakeover t r x) s) s
    let v := after (exec (.shutterTakeover t x) u) u
    (u.brk x).shutter = b.shutter ∧ (v.brk x).gates = (u.brk x).gates ∧
    (∀ g entries at_, b.gates.get? r = some g → g.pend = some (entries, at_) → at_ ≤ (s.advance t).now →
      (v.brk x).gates.get? r = some { run := { entries := entries, base := at_ }, pend := none }) ∧
    (∀ slots at_, b.shutter.pend = some (slots, at_) → at_ ≤ (s.advance t).now →
      (v.brk x).shutter = { run := { entries := slots, base := at_ }, pend := none })

/-- The first wake event from the entry's first step on is latched, every later one is counted in PWR_WAKE_CNT without effect, entry runs to
its end, and a latched event starts the exit at the instant entry is complete, the last-wake record showing REPLAYED. -/
def Obligations.WakeEventsAreLatched : Prop :=
  (∀ (s : State) (source brk fn : Nat), s.power.transit = .entering → s.power.wake = none →
    s.wakeUp source brk fn = { s with power := { s.power with wake := some (source, brk, fn, s.now) } }) ∧
  (∀ (s : State) (source brk fn : Nat), s.power.transit = .entering → s.power.wake.isSome = true →
    s.wakeUp source brk fn = s.bumpN 2339) ∧
  (∀ (s : State) (t : Nat), let a := s.advance t
    a.power.transit = .entering → a.power.wake.isSome = true → a.dead = false →
    a.cirques.any (fun e => !e.2.sealQ.isEmpty) = false →
    let u := after (exec (.pwrEntryComplete t) s) s
    u.power.transit = .exiting ∧ u.power.replayed = true ∧ u.power.fromState = a.power.target)

/-- A supply outside its range for more than 20 µs starts a cold reset, and its code is recorded; a shorter excursion is tolerated and
recorded nowhere; with VDD_AON or VDD_IO out of range all state is lost, the record with it. -/
def Obligations.SupplyExcursionsResetOrPass : Prop :=
  ∀ (s : State) (t code us : Nat) (c : ColdInputs),
    (us ≤ 20 → exec (.supplyExcursion t code us c) s = .next (s.advance t)) ∧
    (20 < us →
      exec (.supplyExcursion t code us c) s = .next ((s.advance t).cold c (if c.aonLost || code < 1 || 9 < code then none else some code))) ∧
    (20 < us → 1 ≤ code → code ≤ 9 → c.aonLost = false →
      (after (exec (.supplyExcursion t code us c) s) s).sns.brownout = true ∧
      (after (exec (.supplyExcursion t code us c) s) s).sns.supply = code) ∧
    (20 < us → (c.aonLost = true ∨ code = 10) → (after (exec (.supplyExcursion t code us c) s) s).sns.brownout = false)

/-- Bytes written into a region read back, every byte outside them stays, and the list of bytes keeps its one form (R267, R271). -/
def Obligations.RegionWritesReadBack : Prop :=
  ∀ (m : List Host.Cell) (a : Nat) (bs : List Byte), memWf m = true →
    memWf (memPut m a bs) = true ∧ memSlice (memPut m a bs) a bs.length = bs ∧
    ∀ c, (c < a ∨ a + bs.length ≤ c) → memGet (memPut m a bs) c = memGet m c
end

