-- ==== Sys2Proof/Laws/Settings.lean ====
section
/-! SUPPORT. The settings of a state under record updates, folds and branches; the files Settings* say that an operation leaves them. -/

namespace Sys2Proof.Machine

open Sys2Proof

set_option linter.all false

@[simp] theorem foldl_settings {α : Type} (l : List α) (f : State → α → State) (h : ∀ s a, (f s a).settings = s.settings) (s : State) :
    (l.foldl f s).settings = s.settings := by
  induction l generalizing s with
  | nil => rfl
  | cons a l ih => rw [List.foldl_cons, ih, h]
theorem foldl_pair_settings {α β : Type} (l : List α) (f : State × β → α → State × β) (h : ∀ p a, (f p a).1.settings = p.1.settings)
    (p : State × β) : (l.foldl f p).1.settings = p.1.settings := by
  induction l generalizing p with
  | nil => rfl
  | cons a l ih => rw [List.foldl_cons, ih, h]
@[simp] theorem settings_mk (a b c d e f g h i j k l m n o p q r t u v w x y z a1 b1 c1 d1 e1 f1 g1 h1 i1 j1 k1 l1 m1 n1 o1 p1) :
  State.settings ⟨a,b,c,d,e,f,g,h,i,j,k,l,m,n,o,p,q,r,t,u,v,w,x,y,z,a1,b1,c1,d1,e1,f1,g1,h1,i1,j1,k1,l1,m1,n1,o1,p1⟩ = ⟨a,f,g,c,l1.issueK,l1.lowK,l1.tripped,l1.lost,k1,m1,c1⟩ := Eq.trans rfl rfl
@[simp] theorem settings_fold (s : State) : (⟨s.pending, s.numVfs, s.vfEnable, s.fab, s.sns.issueK, s.sns.lowK, s.sns.tripped, s.sns.lost, s.strip, s.boot, s.ports⟩ : Settings) = s.settings := by cases s; rfl
@[simp] theorem ite_settings (c : Prop) [Decidable c] (a b : State) : (if c then a else b).settings = if c then a.settings else b.settings := by
  split <;> rfl
@[simp] theorem ite_st (c : Prop) [Decidable c] (a b : MRes) : (if c then a else b).st = if c then a.st else b.st := by
  split <;> rfl
@[simp] theorem after_next (a s : State) : after (.next a) s = a := rfl
@[simp] theorem ite_after (c : Prop) [Decidable c] (a b : Host.Outcome State Fault Refusal) (s : State) :
    after (if c then a else b) s = if c then after a s else after b s := by
  split <;> rfl
@[simp] theorem st_ans (s : State) (a b c) : (MRes.ans s a b c).st = s := rfl
@[simp] theorem st_wait (s : State) : (MRes.wait s).st = s := rfl

end Sys2Proof.Machine
end

