-- ==== Sys2Proof/Laws/SettingsShared.lean ====
section
/-! SUPPORT. What leaves the settings alone: the shared operations, the sender, the store, the mirror, Loupe, composites and sketches. -/

namespace Sys2Proof.Machine

open Sys2Proof

set_option linter.all false

@[simp] theorem State.setCtr_settings (s : State) (c : Ctr) (v : Nat) :
    (State.setCtr s c v).settings = s.settings := by
  simp [State.setCtr]

@[simp] theorem State.bumpBy_settings (s : State) (c : Ctr) (n : Nat) :
    (State.bumpBy s c n).settings = s.settings := by
  simp [State.bumpBy]

@[simp] theorem State.bump_settings (s : State) (c : Ctr) :
    (State.bump s c).settings = s.settings := by
  simp [State.bump]

@[simp] theorem State.maxCtr_settings (s : State) (c : Ctr) (v : Nat) :
    (State.maxCtr s c v).settings = s.settings := by
  simp [State.maxCtr]

@[simp] theorem State.clearCtrs_settings (s : State) (p : Ctr → Bool) :
    (State.clearCtrs s p).settings = s.settings := by
  simp [State.clearCtrs]

@[simp] theorem State.bumpR_settings (s : State) (r i : Nat) :
    (State.bumpR s r i).settings = s.settings := by
  simp [State.bumpR]

@[simp] theorem State.bumpC_settings (s : State) (c i : Nat) :
    (State.bumpC s c i).settings = s.settings := by
  simp [State.bumpC]

@[simp] theorem State.bumpN_settings (s : State) (i : Nat) :
    (State.bumpN s i).settings = s.settings := by
  simp [State.bumpN]

@[simp] theorem State.event_settings (s : State) (c : Option Nat) (ev qty : Nat) :
    (State.event s c ev qty).settings = s.settings := by
  simp [State.event]

@[simp] theorem State.levelEvent_settings (s : State) (c : Option Nat) (ev level cycles : Nat) :
    (State.levelEvent s c ev level cycles).settings = s.settings := by
  unfold State.levelEvent
  grind [State.bumpBy_settings, State.maxCtr_settings, settings_mk, settings_fold, foldl_settings]

@[simp] theorem State.levels_settings (s : State) (cycles : Nat) :
    (State.levels s cycles).settings = s.settings := by
  simp [State.levels]

@[simp] theorem State.bumpOpen_settings (s : State) (c : Ctr) (n : Nat) :
    (State.bumpOpen s c n).settings = s.settings := by
  unfold State.bumpOpen
  split <;> rfl

@[simp] theorem State.eventOpen_settings (s : State) (c : Option Nat) (ev qty : Nat) :
    (State.eventOpen s c ev qty).settings = s.settings := by
  simp [State.eventOpen]

@[simp] theorem State.flits_settings (s : State) (t0 t1 : Nat) :
    (State.flits s t0 t1).settings = s.settings := by
  have he : ∀ (s : State) (c : Option Nat) (ev n : Nat), (s.eventOpen c ev n).settings = s.settings := by
    intro s c ev n
    simp [State.eventOpen]
  simp [State.flits, he]

@[simp] theorem State.advance_settings (s : State) (t : Nat) :
    (State.advance s t).settings = s.settings := by
  simp [State.advance]

@[simp] theorem State.draw_settings (s : State) :
    (State.draw s).2.settings = s.settings := by
  simp [State.draw]

@[simp] theorem State.drawByte_settings (s : State) :
    (State.drawByte s).2.settings = s.settings := by
  simp [State.drawByte]

@[simp] theorem State.drawNat_settings (s : State) :
    (State.drawNat s).2.settings = s.settings := by
  simp [State.drawNat]

@[simp] theorem State.emit_settings (s : State) (o : Out) :
    (State.emit s o).settings = s.settings := by
  simp [State.emit]

@[simp] theorem State.modFunc_settings (s : State) (k : Nat) (f : Func → Func) :
    (State.modFunc s k f).settings = s.settings := by
  simp [State.modFunc]

@[simp] theorem State.msix_settings (s : State) (k vector : Nat) :
    (State.msix s k vector).settings = s.settings := by
  simp [State.msix]

@[simp] theorem State.raiseCause_settings (s : State) (k bit : Nat) :
    (State.raiseCause s k bit).settings = s.settings := by
  simp [State.raiseCause]

@[simp] theorem State.raiseRidge_settings (s : State) (r bit : Nat) :
    (State.raiseRidge s r bit).settings = s.settings := by
  simp [State.raiseRidge]

@[simp] theorem State.raiseAll_settings (s : State) (bit : Nat) :
    (State.raiseAll s bit).settings = s.settings := by
  simp [State.raiseAll]

@[simp] theorem State.modRidge_settings (s : State) (r : Nat) (f : Ridge → Ridge) :
    (State.modRidge s r f).settings = s.settings := by
  simp [State.modRidge]

@[simp] theorem State.setRState_settings (s : State) (r : Nat) (st : RState) :
    (State.setRState s r st).settings = s.settings := by
  simp [State.setRState]

@[simp] theorem State.flmSend_settings (s : State) (r : FlmRec) :
    (State.flmSend s r).settings = s.settings := by
  simp [State.flmSend]

@[simp] theorem State.flmPut_settings (s : State) (r : FlmRec) :
    (State.flmPut s r).settings = s.settings := by
  unfold State.flmPut
  dsimp only
  (repeat' split) <;> simp

@[simp] theorem State.film_settings (s : State) (type : Nat) (src : Comp) (ridge : Nat) (body : List Nat) :
    (State.film s type src ridge body).settings = s.settings := by
  simp [State.film]

@[simp] theorem State.logTo_settings (s : State) (r : Nat) (e : ErrRec) :
    (State.logTo s r e).1.settings = s.settings := by
  unfold State.logTo
  dsimp only
  (repeat' split) <;> simp

@[simp] theorem State.logErr_settings (s : State) (e : ErrRec) :
    (State.logErr s e).1.settings = s.settings := by
  unfold State.logErr
  dsimp only
  (repeat' split) <;> simp

@[simp] theorem State.report_settings (s : State) (e : ErrRec) :
    (State.report s e).settings = s.settings := by
  simp [State.report]

@[simp] theorem State.weigh_settings (s : State) (c : Comp) (w : Nat) (injected : Bool) :
    (State.weigh s c w injected).settings = s.settings := by
  simp [State.weigh]

@[simp] theorem State.weighLanes_settings (s : State) (x w : Nat) (injected : Bool) :
    (State.weighLanes s x w injected).settings = s.settings := by
  simp [State.weighLanes]

theorem State.fire_settings (s : State) (pick : InjTarget → Bool) :
    ∀ x, (State.fire s pick) = some x → x.settings = s.settings := by
  unfold State.fire
  dsimp only
  (repeat' split) <;> simp

@[simp] theorem State.wakeLatch_settings (s : State) (source breakout fn : Nat) :
    (State.wakeLatch s source breakout fn).settings = s.settings := by
  simp [State.wakeLatch]

@[simp] theorem State.wakeUp_settings (s : State) (source breakout fn : Nat) :
    (State.wakeUp s source breakout fn).settings = s.settings := by
  simp [State.wakeUp]

@[simp] theorem MRes.ok_settings (s : State) (vals : List Nat) :
    (MRes.ok s vals).st.settings = s.settings := by
  simp [MRes.ok]

@[simp] theorem MRes.no_settings (s : State) (st : MStatus) :
    (MRes.no s st).st.settings = s.settings := by
  simp [MRes.no]

@[simp] theorem MRes.hw_settings (s : State) (cause : Cause) (comp : Comp) :
    (MRes.hw s cause comp).st.settings = s.settings := by
  simp [MRes.hw]

@[simp] theorem State.answer_settings (s : State) (k tag opcode : Nat) (st : MStatus) (retry : Nat) (vals : List Nat) :
    (State.answer s k tag opcode st retry vals).settings = s.settings := by
  simp [State.answer]

@[simp] theorem State.answerBusy_settings (s : State) (fn : Option Fn) (st : MStatus) (retry : Nat) (vals : List Nat) :
    (State.answerBusy s fn st retry vals).settings = s.settings := by
  unfold State.answerBusy
  grind [State.answer_settings, settings_mk, settings_fold, foldl_settings]

@[simp] theorem State.finishMsg_settings (k tag op : Nat) (r : MRes) : (State.finishMsg k tag op r).settings = r.st.settings := by
  cases r <;> simp [State.finishMsg]
theorem State.serve_settings (s : State) (h : MbxHdr) (op : Nat) (defined : Bool) (who : Rights) (body : State → MRes)
    (hb : ∀ s, (body s).st.settings = s.settings) : (s.serve h op defined who body).settings = s.settings := by
  unfold State.serve
  dsimp only
  (repeat' split) <;> simp [hb]

@[simp] theorem State.fillRequest_settings (s : State) (h : MbxHdr) (op : Nat) :
    (State.fillRequest s h op).settings = s.settings := by
  simp [State.fillRequest]

theorem State.message_settings (s : State) (t : Nat) (i : Instr) (h : MbxHdr) (op : Nat) (defined : Bool) (who : Rights)
    (body : State → MRes) (hb : ∀ s, (body s).st.settings = s.settings) :
    (after (s.message t i h op defined who body) s).settings = s.settings := by
  unfold State.message
  dsimp only
  (repeat' split) <;> simp [State.serve_settings _ _ _ _ _ body hb]

theorem State.mbox_settings (s : State) (t : Nat) (i : Instr) (h : MbxHdr) (op : Nat) (who : Rights) (body : State → MRes)
    (hb : ∀ s, (body s).st.settings = s.settings) : (after (s.mbox t i h op who body) s).settings = s.settings :=
  s.message_settings t i h op true who body hb

theorem withRidge_settings (h : MbxHdr) (s : State) (body : Nat → MRes) (hb : ∀ r, (body r).st.settings = s.settings) :
    (withRidge h s body).st.settings = s.settings := by
  unfold withRidge
  (repeat' split) <;> simp [hb]

@[simp] theorem State.modCirque_settings (s : State) (c : Nat) (f : Cirque → Cirque) :
    (State.modCirque s c f).settings = s.settings := by
  simp [State.modCirque]

@[simp] theorem State.modCell_settings (s : State) (c e : Nat) (f : Cell → Cell) :
    (State.modCell s c e f).settings = s.settings := by
  simp [State.modCell]

@[simp] theorem State.modGroup_settings (s : State) (k : Nat) (f : Group → Group) :
    (State.modGroup s k f).settings = s.settings := by
  simp [State.modGroup]

@[simp] theorem State.modBank_settings (s : State) (k : Nat) (f : Bank → Bank) :
    (State.modBank s k f).settings = s.settings := by
  simp [State.modBank]

@[simp] theorem State.modStack_settings (s : State) (k : Nat) (f : Stack → Stack) :
    (State.modStack s k f).settings = s.settings := by
  simp [State.modStack]

@[simp] theorem State.modReq_settings (s : State) (k : Nat) (f : Request → Request) :
    (State.modReq s k f).settings = s.settings := by
  simp [State.modReq]

@[simp] theorem State.modPage_settings (s : State) (k : Nat) (f : Page → Page) :
    (State.modPage s k f).settings = s.settings := by
  simp [State.modPage]

@[simp] theorem State.modSeq_settings (s : State) (k : Nat) (f : SeqD → SeqD) :
    (State.modSeq s k f).settings = s.settings := by
  simp [State.modSeq]

@[simp] theorem State.modRing_settings (s : State) (k : Nat) (f : Ring → Ring) :
    (State.modRing s k f).settings = s.settings := by
  simp [State.modRing]

@[simp] theorem State.modConn_settings (s : State) (k : Nat) (f : Conn → Conn) :
    (State.modConn s k f).settings = s.settings := by
  simp [State.modConn]

@[simp] theorem State.modIndex_settings (s : State) (k : Nat) (f : Index → Index) :
    (State.modIndex s k f).settings = s.settings := by
  simp [State.modIndex]

@[simp] theorem State.modRegion_settings (s : State) (k : Nat) (f : Region → Region) :
    (State.modRegion s k f).settings = s.settings := by
  simp [State.modRegion]

@[simp] theorem State.enqueue_settings (s : State) (x : Nat) (f : TxFrame) :
    (State.enqueue s x f).settings = s.settings := by
  unfold State.enqueue
  grind [settings_mk, settings_fold, foldl_settings]

@[simp] theorem State.kLaunch_settings (s : State) (c : Conn) (port ecn : Nat) (data : List Byte) (f : TxFrame) :
    (State.kLaunch s c port ecn data f).settings = s.settings := by
  unfold State.kLaunch
  try dsimp only
  (repeat' split) <;> simp

@[simp] theorem State.kEmit_settings (s : State) (n : Nat) (op psn msn offset region addr imm : Nat) (bytes : List Byte) (payload retx ent : Nat) (first last : Bool) :
    (State.kEmit s n op psn msn offset region addr imm bytes payload retx ent first last).settings = s.settings := by
  unfold State.kEmit
  dsimp only
  (repeat' split) <;> simp

@[simp] theorem State.makeRoom_settings (s : State) (r : Nat) :
    (State.makeRoom s r).settings = s.settings := by
  unfold State.makeRoom
  try dsimp only
  (repeat' split) <;> simp

@[simp] theorem State.fetchFor_settings (s : State) (n : Nat) :
    (State.fetchFor s n).settings = s.settings := by
  unfold State.fetchFor
  try dsimp only
  (repeat' split) <;> simp

@[simp] theorem State.kResend_settings (s : State) (n : Nat) (p : TxPkt) :
    (State.kResend s n p).settings = s.settings := by
  unfold State.kResend
  dsimp only
  (repeat' split) <;> simp

@[simp] theorem State.kPump_settings (s : State) (n : Nat) (fuel : Nat) :
    (State.kPump s n fuel).settings = s.settings := by
  induction fuel generalizing s n with
  | zero => simp [State.kPump]
  | succ k ih =>
    unfold State.kPump
    dsimp only
    (repeat' split) <;> simp_all

@[simp] theorem State.pumpAll_settings (s : State) :
    (State.pumpAll s).settings = s.settings := by
  simp [State.pumpAll]

theorem State.kSend_settings (s : State) (n op region addr imm : Nat) (bytes : List Byte) (owner : MsgOwner) :
    ∀ x, (State.kSend s n op region addr imm bytes owner) = some x → x.1.settings = s.settings := by
  unfold State.kSend
  dsimp only
  (repeat' split) <;> simp

@[simp] theorem State.kFill_settings (s : State) (n : Nat) :
    (State.kFill s n).settings = s.settings := by
  unfold State.kFill
  grind [State.kPump_settings, settings_mk, settings_fold, foldl_settings]

@[simp] theorem State.kControl_settings (s : State) (n op psn msn offset imm : Nat) (bytes : List Byte) (ent : Nat) :
    (State.kControl s n op psn msn offset imm bytes ent).settings = s.settings := by
  simp [State.kControl]

@[simp] theorem State.kAck_settings (s : State) (n ent : Nat) :
    (State.kAck s n ent).settings = s.settings := by
  unfold State.kAck
  dsimp only
  (repeat' split) <;> simp

@[simp] theorem State.kViolation_settings (s : State) (n kind : Nat) (h : KHdr) :
    (State.kViolation s n kind h).settings = s.settings := by
  unfold State.kViolation
  try dsimp only
  (repeat' split) <;> simp

@[simp] theorem State.kNack_settings (s : State) (n : Nat) (code : NackCode) (psn msn expect ent : Nat) (h : KHdr) :
    (State.kNack s n code psn msn expect ent h).settings = s.settings := by
  unfold State.kNack
  dsimp only
  (repeat' split) <;> simp

@[simp] theorem State.modBankL_settings (s : State) (b : Nat) (f : LBank → LBank) :
    (State.modBankL s b f).settings = s.settings := by
  simp [State.modBankL]

@[simp] theorem State.lSlots_settings (s : State) (b n : Nat) :
    (State.lSlots s b n).settings = s.settings := by
  simp [State.lSlots]

@[simp] theorem State.lDel_settings (s : State) (b i : Nat) :
    (State.lDel s b i).settings = s.settings := by
  simp [State.lDel]

@[simp] theorem State.lRemove_settings (s : State) (owner : Nat) (t : LoupeTable) (key : Nat) :
    (State.lRemove s owner t key).settings = s.settings := by
  unfold State.lRemove
  grind [State.lDel_settings, settings_mk, settings_fold, foldl_settings]

@[simp] theorem State.endRegion_settings (s : State) (r h : Nat) :
    (State.endRegion s r h).settings = s.settings := by
  simp [State.endRegion]

@[simp] theorem State.ringMsix_settings (s : State) (key : Nat) (g : Ring) :
    (State.ringMsix s key g).settings = s.settings := by
  simp [State.ringMsix]

@[simp] theorem State.ringPost_settings (s : State) (key : Nat) (c : Cpl) :
    (State.ringPost s key c).settings = s.settings := by
  unfold State.ringPost
  dsimp only
  (repeat' split) <;> simp

@[simp] theorem State.unadmit_settings (s : State) (n : Nat) :
    (State.unadmit s n).settings = s.settings := by
  simp [State.unadmit]

@[simp] theorem State.freeSlot_settings (s : State) (slot : Option Nat) :
    (State.freeSlot s slot).settings = s.settings := by
  unfold State.freeSlot
  grind [settings_mk, settings_fold, foldl_settings]

@[simp] theorem State.post_settings (s : State) (src : Src) (slot : Option Nat) (c : Cpl) :
    (State.post s src slot c).settings = s.settings := by
  unfold State.post
  split
  · simp
  · split
    · simp
    · split
      · simp
      · dsimp only
        split
        · simp
        · rename_i h
          have := State.kSend_settings _ _ _ _ _ _ _ _ _ h
          simp at this
          simp [this]

@[simp] theorem State.readHost_settings (s : State) (src : Src) (addr len : Nat) :
    (State.readHost s src addr len).settings = s.settings := by
  unfold State.readHost
  grind [State.event_settings, State.emit_settings, settings_mk, settings_fold, foldl_settings]

@[simp] theorem State.writeHost_settings (s : State) (src : Src) (addr : Nat) (bs : List Byte) :
    (State.writeHost s src addr bs).settings = s.settings := by
  unfold State.writeHost
  grind [State.event_settings, State.emit_settings, settings_mk, settings_fold, foldl_settings]

@[simp] theorem State.leaveRing_settings (s : State) (c : Conn) :
    (State.leaveRing s c).settings = s.settings := by
  unfold State.leaveRing
  try dsimp only
  (repeat' split) <;> simp

@[simp] theorem State.take_settings (s : State) (src : Src) (d : Desc) (inl : List Byte) :
    (State.take s src d inl).1.settings = s.settings := by
  unfold State.take
  dsimp only
  (repeat' split) <;> simp

@[simp] theorem State.countSC_settings (s : State) (r op : Nat) :
    (State.countSC s r op).settings = s.settings := by
  simp [State.countSC]

@[simp] theorem State.reject_settings (s : State) (c : Cmd) (st : Status) (r0 r1 : Nat) :
    (State.reject s c st r0 r1).settings = s.settings := by
  simp [State.reject]

@[simp] theorem State.noteDrained_settings (s : State) (c : Cmd) :
    (State.noteDrained s c).settings = s.settings := by
  simp [State.noteDrained]

theorem State.command_settings (s : State) (t : Nat) (src : Src) (d : Desc) (inl : List Byte) (layout : List (Nat × Nat × Nat))
    (checks : State → Cmd → List (Bool × Status)) (run : State → Cmd → State) (hr : ∀ s c, (run s c).settings = s.settings) :
    (after (s.command t src d inl layout checks run) s).settings = s.settings := by
  have ht : ∀ s : State, (s.take src d inl).1.settings = s.settings := fun s => by simp
  unfold State.command
  dsimp only
  have h2 := ht (s.advance t)
  split
  · simp
  · split <;> rename_i he <;> rw [he] at h2 <;> simp at h2
    · simp [h2]
    · (repeat' split) <;> simp [hr, h2]

@[simp] theorem State.admitReq_settings (s : State) (c : Cmd) (phase : RPhase) (f : Request → Request) :
    (State.admitReq s c phase f).1.settings = s.settings := by
  simp [State.admitReq]

@[simp] theorem State.dropWork_settings (s : State) (slot : Nat) :
    (State.dropWork s slot).settings = s.settings := by
  simp [State.dropWork]

@[simp] theorem State.dropQuery_settings (s : State) (q : Request) :
    (State.dropQuery s q).settings = s.settings := by
  unfold State.dropQuery
  grind [State.endRegion_settings, settings_mk, settings_fold, foldl_settings]

@[simp] theorem State.dropSegments_settings (s : State) (slot : Nat) :
    (State.dropSegments s slot).settings = s.settings := by
  simp [State.dropSegments]

@[simp] theorem State.releaseHolder_settings (s : State) (holder : Nat) :
    (State.releaseHolder s holder).settings = s.settings := by
  simp [State.releaseHolder]

@[simp] theorem State.complete_settings (s : State) (slot : Nat) (st : Status) (flags r0 r1 : Nat) :
    (State.complete s slot st flags r0 r1).settings = s.settings := by
  unfold State.complete
  dsimp only
  (repeat' split) <;> simp

@[simp] theorem State.quick_settings (s : State) (c : Cmd) (st : Status) (r0 r1 : Nat) :
    (State.quick s c st r0 r1).settings = s.settings := by
  simp [State.quick]

@[simp] theorem State.noteReq_settings (s : State) (slot : Nat) (e : ErrRec) :
    (State.noteReq s slot e).settings = s.settings := by
  unfold State.noteReq
  dsimp only
  (repeat' split) <;> simp

@[simp] theorem State.failReq_settings (s : State) (slot : Nat) (st : Status) (e : ErrRec) :
    (State.failReq s slot st e).settings = s.settings := by
  simp [State.failReq]

@[simp] theorem State.failNow_settings (s : State) (slot : Nat) (st : Status) (e : ErrRec) :
    (State.failNow s slot st e).settings = s.settings := by
  unfold State.failNow
  dsimp only
  (repeat' split) <;> simp

@[simp] theorem State.nextWgen_settings (s : State) (key : Nat) :
    (State.nextWgen s key).2.settings = s.settings := by
  simp [State.nextWgen]

@[simp] theorem State.modLayer_settings (s : State) (idx l : Nat) (f : Layer → Layer) :
    (State.modLayer s idx l f).settings = s.settings := by
  simp [State.modLayer]

@[simp] theorem State.putSeq_settings (s : State) (q : SeqD) :
    (State.putSeq s q).2.settings = s.settings := by
  simp [State.putSeq]

@[simp] theorem State.holdBanks_settings (s : State) (c n : Nat) :
    (State.holdBanks s c n).settings = s.settings := by
  simp [State.holdBanks]

@[simp] theorem State.dramRead_settings (s : State) (c n : Nat) :
    (State.dramRead s c n).settings = s.settings := by
  simp [State.dramRead]

@[simp] theorem State.dramWrite_settings (s : State) (c n : Nat) :
    (State.dramWrite s c n).settings = s.settings := by
  simp [State.dramWrite]

@[simp] theorem State.countRows_settings (s : State) (c n : Nat) :
    (State.countRows s c n).settings = s.settings := by
  simp [State.countRows]

@[simp] theorem State.cairnCopy_settings (s : State) (c first n : Nat) :
    (State.cairnCopy s c first n).settings = s.settings := by
  simp [State.cairnCopy]

@[simp] theorem State.pinFrame_settings (s : State) (d key to_ r : Nat) :
    (State.pinFrame s d key to_ r).1.settings = s.settings := by
  unfold State.pinFrame
  grind [State.bumpR_settings, settings_mk, settings_fold, foldl_settings]

@[simp] theorem State.prefetchOne_settings (s : State) (slot d key : Nat) (warm : Bool) :
    (State.prefetchOne s slot d key warm).settings = s.settings := by
  unfold State.prefetchOne
  dsimp only
  (repeat' split) <;> simp

@[simp] theorem State.prefetchEnd_settings (s : State) (d key : Nat) (warm : Bool) :
    (State.prefetchEnd s d key warm).settings = s.settings := by
  simp [State.prefetchEnd]

@[simp] theorem State.invalidate_settings (s : State) (key : Nat) :
    (State.invalidate s key).settings = s.settings := by
  simp [State.invalidate]

@[simp] theorem State.cancelSeal_settings (s : State) (key r : Nat) :
    (State.cancelSeal s key r).settings = s.settings := by
  simp [State.cancelSeal]

@[simp] theorem State.freeSketch_settings (s : State) (key r : Nat) :
    (State.freeSketch s key r).settings = s.settings := by
  simp [State.freeSketch]

@[simp] theorem State.rewritten_settings (s : State) (key : Nat) (gs : Nat → Bool) :
    (State.rewritten s key gs).settings = s.settings := by
  simp [State.rewritten]

@[simp] theorem State.freePage_settings (s : State) (key : Nat) :
    (State.freePage s key).settings = s.settings := by
  unfold State.freePage
  dsimp only
  (repeat' split) <;> simp

@[simp] theorem State.dropRef_settings (s : State) (key : Nat) :
    (State.dropRef s key).settings = s.settings := by
  unfold State.dropRef
  grind [State.modPage_settings, State.freePage_settings, settings_mk, settings_fold, foldl_settings]

@[simp] theorem State.queueSeal_settings (s : State) (key : Nat) (want : PSt) :
    (State.queueSeal s key want).settings = s.settings := by
  simp [State.queueSeal]

@[simp] theorem State.pageErr_settings (s : State) (key j : Nat) (p : Page) (cause : Cause) :
    (State.pageErr s key j p cause).1.settings = s.settings := by
  simp [State.pageErr]

@[simp] theorem State.pageCorr_settings (s : State) (key j : Nat) :
    (State.pageCorr s key j).settings = s.settings := by
  simp [State.pageCorr]

@[simp] theorem State.source_settings (s : State) (c : Cmd) (len : Nat) (data : Option (List Byte)) :
    (State.source s c len data).1.settings = s.settings := by
  unfold State.source
  dsimp only
  (repeat' split) <;> simp

@[simp] theorem State.modMirror_settings (s : State) (h : Nat) (f : MirrorSeq → MirrorSeq) :
    (State.modMirror s h f).settings = s.settings := by
  unfold State.modMirror
  try dsimp only
  (repeat' split) <;> simp

@[simp] theorem State.mirRelease_settings (s : State) (slot : Option Nat) (st : Status) :
    (State.mirRelease s slot st).settings = s.settings := by
  unfold State.mirRelease
  grind [State.complete_settings, settings_mk, settings_fold, foldl_settings]

@[simp] theorem State.mirForget_settings (fuel : Nat) (s : State) (h : Nat) (l : List (Nat × Nat × List Byte × Option Nat)) :
    (State.mirForget fuel s h l).settings = s.settings := by
  induction fuel generalizing s h l with
  | zero => rfl
  | succ fuel ih =>
    unfold State.mirForget
    apply foldl_settings
    intro s e
    (repeat' split) <;> simp [ih]

@[simp] theorem State.mirUnhook_settings (s : State) (slot : Option Nat) : (State.mirUnhook s slot).settings = s.settings := by
  unfold State.mirUnhook
  split <;> rfl

@[simp] theorem State.mirBreak_settings (s : State) (h : Nat) (r : Nat) (slot : Option Nat) :
    (State.mirBreak s h r slot).settings = s.settings := by
  unfold State.mirBreak
  dsimp only
  (repeat' split) <;> simp

@[simp] theorem State.mirSend_settings (s : State) (n h op : Nat) (msg : List Byte) (buddy : Option Nat) (slot : Option Nat) :
    (State.mirSend s n h op msg buddy slot).settings = s.settings := by
  unfold State.mirSend
  try dsimp only
  (repeat' split) <;> first | (simp; done) | (rename_i hk; have := State.kSend_settings _ _ _ _ _ _ _ _ _ hk; simp_all; done) | grind [State.bumpN_settings, State.modConn_settings, State.kSend_settings, State.mirBreak_settings, settings_mk, settings_fold, foldl_settings]

@[simp] theorem State.mirror_settings (s : State) (via h op : Nat) (msg : List Byte) (slot : Option Nat) :
    (State.mirror s via h op msg slot).settings = s.settings := by
  unfold State.mirror
  grind [State.modMirror_settings, State.mirSend_settings, settings_mk, settings_fold, foldl_settings]

@[simp] theorem State.mirDone_settings (s : State) (n tag status result : Nat) :
    (State.mirDone s n tag status result).settings = s.settings := by
  unfold State.mirDone
  dsimp only
  (repeat' split) <;> simp

@[simp] theorem State.mirFail_settings (s : State) (n h tag : Nat) (slot : Option Nat) :
    (State.mirFail s n h tag slot).settings = s.settings := by
  simp [State.mirFail]

@[simp] theorem State.mirAppend_settings (s : State) (h ridge prio layer first count row : Nat) (data : List Byte) (slot : Option Nat) :
    (State.mirAppend s h ridge prio layer first count row data slot).settings = s.settings := by
  simp [State.mirAppend]

@[simp] theorem State.lCount_settings (s : State) (banks : List Nat) :
    (State.lCount s banks).settings = s.settings := by
  simp [State.lCount]

@[simp] theorem State.lSearch_settings (s : State) (owner : Nat) (t : LoupeTable) (k : Nat) :
    (State.lSearch s owner t k).1.settings = s.settings := by
  unfold State.lSearch
  dsimp only
  (repeat' split) <;> simp

@[simp] theorem State.lPut_settings (s : State) (b i : Nat) (e : LEntry) :
    (State.lPut s b i e).settings = s.settings := by
  simp [State.lPut]

theorem State.lAdd_settings (s : State) (owner : Nat) (t : LoupeTable) (key result : Nat) (crit : Bool) :
    ∀ x, (State.lAdd s owner t key result crit) = some x → x.settings = s.settings := by
  intro x h
  unfold State.lAdd at h
  grind [State.lPut_settings, settings_mk, settings_fold]

@[simp] theorem State.drawHandle_settings (s : State) (r : Nat) :
    (State.drawHandle s r).2.settings = s.settings := by
  simp [State.drawHandle]

theorem State.newRegion_settings (s : State) (r : Nat) (kind : RegionKind) (size : Nat) :
    ∀ x, (State.newRegion s r kind size) = some x → x.1.settings = s.settings := by
  intro x h
  unfold State.newRegion at h
  grind [State.lAdd_settings, State.drawHandle_settings, settings_mk, settings_fold]

theorem lOwner_settings (h : MbxHdr) (s : State) (t : LoupeTable) (body : Nat → MRes) (hb : ∀ r, (body r).st.settings = s.settings) :
    (lOwner h s t body).st.settings = s.settings := by
  cases t <;> simp [lOwner, hb, withRidge_settings h s body hb]

@[simp] theorem State.keepCopy_settings (s : State) (b i : Nat) (e : Option LEntry) :
    (State.keepCopy s b i e).settings = s.settings := by
  simp [State.keepCopy]

@[simp] theorem execLoupeSetAdd_settings (t : Nat) (h : MbxHdr) (table : LoupeTable) (e : LoupeBody) (s : State) :
    (after (execLoupeSetAdd t h table e s) s).settings = s.settings := by
  unfold execLoupeSetAdd
  grind [MRes.ok_settings, MRes.no_settings, State.mbox_settings, State.lPut_settings, lOwner_settings, State.keepCopy_settings, settings_mk, settings_fold, foldl_settings]

@[simp] theorem execLoupeSetDelete_settings (t : Nat) (h : MbxHdr) (table : LoupeTable) (index : Nat) (s : State) :
    (after (execLoupeSetDelete t h table index s) s).settings = s.settings := by
  unfold execLoupeSetDelete
  grind [MRes.ok_settings, MRes.no_settings, State.mbox_settings, State.lDel_settings, lOwner_settings, State.keepCopy_settings, settings_mk, settings_fold, foldl_settings]

@[simp] theorem execLoupeSetReplace_settings (t : Nat) (h : MbxHdr) (table : LoupeTable) (index : Nat) (e : LoupeBody) (s : State) :
    (after (execLoupeSetReplace t h table index e s) s).settings = s.settings := by
  unfold execLoupeSetReplace
  grind [MRes.ok_settings, MRes.no_settings, State.mbox_settings, State.lDel_settings, State.lPut_settings, lOwner_settings, State.keepCopy_settings, settings_mk, settings_fold, foldl_settings]

@[simp] theorem State.fixUnits_settings (s : State) (b i n : Nat) :
    (State.fixUnits s b i n).settings = s.settings := by
  simp [State.fixUnits]

@[simp] theorem State.scrubBank_settings (s : State) (b : Nat) :
    (State.scrubBank s b).settings = s.settings := by
  simp [State.scrubBank]

@[simp] theorem State.rebuild_settings (s : State) (b i : Nat) (old : LEntry) :
    (State.rebuild s b i old).settings = s.settings := by
  unfold State.rebuild
  grind [State.lPut_settings, settings_mk, settings_fold, foldl_settings]

@[simp] theorem execScrubPass_settings (t : Nat) (upset : Option (Nat × Nat)) (shadowBad : Bool) (s : State) :
    (after (execScrubPass t upset shadowBad s) s).settings = s.settings := by
  unfold execScrubPass
  dsimp only
  (repeat' split) <;> simp

theorem State.placeLocal_settings (s : State) (r h addr : Nat) (bs : List Byte) :
    ∀ x, (State.placeLocal s r h addr bs) = some x → x.settings = s.settings := by
  intro x h
  unfold State.placeLocal at h
  grind [State.modRegion_settings, settings_mk, settings_fold]

@[simp] theorem State.sendOut_settings (s : State) (slot : Nat) (bs : List Byte) :
    (State.sendOut s slot bs).1.settings = s.settings := by
  unfold State.sendOut
  try dsimp only
  (repeat' split) <;> first | (simp; done) | (rename_i hk; have := State.kSend_settings _ _ _ _ _ _ _ _ _ hk; simp_all; done) | grind [State.modReq_settings, State.kSend_settings, State.writeHost_settings, State.placeLocal_settings, settings_mk, settings_fold, foldl_settings]

@[simp] theorem State.mergeComposite_settings (s : State) (slot : Nat) (missing : Nat) :
    (State.mergeComposite s slot missing).1.settings = s.settings := by
  unfold State.mergeComposite
  dsimp only
  (repeat' split) <;> simp

@[simp] theorem State.disarm_settings (s : State) (r h : Nat) :
    (State.disarm s r h).settings = s.settings := by
  simp [State.disarm]

@[simp] theorem State.examine_settings (s : State) (r h addr imm : Nat) :
    (State.examine s r h addr imm).1.settings = s.settings := by
  unfold State.examine
  dsimp only
  (repeat' split) <;> simp

@[simp] theorem State.deliver_settings (fuel : Nat) (s : State) (slot : Nat) (bs : List Byte) :
    (State.deliver fuel s slot bs).settings = s.settings := by
  induction fuel generalizing s slot bs with
  | zero => simp [State.deliver]
  | succ k ih =>
    unfold State.deliver
    grind [State.sendOut_settings, State.examine_settings, settings_mk, settings_fold, foldl_settings]

@[simp] theorem State.deliverOut_settings (s : State) (slot : Nat) (bs : List Byte) :
    (State.deliverOut s slot bs).settings = s.settings := by
  simp [State.deliverOut]

@[simp] theorem State.contribution_settings (s : State) (r h addr imm : Nat) :
    (State.contribution s r h addr imm).settings = s.settings := by
  unfold State.contribution
  grind [State.examine_settings, State.deliverOut_settings, settings_mk, settings_fold, foldl_settings]

@[simp] theorem State.stopWaiting_settings (s : State) (slot : Nat) :
    (State.stopWaiting s slot).settings = s.settings := by
  unfold State.stopWaiting
  dsimp only
  (repeat' split) <;> simp

@[simp] theorem State.outputDone_settings (s : State) (slot : Nat) (ok : Bool) :
    (State.outputDone s slot ok).settings = s.settings := by
  unfold State.outputDone
  dsimp only
  (repeat' split) <;> simp

@[simp] theorem execComposite_settings (t : Nat) (src : Src) (d : Desc) (s : State) :
    (after (execComposite t src d s) s).settings = s.settings := by
  unfold execComposite
  refine State.command_settings _ _ _ _ _ _ _ _ (fun s c => ?_)
  try dsimp only
  (repeat' split) <;> first | (simp; done) | (rename_i hk; have := State.kSend_settings _ _ _ _ _ _ _ _ _ hk; simp_all; done) | grind [State.modRegion_settings, State.command_settings, State.admitReq_settings, State.stopWaiting_settings, settings_mk, settings_fold, foldl_settings]

@[simp] theorem execCbufCreate_settings (t : Nat) (h : MbxHdr) (slots slotSize cirque : Nat) (s : State) :
    (after (execCbufCreate t h slots slotSize cirque s) s).settings = s.settings := by
  unfold execCbufCreate
  refine State.mbox_settings _ _ _ _ _ _ _ (fun s => ?_)
  refine withRidge_settings _ _ _ (fun r => ?_)
  (repeat' split) <;> first | (simp; done) | skip
  rename_i hk
  have := State.newRegion_settings _ _ _ _ _ hk
  simpa using this

@[simp] theorem execCbufDestroy_settings (t : Nat) (h : MbxHdr) (region : Nat) (s : State) :
    (after (execCbufDestroy t h region s) s).settings = s.settings := by
  unfold execCbufDestroy
  grind [MRes.ok_settings, MRes.no_settings, State.mbox_settings, withRidge_settings, State.endRegion_settings, settings_mk, settings_fold, foldl_settings]

@[simp] theorem State.placeSketch_settings (s : State) (key : Nat) (p : Page) :
    (State.placeSketch s key p).settings = s.settings := by
  unfold State.placeSketch
  grind [State.bumpR_settings, State.modRidge_settings, settings_mk, settings_fold, foldl_settings]

@[simp] theorem State.sealGood_settings (s : State) (key : Nat) (p : Page) :
    (State.sealGood s key p).settings = s.settings := by
  simp [State.sealGood]

@[simp] theorem State.sealRaw_settings (s : State) (key j : Nat) (p : Page) :
    (State.sealRaw s key j p).settings = s.settings := by
  simp [State.sealRaw]

@[simp] theorem execPageSeal_settings (t : Nat) (cirque : Nat) (err : MemErr) (s : State) :
    (after (execPageSeal t cirque err s) s).settings = s.settings := by
  unfold execPageSeal
  dsimp only
  (repeat' split) <;> simp

end Sys2Proof.Machine
end

