-- ==== Sys2Proof/Laws/SettingsWork.lean ====
section
/-! SUPPORT. What leaves the settings alone: pages, attention, the DRAM, Cairn, the scheduler, items, proofs, Contour, leases and requests. -/

namespace Sys2Proof.Machine

open Sys2Proof

set_option linter.all false

@[simp] theorem execOpenSeq_settings (t : Nat) (src : Src) (d : Desc) (s : State) :
    (after (execOpenSeq t src d s) s).settings = s.settings := by
  unfold execOpenSeq
  grind [MRes.ok_settings, State.command_settings, State.quick_settings, State.putSeq_settings, State.mirSend_settings, State.mirror_settings, settings_mk, settings_fold, foldl_settings]

theorem State.allocPage_settings (s : State) (idx layer pageNo : Nat) (grad : Bool) :
    ∀ x, (State.allocPage s idx layer pageNo grad) = .ok x → x.1.settings = s.settings := by
  unfold State.allocPage
  dsimp only
  (repeat' split) <;> simp

@[simp] theorem State.reusePage_settings (s : State) (idx layer old pageNo key : Nat) :
    (State.reusePage s idx layer old pageNo key).settings = s.settings := by
  unfold State.reusePage
  dsimp only
  (repeat' split) <;> simp

theorem State.nextPage_settings (s : State) (idx layer pageNo : Nat) :
    ∀ x, (State.nextPage s idx layer pageNo) = .ok x → x.1.settings = s.settings := by
  intro x h
  unfold State.nextPage at h
  try dsimp only at h
  (repeat' split at h) <;> first | (simp at h; done) | (rename_i hk; have := State.kSend_settings _ _ _ _ _ _ _ _ _ hk; simp_all; done) | (simp at h; subst h; simp; done) | (simp_all; done) | grind [MRes.ok_settings, State.allocPage_settings, State.reusePage_settings, settings_mk, settings_fold, foldl_settings]

theorem State.fillTokens_settings (s : State) (idx key : Nat) (recs : List (List Byte)) :
    ∀ x, (State.fillTokens s idx key recs) = .ok x → x.settings = s.settings := by
  unfold State.fillTokens
  dsimp only
  (repeat' split) <;> simp

theorem State.writeTokens_settings (fuel : Nat) (s : State) (idx layer pos : Nat) (recs : List (List Byte)) :
    ∀ x, State.writeTokens fuel s idx layer pos recs = .ok x → x.settings = s.settings := by
  induction fuel generalizing s pos recs with
  | zero => intro x h; simp [State.writeTokens] at h; subst h; rfl
  | succ k ih =>
    intro x h
    unfold State.writeTokens at h
    (repeat' (first | split at h | dsimp only at h)) <;>
      first | (simp at h; done) | (simp at h; subst h; rfl; done) | (have hn := @State.nextPage_settings; have hf := @State.fillTokens_settings; grind)

@[simp] theorem State.noPages_settings (s : State) (slot r k : Nat) :
    (State.noPages s slot r k).settings = s.settings := by
  simp [State.noPages]

@[simp] theorem State.writeFailed_settings (s : State) (slot r : Nat) (e : WErr) :
    (State.writeFailed s slot r e).settings = s.settings := by
  unfold State.writeFailed
  dsimp only
  (repeat' split) <;> simp

@[simp] theorem State.commitAppend_settings (s : State) (slot : Nat) (q : Request) (sq : SeqD) (recs : List (List Byte)) (flushed : Nat) :
    (State.commitAppend s slot q sq recs flushed).settings = s.settings := by
  unfold State.commitAppend
  grind [State.bumpBy_settings, MRes.ok_settings, State.modReq_settings, State.take_settings, State.complete_settings, State.modLayer_settings, State.mirror_settings, State.mirAppend_settings, State.writeTokens_settings, State.writeFailed_settings, settings_mk, settings_fold, foldl_settings]

@[simp] theorem State.runAppend_settings (s : State) (slot : Nat) :
    (State.runAppend s slot).settings = s.settings := by
  unfold State.runAppend
  dsimp only
  (repeat' split) <;> simp

@[simp] theorem execAppend_settings (t : Nat) (src : Src) (d : Desc) (data : Option (List Byte)) (s : State) :
    (after (execAppend t src d data s) s).settings = s.settings := by
  unfold execAppend
  refine State.command_settings _ _ _ _ _ _ _ _ (fun s c => ?_)
  try dsimp only
  (repeat' split) <;> first | (simp; done) | (rename_i hk; have := State.kSend_settings _ _ _ _ _ _ _ _ _ hk; simp_all; done) | grind [State.command_settings, State.admitReq_settings, State.failNow_settings, State.source_settings, State.runAppend_settings, settings_mk, settings_fold, foldl_settings]

@[simp] theorem State.sealLayer_settings (s : State) (idx layer : Nat) (l : Layer) :
    (State.sealLayer s idx layer l).settings = s.settings := by
  unfold State.sealLayer
  grind [MRes.no_settings, State.modLayer_settings, State.dropRef_settings, State.queueSeal_settings, settings_mk, settings_fold, foldl_settings]

@[simp] theorem execSealSeq_settings (t : Nat) (src : Src) (d : Desc) (s : State) :
    (after (execSealSeq t src d s) s).settings = s.settings := by
  unfold execSealSeq
  grind [MRes.ok_settings, State.modSeq_settings, State.command_settings, State.quick_settings, State.mirror_settings, State.sealLayer_settings, settings_mk, settings_fold, foldl_settings]

@[simp] theorem execFree_settings (t : Nat) (src : Src) (d : Desc) (s : State) :
    (after (execFree t src d s) s).settings = s.settings := by
  unfold execFree
  grind [MRes.ok_settings, State.modSeq_settings, State.command_settings, State.quick_settings, State.mirror_settings, settings_mk, settings_fold, foldl_settings]

@[simp] theorem State.releaseLayer_settings (s : State) (idx h layer : Nat) (l : Layer) :
    (State.releaseLayer s idx h layer l).settings = s.settings := by
  simp [State.releaseLayer]

@[simp] theorem State.releaseSeq_settings (s : State) (idx : Nat) :
    (State.releaseSeq s idx).settings = s.settings := by
  unfold State.releaseSeq
  dsimp only
  (repeat' split) <;> simp

@[simp] theorem execSequenceRelease_settings (t : Nat) (index : Nat) (s : State) :
    (after (execSequenceRelease t index s) s).settings = s.settings := by
  simp [execSequenceRelease]

@[simp] theorem State.sealFirst_settings (s : State) (keys : List Nat) :
    (State.sealFirst s keys).settings = s.settings := by
  simp [State.sealFirst]

theorem State.copyPage_settings (s : State) (idx layer : Nat) (src : Nat) (p : Page) (n : Nat) :
    ∀ x, State.copyPage s idx layer src p n = .ok x → x.settings = s.settings := by
  intro x h
  unfold State.copyPage at h
  split at h
  · simp at h
  split at h
  · simp at h
  split at h
  · simp at h
  rename_i hk
  have := State.allocPage_settings _ _ _ _ _ _ hk
  dsimp only at h
  (repeat' split at h) <;> (simp at h this; subst h; simp [this])

theorem State.forkPage_settings (s : State) (idx layer f : Nat) (e : Nat × Nat) :
    ∀ x, (State.forkPage s idx layer f e) = .ok x → x.settings = s.settings := by
  intro x h
  unfold State.forkPage at h
  grind [MRes.ok_settings, State.modPage_settings, State.modLayer_settings, State.copyPage_settings, settings_mk, settings_fold]

theorem State.forkPages_settings (s : State) (idx layer f : Nat) (l : List (Nat × Nat)) :
    ∀ x, State.forkPages s idx layer f l = .ok x → x.settings = s.settings := by
  induction l generalizing s with
  | nil => intro x h; simp [State.forkPages] at h; subst h; rfl
  | cons a l ih => intro x h; unfold State.forkPages at h; grind [State.forkPage_settings]

theorem State.forkLayers_settings (s : State) (idx f : Nat) (l : List (Nat × Layer)) :
    ∀ x, State.forkLayers s idx f l = .ok x → x.settings = s.settings := by
  induction l generalizing s with
  | nil => intro x h; simp [State.forkLayers] at h; subst h; rfl
  | cons a l ih => intro x h; unfold State.forkLayers at h; grind [State.forkPages_settings]

@[simp] theorem State.runFork_settings (s : State) (slot : Nat) :
    (State.runFork s slot).settings = s.settings := by
  unfold State.runFork
  grind [MRes.ok_settings, State.modReq_settings, State.complete_settings, State.putSeq_settings, State.mirror_settings, State.writeFailed_settings, State.sealFirst_settings, State.forkLayers_settings, settings_mk, settings_fold, foldl_settings]

@[simp] theorem execFork_settings (t : Nat) (src : Src) (d : Desc) (s : State) :
    (after (execFork t src d s) s).settings = s.settings := by
  unfold execFork
  refine State.command_settings _ _ _ _ _ _ _ _ (fun s c => ?_)
  try dsimp only
  (repeat' split) <;> first | (simp; done) | (rename_i hk; have := State.kSend_settings _ _ _ _ _ _ _ _ _ hk; simp_all; done) | grind [State.command_settings, State.admitReq_settings, State.runFork_settings, settings_mk, settings_fold, foldl_settings]

@[simp] theorem execForkResume_settings (t : Nat) (slot : Nat) (s : State) :
    (after (execForkResume t slot s) s).settings = s.settings := by
  unfold execForkResume
  dsimp only
  (repeat' split) <;> simp

@[simp] theorem State.runIngest_settings (s : State) (slot : Nat) :
    (State.runIngest s slot).settings = s.settings := by
  unfold State.runIngest
  grind [State.bumpBy_settings, State.bumpR_settings, MRes.ok_settings, State.modReq_settings, State.countSC_settings, State.complete_settings, State.modLayer_settings, State.writeTokens_settings, State.writeFailed_settings, settings_mk, settings_fold, foldl_settings]

@[simp] theorem execIngest_settings (t : Nat) (src : Src) (d : Desc) (data : Option (List Byte)) (s : State) :
    (after (execIngest t src d data s) s).settings = s.settings := by
  unfold execIngest
  refine State.command_settings _ _ _ _ _ _ _ _ (fun s c => ?_)
  try dsimp only
  (repeat' split) <;> first | (simp; done) | (rename_i hk; have := State.kSend_settings _ _ _ _ _ _ _ _ _ hk; simp_all; done) | grind [State.command_settings, State.admitReq_settings, State.failNow_settings, State.source_settings, State.runIngest_settings, settings_mk, settings_fold, foldl_settings]

@[simp] theorem execRingReuseResume_settings (t : Nat) (slot : Nat) (s : State) :
    (after (execRingReuseResume t slot s) s).settings = s.settings := by
  simp [execRingReuseResume]

@[simp] theorem State.countReads_settings (s : State) (keys : List Nat) :
    (State.countReads s keys).settings = s.settings := by
  unfold State.countReads
  grind [State.dramRead_settings, settings_mk, settings_fold, foldl_settings]

@[simp] theorem execRead_settings (t : Nat) (src : Src) (d : Desc) (s : State) :
    (after (execRead t src d s) s).settings = s.settings := by
  unfold execRead
  refine State.command_settings _ _ _ _ _ _ _ _ (fun s c => ?_)
  try dsimp only
  (repeat' split) <;> first | (simp; done) | (rename_i hk; have := State.kSend_settings _ _ _ _ _ _ _ _ _ hk; simp_all; done) | grind [MRes.ok_settings, State.command_settings, State.admitReq_settings, State.failNow_settings, State.pageErr_settings, State.deliverOut_settings, State.countReads_settings, settings_mk, settings_fold, foldl_settings]



@[simp] theorem State.setBankRow_settings (s : State) (c j row : Nat) (x : RowImg) :
    (State.setBankRow s c j row x).settings = s.settings := by
  simp [State.setBankRow]

@[simp] theorem State.claim_settings (s : State) (lists : List (List Nat)) :
    (State.claim s lists).2.settings = s.settings := by
  simp [State.claim]

@[simp] theorem State.keepUnit_settings (s : State) (c j : Nat) (u : UnitRun) :
    (State.keepUnit s c j u).settings = s.settings := by
  unfold State.keepUnit
  grind [State.modBank_settings, State.setBankRow_settings, settings_mk, settings_fold, foldl_settings]

@[simp] theorem State.holdGroups_settings (s : State) (c holder : Nat) (gs : List Nat) :
    (State.holdGroups s c holder gs).settings = s.settings := by
  simp [State.holdGroups]

@[simp] theorem State.resetUnits_settings (s : State) (c g state : Nat) :
    (State.resetUnits s c g state).settings = s.settings := by
  simp [State.resetUnits]

@[simp] theorem State.leaveMode_settings (s : State) (c g : Nat) :
    (State.leaveMode s c g).settings = s.settings := by
  simp [State.leaveMode]

@[simp] theorem State.apWrite_settings (s : State) (c j row b : Nat) (bs : List Byte) :
    (State.apWrite s c j row b bs).settings = s.settings := by
  simp [State.apWrite]

@[simp] theorem State.readModeRegister_settings (s : State) (c channel rank n : Nat) :
    (State.readModeRegister s c channel rank n).2.settings = s.settings := by
  simp [State.readModeRegister]

@[simp] theorem State.boundary_settings (s : State) (key : Nat) :
    (State.boundary s key).settings = s.settings := by
  simp [State.boundary]

@[simp] theorem State.stopBank_settings (s : State) (key : Nat) (g : Segment) :
    (State.stopBank s key g).settings = s.settings := by
  simp [State.stopBank]

@[simp] theorem State.exitCairn_settings (s : State) (c : Nat) :
    (State.exitCairn s c).settings = s.settings := by
  unfold State.exitCairn
  grind [State.stopBank_settings, settings_mk, settings_fold, foldl_settings]

@[simp] theorem State.writeSegment_settings (s : State) (c j : Nat) (g : Segment) :
    (State.writeSegment s c j g).settings = s.settings := by
  unfold State.writeSegment
  try dsimp only
  (repeat' split) <;> simp

@[simp] theorem State.startBank_settings (s : State) (key i : Nat) :
    (State.startBank s key i).settings = s.settings := by
  unfold State.startBank
  try dsimp only
  (repeat' split) <;> simp

@[simp] theorem State.startSegments_settings (fuel : Nat) (s : State) (st : Nat) :
    (State.startSegments fuel s st).settings = s.settings := by
  induction fuel generalizing s st with
  | zero => simp [State.startSegments]
  | succ k ih =>
    unfold State.startSegments
    try dsimp only
    (repeat' split) <;> simp_all

@[simp] theorem State.kickCirque_settings (s : State) (c : Nat) :
    (State.kickCirque s c).settings = s.settings := by
  simp [State.kickCirque]

@[simp] theorem State.queueSegs_settings (s : State) (l : List (Nat × Segment)) :
    (State.queueSegs s l).settings = s.settings := by
  simp [State.queueSegs]

@[simp] theorem State.thinFallback_settings (s : State) (slot : Nat) (l : List (Nat × Nat)) :
    (State.thinFallback s slot l).settings = s.settings := by
  unfold State.thinFallback
  try dsimp only
  (repeat' split) <;> simp

@[simp] theorem State.thinRows_settings (s : State) (slot c r : Nat) (l : List (Nat × Nat × List CairnOp)) :
    (State.thinRows s slot c r l).settings = s.settings := by
  simp [State.thinRows]

@[simp] theorem State.setHeld_settings (s : State) (r h : Nat) (b : Bool) :
    (State.setHeld s r h b).settings = s.settings := by
  simp [State.setHeld]

@[simp] theorem State.finishLeaves_settings (s : State) (r h : Nat) :
    (State.finishLeaves s r h).settings = s.settings := by
  simp [State.finishLeaves]

@[simp] theorem execCairnHoldEnter_settings (t : Nat) (src : Src) (d : Desc) (s : State) :
    (after (execCairnHoldEnter t src d s) s).settings = s.settings := by
  unfold execCairnHoldEnter
  refine State.command_settings _ _ _ _ _ _ _ _ (fun s c => ?_)
  try dsimp only
  (repeat' split) <;> first | (simp; done) | (rename_i hk; have := State.kSend_settings _ _ _ _ _ _ _ _ _ hk; simp_all; done) | grind [MRes.ok_settings, State.command_settings, State.admit_settings, State.complete_settings, State.holdGroups_settings, State.setHeld_settings, settings_mk, settings_fold, foldl_settings]

@[simp] theorem execCairnHoldLeave_settings (t : Nat) (src : Src) (d : Desc) (s : State) :
    (after (execCairnHoldLeave t src d s) s).settings = s.settings := by
  unfold execCairnHoldLeave
  refine State.command_settings _ _ _ _ _ _ _ _ (fun s c => ?_)
  try dsimp only
  (repeat' split) <;> first | (simp; done) | (rename_i hk; have := State.kSend_settings _ _ _ _ _ _ _ _ _ hk; simp_all; done) | grind [State.command_settings, State.admit_settings, State.setHeld_settings, State.finishLeaves_settings, settings_mk, settings_fold, foldl_settings]

@[simp] theorem execCscrCreate_settings (t : Nat) (h : MbxHdr) (cirque groups : Nat) (s : State) :
    (after (execCscrCreate t h cirque groups s) s).settings = s.settings := by
  unfold execCscrCreate
  refine State.mbox_settings _ _ _ _ _ _ _ (fun s => ?_)
  refine withRidge_settings _ _ _ (fun r => ?_)
  (repeat' split) <;> first | (simp; done) | skip
  rename_i hn _ _ _ hc
  have h1 := State.newRegion_settings _ _ _ _ _ hn
  have h2 := congrArg (fun x : Nat × State => x.2.settings) hc
  simp only [State.claim_settings] at h1 h2
  simp [← h2, h1]

@[simp] theorem execCscrDestroy_settings (t : Nat) (h : MbxHdr) (region : Nat) (s : State) :
    (after (execCscrDestroy t h region s) s).settings = s.settings := by
  unfold execCscrDestroy
  refine State.mbox_settings _ _ _ _ _ _ _ (fun s => ?_)
  try refine withRidge_settings _ _ _ (fun r => ?_)
  try dsimp only
  (repeat' split) <;> first | (simp; done) | (rename_i hk; have := State.kSend_settings _ _ _ _ _ _ _ _ _ hk; simp_all; done) | grind [MRes.ok_settings, MRes.no_settings, State.mbox_settings, withRidge_settings, State.endRegion_settings, settings_mk, settings_fold, foldl_settings]

@[simp] theorem execCairn_settings (t : Nat) (src : Src) (d : Desc) (inl : List Byte) (s : State) :
    (after (execCairn t src d inl s) s).settings = s.settings := by
  unfold execCairn
  refine State.command_settings _ _ _ _ _ _ _ _ (fun s c => ?_)
  try dsimp only
  (repeat' split) <;> first | (simp; done) | (rename_i hk; have := State.kSend_settings _ _ _ _ _ _ _ _ _ hk; simp_all; done) | grind [State.command_settings, State.admit_settings, State.kickCirque_settings, State.queueSegs_settings, settings_mk, settings_fold, foldl_settings]

@[simp] theorem State.cairnEnded_settings (s : State) (slot j : Nat) (bs : List Byte) (bad : Bool) :
    (State.cairnEnded s slot j bs bad).settings = s.settings := by
  unfold State.cairnEnded
  try dsimp only
  (repeat' split) <;> simp

@[simp] theorem State.cairnDeadline_settings (s : State) (slot : Nat) (q : Request) :
    (State.cairnDeadline s slot q).settings = s.settings := by
  simp [State.cairnDeadline]

@[simp] theorem State.countSegment_settings (s : State) (c j : Nat) (u : UnitRun) :
    (State.countSegment s c j u).settings = s.settings := by
  unfold State.countSegment
  try dsimp only
  (repeat' split) <;> simp

@[simp] theorem State.segmentDone_settings (s : State) (c j : Nat) (g : Segment) (u : UnitRun) :
    (State.segmentDone s c j g u).settings = s.settings := by
  unfold State.segmentDone
  try dsimp only
  (repeat' split) <;> simp

@[simp] theorem State.endSegment_settings (s : State) (c j : Nat) (g : Segment) (met : SegMet) :
    (State.endSegment s c j g met).settings = s.settings := by
  simp [State.endSegment]

@[simp] theorem State.notInMode_settings (s : State) (c j : Nat) (g : Segment) :
    (State.notInMode s c j g).settings = s.settings := by
  unfold State.notInMode
  try dsimp only
  (repeat' split) <;> simp

@[simp] theorem execSegmentComplete_settings (t : Nat) (cirque bank : Nat) (met : SegMet) (s : State) :
    (after (execSegmentComplete t cirque bank met s) s).settings = s.settings := by
  unfold execSegmentComplete
  try dsimp only
  (repeat' split) <;> simp

@[simp] theorem execModeEntryComplete_settings (t : Nat) (cirque group : Nat) (s : State) :
    (after (execModeEntryComplete t cirque group s) s).settings = s.settings := by
  simp [execModeEntryComplete]

@[simp] theorem execLingerExpiry_settings (t : Nat) (cirque group : Nat) (s : State) :
    (after (execLingerExpiry t cirque group s) s).settings = s.settings := by
  unfold execLingerExpiry
  try dsimp only
  (repeat' split) <;> simp

@[simp] theorem State.zeroRows_settings (s : State) (stack : Nat) :
    (State.zeroRows s stack).settings = s.settings := by
  unfold State.zeroRows
  try dsimp only
  (repeat' split) <;> simp

@[simp] theorem State.hotFallback_settings (s : State) (stack : Nat) :
    (State.hotFallback s stack).settings = s.settings := by
  simp [State.hotFallback]

@[simp] theorem execCairnTick_settings (t : Nat) (stack : Nat) (s : State) :
    (after (execCairnTick t stack s) s).settings = s.settings := by
  simp [execCairnTick]

@[simp] theorem execRefreshDue_settings (t : Nat) (cirque bank : Nat) (s : State) :
    (after (execRefreshDue t cirque bank s) s).settings = s.settings := by
  simp [execRefreshDue]

@[simp] theorem execPatrolRead_settings (t : Nat) (stack : Nat) (err : MemErr) (s : State) :
    (after (execPatrolRead t stack err s) s).settings = s.settings := by
  unfold execPatrolRead
  try dsimp only
  (repeat' split) <;> simp

@[simp] theorem State.chargeOpen_settings (s : State) (c e n t0 : Nat) (fed shadows : Bool) :
    (State.chargeOpen s c e n t0 fed shadows).settings = s.settings := by
  unfold State.chargeOpen
  dsimp only
  (repeat' split) <;> simp

@[simp] theorem State.chargeCycles_settings (s : State) (c e n : Nat) (x : Cell) (gated : Bool) :
    (State.chargeCycles s c e n x gated).settings = s.settings := by
  simp [State.chargeCycles]

@[simp] theorem State.charge_settings (s : State) (c e : Nat) (gated : Bool) :
    (State.charge s c e gated).settings = s.settings := by
  unfold State.charge
  try dsimp only
  (repeat' split) <;> simp

@[simp] theorem State.chargeCirque_settings (s : State) (c : Nat) :
    (State.chargeCirque s c).settings = s.settings := by
  simp [State.chargeCirque]

@[simp] theorem State.chargeAll_settings (s : State) (gated : Bool) :
    (State.chargeAll s gated).settings = s.settings := by
  simp [State.chargeAll]

@[simp] theorem State.onCell_settings (s : State) (c e : Nat) (f : Cell → Cell) :
    (State.onCell s c e f).settings = s.settings := by
  simp [State.onCell]

@[simp] theorem State.clock_settings (fuel : Nat) (s : State) (d set : Nat) :
    (State.clock fuel s d set).1.settings = s.settings := by
  induction fuel generalizing s d set with
  | zero => simp [State.clock]
  | succ k ih =>
    unfold State.clock
    try dsimp only
    (repeat' split) <;> simp_all

@[simp] theorem State.hitFrame_settings (s : State) (d set w : Nat) :
    (State.hitFrame s d set w).1.settings = s.settings := by
  unfold State.hitFrame
  grind [State.bumpN_settings, State.fire_settings, settings_mk, settings_fold, foldl_settings]

@[simp] theorem State.hitLocal_settings (s : State) (c e : Nat) :
    (State.hitLocal s c e).settings = s.settings := by
  unfold State.hitLocal
  grind [State.bumpN_settings, State.fire_settings, State.modCell_settings, settings_mk, settings_fold, foldl_settings]

@[simp] theorem State.startFrame_settings (s : State) (d key : Nat) (kind : FillKind) :
    (State.startFrame s d key kind).1.settings = s.settings := by
  unfold State.startFrame
  grind [State.event_settings, State.modCirque_settings, State.clock_settings, State.hitFrame_settings, settings_mk, settings_fold, foldl_settings]

@[simp] theorem State.drawShadow_settings (s : State) (q : Request) :
    (State.drawShadow s q).2.settings = s.settings := by
  unfold State.drawShadow
  try dsimp only
  (repeat' split) <;> simp

@[simp] theorem State.createItem_settings (s : State) (q : Request) (i : Item) :
    (State.createItem s q i).1.settings = s.settings := by
  unfold State.createItem
  try dsimp only
  (repeat' split) <;> simp

@[simp] theorem State.topUp_settings (s : State) (slot : Nat) : (State.topUp s slot).settings = s.settings := by
  unfold State.topUp
  split
  · rfl
  · try dsimp only
    rw [State.modReq_settings, foldl_pair_settings]
    intro p a
    simp

@[simp] theorem State.topUpAll_settings (s : State) :
    (State.topUpAll s).settings = s.settings := by
  simp [State.topUpAll]

@[simp] theorem State.stopCell_settings (s : State) (c e : Nat) (i : Item) :
    (State.stopCell s c e i).settings = s.settings := by
  simp [State.stopCell]

@[simp] theorem State.markFor_settings (fuel : Nat) (s : State) (c : Nat) (items : List Item) :
    (State.markFor fuel s c items).settings = s.settings := by
  induction fuel generalizing s c items with
  | zero => simp [State.markFor]
  | succ k ih =>
    unfold State.markFor
    try dsimp only
    (repeat' split) <;> simp_all

@[simp] theorem State.preempt_settings (s : State) (c : Nat) :
    (State.preempt s c).settings = s.settings := by
  simp [State.preempt]

@[simp] theorem State.feed_settings (s : State) (c e : Nat) :
    (State.feed s c e).settings = s.settings := by
  simp [State.feed]

@[simp] theorem State.abandon_settings (s : State) (slot : Nat) :
    (State.abandon s slot).settings = s.settings := by
  simp [State.abandon]

@[simp] theorem State.startStream_settings (s : State) (c key : Nat) :
    (State.startStream s c key).settings = s.settings := by
  simp [State.startStream]

@[simp] theorem State.frameBad_settings (s : State) (c k key r : Nat) (f : Frame) (slots : List Nat) :
    (State.frameBad s c k key r f slots).settings = s.settings := by
  unfold State.frameBad
  grind [State.bumpR_settings, State.bumpN_settings, State.report_settings, State.weigh_settings, State.failReq_settings, State.startFrame_settings, State.abandon_settings, State.startStream_settings, settings_mk, settings_fold, foldl_settings]

@[simp] theorem State.joinFill_settings (s : State) (c e key : Nat) :
    (State.joinFill s c e key).settings = s.settings := by
  unfold State.joinFill
  try dsimp only
  (repeat' split) <;> simp

@[simp] theorem State.access_settings (s : State) (c e : Nat) (i : Item) :
    (State.access s c e i).settings = s.settings := by
  unfold State.access
  try dsimp only
  (repeat' split) <;> first | (simp; done) | (rename_i hk; have := State.kSend_settings _ _ _ _ _ _ _ _ _ hk; simp_all; done) | grind [State.event_settings, State.startFrame_settings, State.feed_settings, State.startStream_settings, State.frameBad_settings, State.joinFill_settings, settings_mk, settings_fold, foldl_settings]

@[simp] theorem State.prefetchAhead_settings (s : State) (slot : Nat) :
    (State.prefetchAhead s slot).settings = s.settings := by
  unfold State.prefetchAhead
  try dsimp only
  (repeat' split) <;> first | (simp; done) | (rename_i hk; have := State.kSend_settings _ _ _ _ _ _ _ _ _ hk; simp_all; done) | grind [State.event_settings, MRes.no_settings, State.take_settings, State.startFrame_settings, settings_mk, settings_fold, foldl_settings]

@[simp] theorem State.takeItem_settings (s : State) (c e : Nat) (i : Item) (fresh : Bool) :
    (State.takeItem s c e i fresh).settings = s.settings := by
  unfold State.takeItem
  try dsimp only
  (repeat' split) <;> simp

@[simp] theorem State.giveMark_settings (s : State) (c e : Nat) :
    (State.giveMark s c e).settings = s.settings := by
  unfold State.giveMark
  try dsimp only
  (repeat' split) <;> simp

@[simp] theorem State.dispatch_settings (s : State) (c : Nat) :
    (State.dispatch s c).settings = s.settings := by
  unfold State.dispatch
  try dsimp only
  (repeat' split) <;> simp

@[simp] theorem execItemDispatch_settings (t : Nat) (cirque : Nat) (s : State) :
    (after (execItemDispatch t cirque s) s).settings = s.settings := by
  simp [execItemDispatch]

@[simp] theorem State.commitOne_settings (s : State) (q : Request) (f : Fmt) (start pos h : Nat) (cs : List Contrib) :
    (State.commitOne s q f start pos h cs).1.settings = s.settings := by
  unfold State.commitOne
  try dsimp only
  (repeat' split) <;> simp

@[simp] theorem State.commitPage_settings (s : State) (slot page : Nat) : (State.commitPage s slot page).settings = s.settings := by
  unfold State.commitPage
  split
  · rfl
  split
  · rfl
  try dsimp only
  rw [State.modReq_settings, foldl_pair_settings]
  intro p a
  try dsimp only
  split
  · rw [State.commitOne_settings]
  · rfl

@[simp] theorem State.foldIn_settings (s : State) (slot : Nat) (i : Item) (o : ItemOut) :
    (State.foldIn s slot i o).settings = s.settings := by
  unfold State.foldIn
  try dsimp only
  (repeat' split) <;> simp

@[simp] theorem State.tryCommit_settings (s : State) (slot page : Nat) :
    (State.tryCommit s slot page).settings = s.settings := by
  unfold State.tryCommit
  try dsimp only
  (repeat' split) <;> simp

@[simp] theorem State.drainLane_settings (fuel : Nat) (s : State) (lane : Nat) :
    (State.drainLane fuel s lane).settings = s.settings := by
  induction fuel generalizing s lane with
  | zero => simp [State.drainLane]
  | succ k ih =>
    unfold State.drainLane
    try dsimp only
    (repeat' split) <;> simp_all

@[simp] theorem State.offer_settings (s : State) (i : Item) (o : ItemOut) :
    (State.offer s i o).1.settings = s.settings := by
  unfold State.offer
  try dsimp only
  (repeat' split) <;> simp

@[simp] theorem State.afterItem_settings (s : State) (c e : Nat) (i : Item) :
    (State.afterItem s c e i).settings = s.settings := by
  unfold State.afterItem
  try dsimp only
  (repeat' split) <;> simp

@[simp] theorem State.mergeAccept_settings (s : State) (lane : Nat) :
    (State.mergeAccept s lane).settings = s.settings := by
  unfold State.mergeAccept
  try dsimp only
  (repeat' split) <;> simp

@[simp] theorem execMergeAccept_settings (t : Nat) (cirque : Nat) (s : State) :
    (after (execMergeAccept t cirque s) s).settings = s.settings := by
  simp [execMergeAccept]

@[simp] theorem execSpillComplete_settings (t : Nat) (cirque cell : Nat) (s : State) :
    (after (execSpillComplete t cirque cell s) s).settings = s.settings := by
  unfold execSpillComplete
  try dsimp only
  (repeat' split) <;> simp

@[simp] theorem State.fillRead_settings (s : State) (key : Nat) (p : Page) (err : MemErr) :
    (State.fillRead s key p err).1.settings = s.settings := by
  unfold State.fillRead
  try dsimp only
  (repeat' split) <;> simp

@[simp] theorem State.fillFailed_settings (s : State) (c key g : Nat) (p : Page) (cause : Cause) :
    (State.fillFailed s c key g p cause).settings = s.settings := by
  simp [State.fillFailed]

@[simp] theorem State.streamGood_settings (s : State) (c key : Nat) (p : Page) :
    (State.streamGood s c key p).settings = s.settings := by
  unfold State.streamGood
  grind [State.modCell_settings, State.feed_settings, State.access_settings, settings_mk, settings_fold, foldl_settings]

@[simp] theorem State.frameGood_settings (s : State) (c key : Nat) (p : Page) :
    (State.frameGood s c key p).settings = s.settings := by
  unfold State.frameGood
  try dsimp only
  (repeat' split) <;> simp

@[simp] theorem execFillComplete_settings (t : Nat) (cirque slot : Nat) (kind : FillKind) (err : MemErr) (s : State) :
    (after (execFillComplete t cirque slot kind err s) s).settings = s.settings := by
  unfold execFillComplete
  dsimp only
  split
  · split
    · rename_i hk
      have h := congrArg (fun p => p.1.settings) hk
      simp at h
      simp [← h]
    · rename_i hk
      have h := congrArg (fun p => p.1.settings) hk
      simp at h
      split <;> simp [← h]
  · simp

@[simp] theorem State.oddCell_settings (s : State) (c e : Nat) (injected : Bool) :
    (State.oddCell s c e injected).settings = s.settings := by
  simp [State.oddCell]

@[simp] theorem State.settle_settings (s : State) (c e : Nat) (q : Request) (i : Item) (o : Option ItemOut) :
    (State.settle s c e q i o).settings = s.settings := by
  unfold State.settle
  grind [State.bumpC_settings, State.bumpN_settings, State.weigh_settings, State.modReq_settings, State.failReq_settings, State.onCell_settings, State.abandon_settings, State.offer_settings, settings_mk, settings_fold, foldl_settings]

@[simp] theorem State.addRun_settings (s : State) (c e : Nat) (i : Item) (o : Option ItemOut) :
    (State.addRun s c e i o).settings = s.settings := by
  unfold State.addRun
  try dsimp only
  (repeat' split) <;> simp

@[simp] theorem State.vectorFailed_settings (s : State) (c : Nat) (q : Request) (i : Item) :
    (State.vectorFailed s c q i).settings = s.settings := by
  simp [State.vectorFailed]

@[simp] theorem State.itemResult_settings (s : State) (c e : Nat) (q : Request) (i : Item) (o : ItemOut) :
    (State.itemResult s c e q i o).settings = s.settings := by
  unfold State.itemResult
  grind [State.bumpC_settings, State.onCell_settings, State.offer_settings, State.addRun_settings, settings_mk, settings_fold, foldl_settings]

@[simp] theorem State.storeFailed_settings (s : State) (c e : Nat) (q : Request) (i : Item) (injected : Bool) :
    (State.storeFailed s c e q i injected).settings = s.settings := by
  simp [State.storeFailed]

@[simp] theorem State.itemEvents_settings (s : State) (c : Nat) (w : Work) (page : Nat) (pairs : List Nat) :
    (State.itemEvents s c w page pairs).settings = s.settings := by
  simp [State.itemEvents]

@[simp] theorem execItemComplete_settings (t : Nat) (cirque cell : Nat) (err : MemErr) (flip : Option (Nat × W32)) (s : State) :
    (after (execItemComplete t cirque cell err flip s) s).settings = s.settings := by
  unfold execItemComplete
  try dsimp only
  (repeat' split) <;> simp

@[simp] theorem State.warm_settings (s : State) (slot : Nat) (e : Nat × Nat) :
    (State.warm s slot e).settings = s.settings := by
  unfold State.warm
  grind [State.event_settings, State.prefetchOne_settings, State.startFrame_settings, settings_mk, settings_fold, foldl_settings]

@[simp] theorem execPrefetch_settings (t : Nat) (src : Src) (d : Desc) (s : State) :
    (after (execPrefetch t src d s) s).settings = s.settings := by
  unfold execPrefetch
  refine State.command_settings _ _ _ _ _ _ _ _ (fun s c => ?_)
  try dsimp only
  (repeat' split) <;> first | (simp; done) | (rename_i hk; have := State.kSend_settings _ _ _ _ _ _ _ _ _ hk; simp_all; done) | grind [MRes.ok_settings, State.command_settings, State.admit_settings, State.complete_settings, State.warm_settings, settings_mk, settings_fold, foldl_settings]

@[simp] theorem State.startFetch_settings (s : State) (slot len : Nat) : (State.startFetch s slot len).1.settings = s.settings := by
  unfold State.startFetch
  split
  · rfl
  dsimp only
  split
  · simp
  split
  · simp
  split
  · simp
  · rename_i hk
    have h1 := State.newRegion_settings _ _ _ _ _ hk
    dsimp only at h1 ⊢
    split
    · simp [h1]
    · rename_i hs
      have h2 := State.kSend_settings _ _ _ _ _ _ _ _ _ hs
      simp at h1 h2
      simp [h2, h1]

@[simp] theorem State.queryNonfinite_settings (s : State) (slot layer : Nat) (heads : List Nat) :
    (State.queryNonfinite s slot layer heads).settings = s.settings := by
  simp [State.queryNonfinite]

@[simp] theorem State.beginThin_settings (s : State) (slot : Nat) (sq : SeqD) :
    (State.beginThin s slot sq).settings = s.settings := by
  unfold State.beginThin
  try dsimp only
  (repeat' split) <;> simp

@[simp] theorem State.beginDense_settings (s : State) (slot : Nat) (f : Fmt) (start : Nat) (chosen : List Nat) (approx : Bool) :
    (State.beginDense s slot f start chosen approx).settings = s.settings := by
  unfold State.beginDense
  try dsimp only
  (repeat' split) <;> simp

@[simp] theorem State.attend_settings (s : State) (slot : Nat) (bytes : List Byte) :
    (State.attend s slot bytes).settings = s.settings := by
  unfold State.attend
  try dsimp only
  (repeat' split) <;> simp

@[simp] theorem State.choose_settings (s : State) (slot : Nat) (q : Request) (sq : SeqD) (g : Pskr) (forced sk : List Nat) :
    (State.choose s slot q sq g forced sk).settings = s.settings := by
  simp [State.choose]

@[simp] theorem State.selectPages_settings (s : State) (slot : Nat) (err : MemErr) :
    (State.selectPages s slot err).settings = s.settings := by
  unfold State.selectPages
  try dsimp only
  (repeat' split) <;> simp

@[simp] theorem State.markDirty_settings (s : State) (q : Request) (st : Status) :
    (State.markDirty s q st).settings = s.settings := by
  unfold State.markDirty
  try dsimp only
  (repeat' split) <;> simp

@[simp] theorem State.finishFailed_settings (s : State) (slot : Nat) (st : Status) :
    (State.finishFailed s slot st).settings = s.settings := by
  unfold State.finishFailed
  try dsimp only
  (repeat' split) <;> simp

@[simp] theorem State.commitAll_settings (s : State) (slot : Nat) :
    (State.commitAll s slot).settings = s.settings := by
  unfold State.commitAll
  try dsimp only
  (repeat' split) <;> simp

@[simp] theorem State.finishAttend_settings (s : State) (slot : Nat) : (State.finishAttend s slot).settings = s.settings := by
  unfold State.finishAttend
  split
  · rfl
  extract_lets late
  split
  · simp
  split
  · simp
  split
  · rfl
  extract_lets
  split
  · simp
  split
  · exact State.commitAll_settings _ _
  split
  · exact (State.finishFailed_settings _ _ _).trans (State.commitAll_settings _ _)
  refine (State.deliverOut_settings _ _ _).trans ((State.modReq_settings _ _ _).trans ?_)
  simp +zetaDelta only [ite_settings, State.bumpR_settings, State.commitAll_settings, ite_self]

theorem State.allocGrads_settings (s : State) (idx layer : Nat) (ns : List Nat) :
    ∀ x, State.allocGrads s idx layer ns = .ok x → x.settings = s.settings := by
  induction ns generalizing s with
  | nil => intro x h; simp [State.allocGrads] at h; subst h; rfl
  | cons a l ih =>
    intro x h
    unfold State.allocGrads at h
    have ha := @State.allocPage_settings
    grind

@[simp] theorem State.clearGrads_settings (s : State) (idx layer lo hi : Nat) (free : Bool) :
    (State.clearGrads s idx layer lo hi free).settings = s.settings := by
  unfold State.clearGrads
  try dsimp only
  (repeat' split) <;> simp

@[simp] theorem execGradSend_settings (t : Nat) (src : Src) (d : Desc) (s : State) :
    (after (execGradSend t src d s) s).settings = s.settings := by
  unfold execGradSend
  refine State.command_settings _ _ _ _ _ _ _ _ (fun s c => ?_)
  try dsimp only
  (repeat' split) <;> first | (simp; done) | (rename_i hk; have := State.kSend_settings _ _ _ _ _ _ _ _ _ hk; simp_all; done) | grind [MRes.ok_settings, State.command_settings, State.admit_settings, State.failNow_settings, State.pageErr_settings, State.deliverOut_settings, settings_mk, settings_fold, foldl_settings]

@[simp] theorem execGradClear_settings (t : Nat) (src : Src) (d : Desc) (s : State) :
    (after (execGradClear t src d s) s).settings = s.settings := by
  unfold execGradClear
  refine State.command_settings _ _ _ _ _ _ _ _ (fun s c => ?_)
  try dsimp only
  (repeat' split) <;> first | (simp; done) | (rename_i hk; have := State.kSend_settings _ _ _ _ _ _ _ _ _ hk; simp_all; done) | grind [MRes.ok_settings, State.command_settings, State.quick_settings, State.modLayer_settings, State.clearGrads_settings, settings_mk, settings_fold, foldl_settings]

@[simp] theorem execMprogLoad_settings (t : Nat) (h : MbxHdr) (slot : Nat) (words consts : List W32) (s : State) :
    (after (execMprogLoad t h slot words consts s) s).settings = s.settings := by
  unfold execMprogLoad
  refine State.mbox_settings _ _ _ _ _ _ _ (fun s => ?_)
  try refine withRidge_settings _ _ _ (fun r => ?_)
  try dsimp only
  (repeat' split) <;> first | (simp; done) | (rename_i hk; have := State.kSend_settings _ _ _ _ _ _ _ _ _ hk; simp_all; done) | grind [State.modRidge_settings, MRes.ok_settings, MRes.no_settings, State.mbox_settings, withRidge_settings, settings_mk, settings_fold, foldl_settings]

@[simp] theorem execMprogClear_settings (t : Nat) (h : MbxHdr) (slot : Nat) (s : State) :
    (after (execMprogClear t h slot s) s).settings = s.settings := by
  unfold execMprogClear
  refine State.mbox_settings _ _ _ _ _ _ _ (fun s => ?_)
  try refine withRidge_settings _ _ _ (fun r => ?_)
  try dsimp only
  (repeat' split) <;> first | (simp; done) | (rename_i hk; have := State.kSend_settings _ _ _ _ _ _ _ _ _ hk; simp_all; done) | grind [State.modRidge_settings, MRes.ok_settings, MRes.no_settings, State.mbox_settings, withRidge_settings, settings_mk, settings_fold, foldl_settings]

@[simp] theorem State.modPart_settings (s : State) (key c : Nat) (f : IndexPart → IndexPart) :
    (State.modPart s key c f).settings = s.settings := by
  simp [State.modPart]

theorem State.drawPattern_succ (s : State) (k : Nat) :
    s.drawPattern (k + 1) = ((s.draw.1).toNat + (s.draw.2.drawPattern k).1 * 2 ^ 64, (s.draw.2.drawPattern k).2) := by
  rw [State.drawPattern]
@[simp] theorem State.drawPattern_settings (s : State) (n : Nat) : (s.drawPattern n).2.settings = s.settings := by
  induction n generalizing s with
  | zero => rw [State.drawPattern]
  | succ k ih => rw [State.drawPattern_succ]; rw [ih, State.draw_settings]

@[simp] theorem execCtrCreate_settings (t : Nat) (h : MbxHdr) (p : IndexParams) (s : State) :
    (after (execCtrCreate t h p s) s).settings = s.settings := by
  unfold execCtrCreate
  refine State.mbox_settings _ _ _ _ _ _ _ (fun s => ?_)
  try refine withRidge_settings _ _ _ (fun r => ?_)
  try dsimp only
  (repeat' split) <;> first | (simp; done) | (rename_i hk; have := State.kSend_settings _ _ _ _ _ _ _ _ _ hk; simp_all; done) | grind [State.clearCtrs_settings, State.bumpR_settings, MRes.ok_settings, MRes.no_settings, MRes.hw_settings, State.mbox_settings, withRidge_settings, State.noPages_settings, State.drawPattern_settings, settings_mk, settings_fold, foldl_settings]

@[simp] theorem execCtrDestroy_settings (t : Nat) (h : MbxHdr) (index : Nat) (s : State) :
    (after (execCtrDestroy t h index s) s).settings = s.settings := by
  unfold execCtrDestroy
  refine State.mbox_settings _ _ _ _ _ _ _ (fun s => ?_)
  try refine withRidge_settings _ _ _ (fun r => ?_)
  try dsimp only
  (repeat' split) <;> first | (simp; done) | (rename_i hk; have := State.kSend_settings _ _ _ _ _ _ _ _ _ hk; simp_all; done) | grind [MRes.ok_settings, MRes.no_settings, State.mbox_settings, withRidge_settings, settings_mk, settings_fold, foldl_settings]

@[simp] theorem execPskrCreate_settings (t : Nat) (h : MbxHdr) (width : Nat) (seed : BitVec 64) (groups : Nat) (s : State) :
    (after (execPskrCreate t h width seed groups s) s).settings = s.settings := by
  unfold execPskrCreate
  refine State.mbox_settings _ _ _ _ _ _ _ (fun s => ?_)
  try refine withRidge_settings _ _ _ (fun r => ?_)
  try dsimp only
  (repeat' split) <;> first | (simp; done) | (rename_i hk; have := State.kSend_settings _ _ _ _ _ _ _ _ _ hk; simp_all; done) | grind [State.bumpR_settings, State.modRidge_settings, MRes.ok_settings, MRes.no_settings, MRes.hw_settings, State.mbox_settings, withRidge_settings, State.noPages_settings, State.drawPattern_settings, settings_mk, settings_fold, foldl_settings]

@[simp] theorem execPskrDestroy_settings (t : Nat) (h : MbxHdr) (s : State) :
    (after (execPskrDestroy t h s) s).settings = s.settings := by
  unfold execPskrDestroy
  refine State.mbox_settings _ _ _ _ _ _ _ (fun s => ?_)
  try refine withRidge_settings _ _ _ (fun r => ?_)
  try dsimp only
  (repeat' split) <;> first | (simp; done) | (rename_i hk; have := State.kSend_settings _ _ _ _ _ _ _ _ _ hk; simp_all; done) | grind [State.modRidge_settings, MRes.ok_settings, MRes.no_settings, State.mbox_settings, withRidge_settings, settings_mk, settings_fold, foldl_settings]

@[simp] theorem State.mergesDone_settings (s : State) (r h : Nat) :
    (State.mergesDone s r h).settings = s.settings := by
  unfold State.mergesDone
  try dsimp only
  (repeat' split) <;> simp

@[simp] theorem State.mergeStep_settings (s : State) (r h c m no : Nat) :
    (State.mergeStep s r h c m no).1.settings = s.settings := by
  unfold State.mergeStep
  try dsimp only
  (repeat' split) <;> simp

@[simp] theorem State.mergeFrom_settings (s : State) (r h c m no : Nat) :
    (State.mergeFrom s r h c m no).settings = s.settings := by
  unfold State.mergeFrom
  grind [MRes.no_settings, State.modPart_settings, State.mergesDone_settings, State.mergeStep_settings, settings_mk, settings_fold, foldl_settings]

@[simp] theorem State.startMerge_settings (s : State) (r h c : Nat) (commanded : Bool) :
    (State.startMerge s r h c commanded).settings = s.settings := by
  unfold State.startMerge
  try dsimp only
  (repeat' split) <;> simp

@[simp] theorem State.mergeIfDue_settings (s : State) (r h : Nat) :
    (State.mergeIfDue s r h).settings = s.settings := by
  unfold State.mergeIfDue
  try dsimp only
  (repeat' split) <;> simp

@[simp] theorem execStripeSwitch_settings (t : Nat) (ridge index cirque : Nat) (s : State) :
    (after (execStripeSwitch t ridge index cirque s) s).settings = s.settings := by
  unfold execStripeSwitch
  try dsimp only
  (repeat' split) <;> simp

@[simp] theorem execCtrMerge_settings (t : Nat) (src : Src) (d : Desc) (s : State) :
    (after (execCtrMerge t src d s) s).settings = s.settings := by
  unfold execCtrMerge
  refine State.command_settings _ _ _ _ _ _ _ _ (fun s c => ?_)
  try dsimp only
  (repeat' split) <;> first | (simp; done) | (rename_i hk; have := State.kSend_settings _ _ _ _ _ _ _ _ _ hk; simp_all; done) | grind [State.command_settings, State.admit_settings, State.mergesDone_settings, State.startMerge_settings, settings_mk, settings_fold, foldl_settings]

@[simp] theorem State.sideFull_settings (s : State) (slot r no : Nat) :
    (State.sideFull s slot r no).settings = s.settings := by
  simp [State.sideFull]

@[simp] theorem State.conflictLate_settings (s : State) (slot r op : Nat) :
    (State.conflictLate s slot r op).settings = s.settings := by
  simp [State.conflictLate]

@[simp] theorem State.commitInsert_settings (s : State) (slot : Nat) (c : Cmd) (x : Index) (bs : List Byte) :
    (State.commitInsert s slot c x bs).settings = s.settings := by
  simp [State.commitInsert]

@[simp] theorem State.commitDelete_settings (s : State) (slot : Nat) (c : Cmd) (x : Index) (bs : List Byte) :
    (State.commitDelete s slot c x bs).settings = s.settings := by
  simp [State.commitDelete]

@[simp] theorem execInsert_settings (t : Nat) (src : Src) (d : Desc) (data : Option (List Byte)) (s : State) :
    (after (execInsert t src d data s) s).settings = s.settings := by
  unfold execInsert
  refine State.command_settings _ _ _ _ _ _ _ _ (fun s c => ?_)
  try dsimp only
  (repeat' split) <;> first | (simp; done) | (rename_i hk; have := State.kSend_settings _ _ _ _ _ _ _ _ _ hk; simp_all; done) | grind [State.command_settings, State.admit_settings, State.failNow_settings, State.source_settings, State.commitInsert_settings, settings_mk, settings_fold, foldl_settings]

@[simp] theorem execDelete_settings (t : Nat) (src : Src) (d : Desc) (data : Option (List Byte)) (s : State) :
    (after (execDelete t src d data s) s).settings = s.settings := by
  unfold execDelete
  refine State.command_settings _ _ _ _ _ _ _ _ (fun s c => ?_)
  try dsimp only
  (repeat' split) <;> first | (simp; done) | (rename_i hk; have := State.kSend_settings _ _ _ _ _ _ _ _ _ hk; simp_all; done) | grind [State.command_settings, State.admit_settings, State.failNow_settings, State.source_settings, State.commitDelete_settings, settings_mk, settings_fold, foldl_settings]

@[simp] theorem State.beginQuery_settings (s : State) (slot : Nat) (x : Index) :
    (State.beginQuery s slot x).settings = s.settings := by
  unfold State.beginQuery
  try dsimp only
  (repeat' split) <;> simp

@[simp] theorem State.queryPrepared_settings (s : State) (slot : Nat) (bs : List Byte) :
    (State.queryPrepared s slot bs).settings = s.settings := by
  unfold State.queryPrepared
  try dsimp only
  (repeat' split) <;> simp

@[simp] theorem State.denseQuery_settings (s : State) (slot : Nat) (items : List Item) :
    (State.denseQuery s slot items).settings = s.settings := by
  simp [State.denseQuery]

@[simp] theorem State.chooseCands_settings (s : State) (slot : Nat) (q : Request) (x : Index) :
    (State.chooseCands s slot q x).settings = s.settings := by
  simp [State.chooseCands]

@[simp] theorem State.thinQuery_settings (s : State) (slot : Nat) (err : MemErr) :
    (State.thinQuery s slot err).settings = s.settings := by
  unfold State.thinQuery
  try dsimp only
  (repeat' split) <;> simp

@[simp] theorem State.finishQuery_settings (s : State) (slot : Nat) :
    (State.finishQuery s slot).settings = s.settings := by
  unfold State.finishQuery
  try dsimp only
  (repeat' split) <;> simp

@[simp] theorem State.modLease_settings (s : State) (r : Nat) (f : Lease → Lease) :
    (State.modLease s r f).settings = s.settings := by
  simp [State.modLease]

@[simp] theorem State.leaseCheck_settings (s : State) (r : Nat) :
    (State.leaseCheck s r).settings = s.settings := by
  unfold State.leaseCheck
  try dsimp only
  (repeat' split) <;> simp

@[simp] theorem State.leaseCheckAll_settings (s : State) :
    (State.leaseCheckAll s).settings = s.settings := by
  simp [State.leaseCheckAll]

@[simp] theorem State.leaseNotify_settings (s : State) (r h : Nat) :
    (State.leaseNotify s r h).settings = s.settings := by
  unfold State.leaseNotify
  try dsimp only
  (repeat' split) <;> simp

@[simp] theorem State.grantLease_settings (s : State) (r : Nat) (p : LeaseParams) (region : Nat) (old : Option Lease) :
    (State.grantLease s r p region old).settings = s.settings := by
  simp [State.grantLease]

@[simp] theorem execBelaySetLease_settings (t : Nat) (h : MbxHdr) (p : LeaseParams) (s : State) :
    (after (execBelaySetLease t h p s) s).settings = s.settings := by
  unfold execBelaySetLease
  refine State.mbox_settings _ _ _ _ _ _ _ (fun s => ?_)
  refine withRidge_settings _ _ _ (fun r => ?_)
  (repeat' split) <;> first | (simp; done) | skip
  rename_i hk
  have := State.newRegion_settings _ _ _ _ _ hk
  simpa using this

@[simp] theorem execLeaseGet_settings (t : Nat) (h : MbxHdr) (s : State) :
    (after (execLeaseGet t h s) s).settings = s.settings := by
  unfold execLeaseGet
  refine State.mbox_settings _ _ _ _ _ _ _ (fun s => ?_)
  try refine withRidge_settings _ _ _ (fun r => ?_)
  try dsimp only
  (repeat' split) <;> first | (simp; done) | (rename_i hk; have := State.kSend_settings _ _ _ _ _ _ _ _ _ hk; simp_all; done) | grind [MRes.ok_settings, State.mbox_settings, withRidge_settings, settings_mk, settings_fold, foldl_settings]

@[simp] theorem execLeaseRecordSend_settings (t : Nat) (ridge : Nat) (s : State) :
    (after (execLeaseRecordSend t ridge s) s).settings = s.settings := by
  unfold execLeaseRecordSend
  try dsimp only
  (repeat' split) <;> first | (simp; done) | (rename_i hk; have := State.kSend_settings _ _ _ _ _ _ _ _ _ hk; simp_all; done) | grind [State.advance_settings, State.kSend_settings, State.modLease_settings, settings_mk, settings_fold, foldl_settings]

@[simp] theorem execLeaseExpiry_settings (t : Nat) (ridge : Nat) (s : State) :
    (after (execLeaseExpiry t ridge s) s).settings = s.settings := by
  simp [execLeaseExpiry]

@[simp] theorem State.reclaim_settings (s : State) (r idx : Nat) :
    (State.reclaim s r idx).settings = s.settings := by
  simp [State.reclaim]

@[simp] theorem execOrphanReclaim_settings (t : Nat) (ridge : Nat) (s : State) :
    (after (execOrphanReclaim t ridge s) s).settings = s.settings := by
  unfold execOrphanReclaim
  try dsimp only
  (repeat' split) <;> simp

@[simp] theorem State.operands_settings (s : State) (slot : Nat) (q : Request) (bytes : List Byte) :
    (State.operands s slot q bytes).settings = s.settings := by
  simp [State.operands]

@[simp] theorem State.queryLate_settings (s : State) (slot : Nat) (q : Request) :
    (State.queryLate s slot q).settings = s.settings := by
  simp [State.queryLate]

@[simp] theorem State.startReq_settings (s : State) (slot : Nat) :
    (State.startReq s slot).settings = s.settings := by
  unfold State.startReq
  grind [State.startFetch_settings, State.operands_settings, State.queryLate_settings, settings_mk, settings_fold, foldl_settings]

@[simp] theorem State.startDue_settings (s : State) :
    (State.startDue s).settings = s.settings := by
  simp [State.startDue]

@[simp] theorem State.afterAdmit_settings (s : State) (slot : Nat) :
    (State.afterAdmit s slot).settings = s.settings := by
  unfold State.afterAdmit
  try dsimp only
  (repeat' split) <;> simp

@[simp] theorem execDevelop_settings (t : Nat) (src : Src) (d : Desc) (inl : List Byte) (s : State) :
    (after (execDevelop t src d inl s) s).settings = s.settings := by
  unfold execDevelop
  refine State.command_settings _ _ _ _ _ _ _ _ (fun s c => ?_)
  try dsimp only
  (repeat' split) <;> first | (simp; done) | (rename_i hk; have := State.kSend_settings _ _ _ _ _ _ _ _ _ hk; simp_all; done) | grind [State.command_settings, State.admit_settings, State.afterAdmit_settings, settings_mk, settings_fold, foldl_settings]

@[simp] theorem execReverse_settings (t : Nat) (src : Src) (d : Desc) (inl : List Byte) (s : State) :
    (after (execReverse t src d inl s) s).settings = s.settings := by
  unfold execReverse
  refine State.command_settings _ _ _ _ _ _ _ _ (fun s c => ?_)
  try dsimp only
  (repeat' split) <;> first | (simp; done) | (rename_i hk; have := State.kSend_settings _ _ _ _ _ _ _ _ _ hk; simp_all; done) | grind [MRes.ok_settings, State.command_settings, State.admitReq_settings, State.complete_settings, State.writeFailed_settings, State.allocGrads_settings, State.afterAdmit_settings, settings_mk, settings_fold, foldl_settings]

@[simp] theorem execQuery_settings (t : Nat) (src : Src) (d : Desc) (inl : List Byte) (s : State) :
    (after (execQuery t src d inl s) s).settings = s.settings := by
  unfold execQuery
  refine State.command_settings _ _ _ _ _ _ _ _ (fun s c => ?_)
  try dsimp only
  (repeat' split) <;> first | (simp; done) | (rename_i hk; have := State.kSend_settings _ _ _ _ _ _ _ _ _ hk; simp_all; done) | grind [State.bump_settings, State.command_settings, State.admit_settings, State.afterAdmit_settings, settings_mk, settings_fold, foldl_settings]

@[simp] theorem execQueryPlaced_settings (t : Nat) (slot : Nat) (data : Option (List Byte)) (s : State) :
    (after (execQueryPlaced t slot data s) s).settings = s.settings := by
  unfold execQueryPlaced
  try dsimp only
  (repeat' split) <;> simp

@[simp] theorem execThinPhaseDone_settings (t : Nat) (slot : Nat) (err : MemErr) (s : State) :
    (after (execThinPhaseDone t slot err s) s).settings = s.settings := by
  unfold execThinPhaseDone
  try dsimp only
  (repeat' split) <;> simp

@[simp] theorem execRequestFinish_settings (t : Nat) (slot : Nat) (s : State) :
    (after (execRequestFinish t slot s) s).settings = s.settings := by
  unfold execRequestFinish
  try dsimp only
  (repeat' split) <;> simp

@[simp] theorem State.delivered_settings (s : State) (slot : Nat) (q : Request) (ok : Bool) :
    (State.delivered s slot q ok).settings = s.settings := by
  simp [State.delivered]

@[simp] theorem execOutputDelivered_settings (t : Nat) (slot : Nat) (ok : Bool) (s : State) :
    (after (execOutputDelivered t slot ok s) s).settings = s.settings := by
  unfold execOutputDelivered
  try dsimp only
  (repeat' split) <;> simp

@[simp] theorem State.discard_settings (s : State) (slot : Nat) :
    (State.discard s slot).settings = s.settings := by
  simp [State.discard]

@[simp] theorem State.deadlineDue_settings (s : State) (slot : Nat) :
    (State.deadlineDue s slot).settings = s.settings := by
  unfold State.deadlineDue
  try dsimp only
  (repeat' split) <;> simp

@[simp] theorem execDeadlineInstant_settings (t : Nat) (slot : Nat) (s : State) :
    (after (execDeadlineInstant t slot s) s).settings = s.settings := by
  simp [execDeadlineInstant]

end Sys2Proof.Machine
end

