-- ==== Sys2Proof/Laws/SettingsLink.lean ====
section
/-! SUPPORT. What leaves the settings alone: Kalad, time and ports. -/

namespace Sys2Proof.Machine

open Sys2Proof

set_option linter.all false

@[simp] theorem State.lineError_settings (s : State) (x : Nat) :
    (State.lineError s x).settings = s.settings := by
  unfold State.lineError
  try dsimp only
  (repeat' split) <;> simp

@[simp] theorem State.failOwner_settings (s : State) (n r code : Nat) (o : MsgOwner) :
    (State.failOwner s n r code o).settings = s.settings := by
  unfold State.failOwner
  try dsimp only
  (repeat' split) <;> simp

@[simp] theorem State.doneOwner_settings (s : State) (n : Nat) (o : MsgOwner) :
    (State.doneOwner s n o).settings = s.settings := by
  unfold State.doneOwner
  try dsimp only
  (repeat' split) <;> simp

@[simp] theorem State.failMsg_settings (s : State) (n code msn : Nat) :
    (State.failMsg s n code msn).settings = s.settings := by
  unfold State.failMsg
  try dsimp only
  (repeat' split) <;> simp

@[simp] theorem State.unpark_settings (s : State) (n : Nat) :
    (State.unpark s n).settings = s.settings := by
  unfold State.unpark
  try dsimp only
  (repeat' split) <;> simp

@[simp] theorem State.failQueries_settings (s : State) (n : Nat) :
    (State.failQueries s n).settings = s.settings := by
  simp [State.failQueries]

@[simp] theorem State.resolveConn_settings (s : State) (n : Nat) :
    (State.resolveConn s n).settings = s.settings := by
  unfold State.resolveConn
  try dsimp only
  (repeat' split) <;> simp

@[simp] theorem State.failConn_settings (s : State) (n : Nat) :
    (State.failConn s n).settings = s.settings := by
  unfold State.failConn
  try dsimp only
  (repeat' split) <;> simp

@[simp] theorem State.kSettle_settings (s : State) (n : Nat) :
    (State.kSettle s n).settings = s.settings := by
  unfold State.kSettle
  try dsimp only
  (repeat' split) <;> simp

@[simp] theorem State.resendHoles_settings (s : State) (n : Nat) (sack : List Nat) :
    (State.resendHoles s n sack).settings = s.settings := by
  unfold State.resendHoles
  try dsimp only
  (repeat' split) <;> simp

@[simp] theorem State.kAckIn_settings (s : State) (n : Nat) (p : KPkt) : (State.kAckIn s n p).settings = s.settings := by
  unfold State.kAckIn
  split
  · rfl
  extract_lets
  split
  · simp
  simp only [State.kFill_settings, State.resendHoles_settings, State.kSettle_settings]
  exact State.modConn_settings _ _ _

@[simp] theorem State.retryPkt_settings (s : State) (n code psn at_ : Nat) :
    (State.retryPkt s n code psn at_).settings = s.settings := by
  unfold State.retryPkt
  try dsimp only
  (repeat' split) <;> simp

@[simp] theorem State.retryWhole_settings (s : State) (n code msn at_ : Nat) :
    (State.retryWhole s n code msn at_).settings = s.settings := by
  unfold State.retryWhole
  try dsimp only
  (repeat' split) <;> simp

@[simp] theorem State.kNackIn_settings (s : State) (n : Nat) (p : KPkt) :
    (State.kNackIn s n p).settings = s.settings := by
  unfold State.kNackIn
  try dsimp only
  (repeat' split) <;> simp

@[simp] theorem State.kDuplicate_settings (s : State) (n : Nat) (c : Conn) (p : KPkt) :
    (State.kDuplicate s n c p).settings = s.settings := by
  simp [State.kDuplicate]

@[simp] theorem State.kAckRules_settings (s : State) (n : Nat) (p : KPkt) (hole complete : Bool) :
    (State.kAckRules s n p hole complete).settings = s.settings := by
  unfold State.kAckRules
  try dsimp only
  (repeat' split) <;> simp

@[simp] theorem State.kRefuse_settings (s : State) (n : Nat) (p : KPkt) (code : NackCode) :
    (State.kRefuse s n p code).settings = s.settings := by
  unfold State.kRefuse
  try dsimp only
  (repeat' split) <;> simp

@[simp] theorem State.serveRead_settings (s : State) (n : Nat) (c : Conn) (p : KPkt) :
    (State.serveRead s n c p).settings = s.settings := by
  unfold State.serveRead
  try dsimp only
  (repeat' split) <;> first | (simp; done) | (rename_i hk; have := State.kSend_settings _ _ _ _ _ _ _ _ _ hk; simp_all; done) | grind [State.kSend_settings, settings_mk, settings_fold, foldl_settings]

@[simp] theorem State.queryArrived_settings (s : State) (r region : Nat) :
    (State.queryArrived s r region).settings = s.settings := by
  unfold State.queryArrived
  try dsimp only
  (repeat' split) <;> simp

@[simp] theorem State.kPlace_settings (s : State) (n : Nat) (c : Conn) (p : KPkt) :
    (State.kPlace s n c p).settings = s.settings := by
  simp [State.kPlace]

@[simp] theorem State.filmRx_settings (s : State) (n : Nat) (c : Conn) (p : KPkt) (check : Nat) :
    (State.filmRx s n c p check).settings = s.settings := by
  simp [State.filmRx]

@[simp] theorem State.ceMarked_settings (s : State) (n : Nat) (p : KPkt) :
    (State.ceMarked s n p).settings = s.settings := by
  simp [State.ceMarked]

@[simp] theorem State.kCheck8_settings (s : State) (n : Nat) (c : Conn) (p : KPkt) :
    (State.kCheck8 s n c p).settings = s.settings := by
  simp [State.kCheck8]

@[simp] theorem State.kCheck5_settings (s : State) (n : Nat) (p : KPkt) :
    (State.kCheck5 s n p).settings = s.settings := by
  unfold State.kCheck5
  try dsimp only
  (repeat' split) <;> simp

@[simp] theorem State.park_settings (s : State) (n : Nat) (c : Conn) (p : KPkt) :
    (State.park s n c p).settings = s.settings := by
  simp [State.park]

@[simp] theorem State.opFilter_settings (s : State) (t : LoupeTable) (key dflt : Nat) :
    (State.opFilter s t key dflt).1.settings = s.settings := by
  unfold State.opFilter
  grind [State.bumpN_settings, State.lSearch_settings, settings_mk, settings_fold, foldl_settings]

@[simp] theorem State.opFilters_settings (s : State) (p : KPkt) :
    (State.opFilters s p).1.settings = s.settings := by
  unfold State.opFilters
  try dsimp only
  (repeat' split) <;> simp

@[simp] theorem State.ridgeFilter_settings (s : State) (r : Nat) (p : KPkt) :
    (State.ridgeFilter s r p).1.settings = s.settings := by
  unfold State.ridgeFilter
  grind [State.bumpR_settings, State.lSearch_settings, settings_mk, settings_fold, foldl_settings]

@[simp] theorem State.classify_settings (s : State) (p : KPkt) :
    (State.classify s p).1.settings = s.settings := by
  unfold State.classify
  try dsimp only
  (repeat' split) <;> simp

theorem State.kGate_settings (s : State) (p : KPkt) :
    ∀ x, (State.kGate s p) = some x → x.settings = s.settings := by
  intro x h
  unfold State.kGate at h
  try dsimp only at h
  (repeat' split at h) <;> first | (simp at h; done) | (rename_i hk; have := State.kSend_settings _ _ _ _ _ _ _ _ _ hk; simp_all; done) | (simp at h; subst h; simp; done) | (simp_all; done) | grind [State.bumpN_settings, settings_mk, settings_fold, foldl_settings]

@[simp] theorem State.meterRx_settings (s : State) (r x bytes : Nat) :
    (State.meterRx s r x bytes).settings = s.settings := by
  simp [State.meterRx]

@[simp] theorem State.rxCounted_settings (s : State) (r : Nat) (p : KPkt) :
    (State.rxCounted s r p).settings = s.settings := by
  simp [State.rxCounted]

@[simp] theorem State.kAdmit_settings (s : State) (n : Nat) (p : KPkt) :
    (State.kAdmit s n p).settings = s.settings := by
  unfold State.kAdmit
  try dsimp only
  (repeat' split) <;> simp

@[simp] theorem State.kUnclass_settings (s : State) :
    (State.kUnclass s).settings = s.settings := by
  simp [State.kUnclass]

@[simp] theorem State.kFront_settings (s : State) (p : KPkt) :
    (State.kFront s p).1.settings = s.settings := by
  unfold State.kFront
  grind [State.bumpN_settings, State.fire_settings, settings_mk, settings_fold, foldl_settings]

@[simp] theorem State.kRecv_settings (s : State) (p : KPkt) :
    (State.kRecv s p).settings = s.settings := by
  unfold State.kRecv
  grind [State.classify_settings, State.kGate_settings, State.kAdmit_settings, State.kUnclass_settings, State.kFront_settings, settings_mk, settings_fold, foldl_settings]

@[simp] theorem execWrite_settings (t : Nat) (p : KPkt) (s : State) :
    (after (execWrite t p s) s).settings = s.settings := by
  simp [execWrite]

@[simp] theorem execWriteImm_settings (t : Nat) (p : KPkt) (s : State) :
    (after (execWriteImm t p s) s).settings = s.settings := by
  simp [execWriteImm]

@[simp] theorem execReadReq_settings (t : Nat) (p : KPkt) (s : State) :
    (after (execReadReq t p s) s).settings = s.settings := by
  simp [execReadReq]

@[simp] theorem execReadResp_settings (t : Nat) (p : KPkt) (s : State) :
    (after (execReadResp t p s) s).settings = s.settings := by
  simp [execReadResp]

@[simp] theorem execCommand_settings (t : Nat) (p : KPkt) (s : State) :
    (after (execCommand t p s) s).settings = s.settings := by
  simp [execCommand]

@[simp] theorem execAck_settings (t : Nat) (p : KPkt) (s : State) :
    (after (execAck t p s) s).settings = s.settings := by
  simp [execAck]

@[simp] theorem execSack_settings (t : Nat) (p : KPkt) (s : State) :
    (after (execSack t p s) s).settings = s.settings := by
  simp [execSack]

@[simp] theorem execNack_settings (t : Nat) (p : KPkt) (s : State) :
    (after (execNack t p s) s).settings = s.settings := by
  simp [execNack]

@[simp] theorem State.kSetup_settings (s : State) (n kind : Nat) (r : SetupRec) :
    (State.kSetup s n kind r).settings = s.settings := by
  unfold State.kSetup
  try dsimp only
  (repeat' split) <;> simp

@[simp] theorem State.sendConnect_settings (s : State) (n : Nat) :
    (State.sendConnect s n).settings = s.settings := by
  unfold State.sendConnect
  try dsimp only
  (repeat' split) <;> simp

theorem State.peerFor_settings (s : State) (r addr : Nat) : ∀ x, s.peerFor r addr = some x → x.1.settings = s.settings := by
  intro x h
  unfold State.peerFor at h
  split at h
  · simp at h; subst h; rfl
  · simp only [Option.map_eq_some_iff] at h
    obtain ⟨a, ha, rfl⟩ := h
    simpa using State.lAdd_settings _ _ _ _ _ _ _ ha

@[simp] theorem State.drawSeqs_settings (s : State) :
    (State.drawSeqs s).2.settings = s.settings := by
  simp [State.drawSeqs]

@[simp] theorem State.placeContext_settings (s : State) (n r : Nat) :
    (State.placeContext s n r).settings = s.settings := by
  simp [State.placeContext]

@[simp] theorem execConnCreate_settings (t : Nat) (h : MbxHdr) (p : ConnParams) (s : State) :
    (after (execConnCreate t h p s) s).settings = s.settings := by
  unfold execConnCreate
  refine State.mbox_settings _ _ _ _ _ _ _ (fun s => ?_)
  refine withRidge_settings _ _ _ (fun r => ?_)
  split
  · simp
  split
  · simp
  split
  · simp
  split
  · simp
  split
  · rename_i hp
    have h1 := State.peerFor_settings _ _ _ _ hp
    dsimp only
    split
    · simp
    · rename_i hn
      have h2 := State.newRegion_settings _ _ _ _ _ hn
      simp at h1 h2
      split <;> simp [h1, h2]
  · simp

@[simp] theorem State.closeConn_settings (s : State) (n : Nat) :
    (State.closeConn s n).settings = s.settings := by
  unfold State.closeConn
  try dsimp only
  (repeat' split) <;> simp

theorem withConn_settings (h : MbxHdr) (n : Nat) (s : State) (body : Nat → Conn → MRes)
    (hb : ∀ r c, (body r c).st.settings = s.settings) : (withConn h n s body).st.settings = s.settings := by
  unfold withConn
  refine withRidge_settings _ _ _ (fun r => ?_)
  (repeat' split) <;> simp [hb]

@[simp] theorem execConnReset_settings (t : Nat) (h : MbxHdr) (conn : Nat) (s : State) :
    (after (execConnReset t h conn s) s).settings = s.settings := by
  unfold execConnReset
  refine State.mbox_settings _ _ _ _ _ _ _ (fun s => ?_)
  try refine withRidge_settings _ _ _ (fun r => ?_)
  try dsimp only
  (repeat' split) <;> first | (simp; done) | (rename_i hk; have := State.kSend_settings _ _ _ _ _ _ _ _ _ hk; simp_all; done) | grind [MRes.ok_settings, MRes.no_settings, MRes.hw_settings, State.mbox_settings, State.sendConnect_settings, State.drawSeqs_settings, withConn_settings, settings_mk, settings_fold, foldl_settings]

@[simp] theorem execConnClose_settings (t : Nat) (h : MbxHdr) (conn : Nat) (s : State) :
    (after (execConnClose t h conn s) s).settings = s.settings := by
  unfold execConnClose
  refine State.mbox_settings _ _ _ _ _ _ _ (fun s => ?_)
  try refine withRidge_settings _ _ _ (fun r => ?_)
  try dsimp only
  (repeat' split) <;> first | (simp; done) | (rename_i hk; have := State.kSend_settings _ _ _ _ _ _ _ _ _ hk; simp_all; done) | grind [MRes.ok_settings, MRes.no_settings, State.mbox_settings, State.modConn_settings, State.closeConn_settings, withConn_settings, settings_mk, settings_fold, foldl_settings]

@[simp] theorem execConnCloseTimeout_settings (t : Nat) (conn : Nat) (s : State) :
    (after (execConnCloseTimeout t conn s) s).settings = s.settings := by
  unfold execConnCloseTimeout
  try dsimp only
  (repeat' split) <;> simp

@[simp] theorem execConnGet_settings (t : Nat) (h : MbxHdr) (conn : Nat) (s : State) :
    (after (execConnGet t h conn s) s).settings = s.settings := by
  unfold execConnGet
  refine State.mbox_settings _ _ _ _ _ _ _ (fun s => ?_)
  try refine withRidge_settings _ _ _ (fun r => ?_)
  try dsimp only
  (repeat' split) <;> first | (simp; done) | (rename_i hk; have := State.kSend_settings _ _ _ _ _ _ _ _ _ hk; simp_all; done) | grind [MRes.ok_settings, State.mbox_settings, withConn_settings, settings_mk, settings_fold, foldl_settings]

@[simp] theorem State.setupFront_settings (s : State) (p : KPkt) :
    (State.setupFront s p).1.settings = s.settings := by
  unfold State.setupFront
  grind [State.bumpR_settings, State.bumpN_settings, State.event_settings, State.lineError_settings, State.opFilters_settings, State.kGate_settings, State.meterRx_settings, State.kUnclass_settings, State.kFront_settings, settings_mk, settings_fold, foldl_settings]

@[simp] theorem State.setupRx_settings (s : State) (r : Nat) (p : KPkt) :
    (State.setupRx s r p).settings = s.settings := by
  simp [State.setupRx]

@[simp] theorem execConnect_settings (t : Nat) (p : KPkt) (r : SetupRec) (s : State) :
    (after (execConnect t p r s) s).settings = s.settings := by
  unfold execConnect
  have h := State.setupFront_settings (s.advance t) p
  split <;> rename_i he <;> rw [he] at h <;> simp at h
  · simp [h]
  · dsimp only
    (repeat' split) <;> simp [h]

@[simp] theorem execAccept_settings (t : Nat) (p : KPkt) (r : SetupRec) (s : State) :
    (after (execAccept t p r s) s).settings = s.settings := by
  unfold execAccept
  have h := State.setupFront_settings (s.advance t) p
  split <;> rename_i he <;> rw [he] at h <;> simp at h
  · simp [h]
  · (repeat' split) <;> simp [h]

@[simp] theorem execRefuse_settings (t : Nat) (p : KPkt) (r : SetupRec) (s : State) :
    (after (execRefuse t p r s) s).settings = s.settings := by
  unfold execRefuse
  have h := State.setupFront_settings (s.advance t) p
  split <;> rename_i he <;> rw [he] at h <;> simp at h
  · simp [h]
  · (repeat' split) <;> simp [h]

@[simp] theorem execConnectResend_settings (t : Nat) (conn : Nat) (s : State) :
    (after (execConnectResend t conn s) s).settings = s.settings := by
  unfold execConnectResend
  try dsimp only
  (repeat' split) <;> simp

@[simp] theorem execRtoExpiry_settings (t : Nat) (conn : Nat) (s : State) :
    (after (execRtoExpiry t conn s) s).settings = s.settings := by
  unfold execRtoExpiry
  try dsimp only
  (repeat' split) <;> simp

@[simp] theorem execAckDelayExpiry_settings (t : Nat) (conn : Nat) (s : State) :
    (after (execAckDelayExpiry t conn s) s).settings = s.settings := by
  unfold execAckDelayExpiry
  try dsimp only
  (repeat' split) <;> simp

@[simp] theorem State.resendWhole_settings (s : State) (n : Nat) (m : TxMsg) :
    (State.resendWhole s n m).settings = s.settings := by
  unfold State.resendWhole
  try dsimp only
  (repeat' split) <;> simp

@[simp] theorem State.resendPkt_settings (s : State) (n : Nat) (p : TxPkt) :
    (State.resendPkt s n p).settings = s.settings := by
  simp [State.resendPkt]

@[simp] theorem execRetryAfterExpiry_settings (t : Nat) (conn : Nat) (s : State) :
    (after (execRetryAfterExpiry t conn s) s).settings = s.settings := by
  unfold execRetryAfterExpiry
  try dsimp only
  (repeat' split) <;> simp

@[simp] theorem execOldKeyExpiry_settings (t : Nat) (conn : Nat) (s : State) :
    (after (execOldKeyExpiry t conn s) s).settings = s.settings := by
  unfold execOldKeyExpiry
  try dsimp only
  (repeat' split) <;> simp

@[simp] theorem execContextFetchDone_settings (t : Nat) (conn : Nat) (ok : Bool) (s : State) :
    (after (execContextFetchDone t conn ok s) s).settings = s.settings := by
  unfold execContextFetchDone
  try dsimp only
  (repeat' split) <;> simp

@[simp] theorem State.ownCompletion_settings (s : State) (n : Nat) (c : Conn) (m : RxMsg) :
    (State.ownCompletion s n c m).settings = s.settings := by
  unfold State.ownCompletion
  try dsimp only
  (repeat' split) <;> simp

@[simp] theorem State.notifyImm_settings (s : State) (n : Nat) (c : Conn) (m : RxMsg) :
    (State.notifyImm s n c m).settings = s.settings := by
  unfold State.notifyImm
  try dsimp only
  (repeat' split) <;> simp

@[simp] theorem State.joinRing_settings (s : State) (c : Conn) (n : Nat) :
    (State.joinRing s c n).settings = s.settings := by
  unfold State.joinRing
  try dsimp only
  (repeat' split) <;> simp

@[simp] theorem execMessageNotify_settings (t : Nat) (conn : Nat) (s : State) :
    (after (execMessageNotify t conn s) s).settings = s.settings := by
  unfold execMessageNotify
  try dsimp only
  (repeat' split) <;> simp

@[simp] theorem State.timeRecord_settings (s : State) :
    (State.timeRecord s).settings = s.settings := by
  simp [State.timeRecord]

@[simp] theorem State.setTState_settings (s : State) (st : TState) :
    (State.setTState s st).settings = s.settings := by
  simp [State.setTState]

@[simp] theorem State.timeFault_settings (s : State) :
    (State.timeFault s).settings = s.settings := by
  simp [State.timeFault]

@[simp] theorem State.holdover_settings (s : State) :
    (State.holdover s).settings = s.settings := by
  simp [State.holdover]

@[simp] theorem State.stepTime_settings (s : State) :
    (State.stepTime s).settings = s.settings := by
  simp [State.stepTime]

@[simp] theorem State.slew_settings (s : State) :
    (State.slew s).settings = s.settings := by
  simp [State.slew]

@[simp] theorem State.ptpFront_settings (s : State) (domain breakout : Nat) :
    (State.ptpFront s domain breakout).1.settings = s.settings := by
  unfold State.ptpFront
  try dsimp only
  (repeat' split) <;> simp

@[simp] theorem State.countSync_settings (s : State) :
    (State.countSync s).settings = s.settings := by
  unfold State.countSync
  try dsimp only
  (repeat' split) <;> simp

@[simp] theorem State.ioFrame_settings (s : State) (x queue bytes : Nat) :
    (State.ioFrame s x queue bytes).settings = s.settings := by
  simp [State.ioFrame]

@[simp] theorem execPtpSync_settings (t : Nat) (domain breakout : Nat) (offset li : Int) (s : State) :
    (after (execPtpSync t domain breakout offset li s) s).settings = s.settings := by
  unfold execPtpSync
  dsimp only
  have h := State.ptpFront_settings (s.advance t) domain breakout
  split
  · simp
  split <;> rename_i he <;> rw [he] at h <;> simp at h
  · simp [h]
  · (repeat' split) <;> simp [h]

@[simp] theorem State.hear_settings (s : State) (b : Nat) (a : Announce) : (s.hear b a).settings = s.settings := rfl
@[simp] theorem State.unhear_settings (s : State) : s.unhear.settings = s.settings := rfl

@[simp] theorem execPtpAnnounce_settings (t : Nat) (domain breakout : Nat) (a : Announce) (s : State) :
    (after (execPtpAnnounce t domain breakout a s) s).settings = s.settings := by
  unfold execPtpAnnounce
  dsimp only
  have h := State.ptpFront_settings (s.advance t) domain breakout
  split
  · simp
  split <;> rename_i he <;> rw [he] at h <;> simp at h
  · simp [h]
  · (repeat' split) <;> simp [h]

@[simp] theorem execPtpDelayResp_settings (t : Nat) (domain breakout delay : Nat) (s : State) :
    (after (execPtpDelayResp t domain breakout delay s) s).settings = s.settings := by
  unfold execPtpDelayResp
  dsimp only
  have h := State.ptpFront_settings (s.advance t) domain breakout
  split
  · simp
  split <;> rename_i he <;> rw [he] at h <;> simp at h
  · simp [h]
  · (repeat' split) <;> simp [h]

@[simp] theorem execSyncTimeout_settings (t : Nat) (announce : Bool) (s : State) :
    (after (execSyncTimeout t announce s) s).settings = s.settings := by
  simp [execSyncTimeout]

@[simp] theorem execHoldoverSecond_settings (t : Nat) (s : State) :
    (after (execHoldoverSecond t s) s).settings = s.settings := by
  simp [execHoldoverSecond]

@[simp] theorem execNtStep_settings (t : Nat) (h : MbxHdr) (s : State) :
    (after (execNtStep t h s) s).settings = s.settings := by
  unfold execNtStep
  refine State.mbox_settings _ _ _ _ _ _ _ (fun s => ?_)
  try refine withRidge_settings _ _ _ (fun r => ?_)
  try dsimp only
  (repeat' split) <;> first | (simp; done) | (rename_i hk; have := State.kSend_settings _ _ _ _ _ _ _ _ _ hk; simp_all; done) | grind [MRes.ok_settings, MRes.no_settings, State.mbox_settings, State.holdover_settings, State.stepTime_settings, settings_mk, settings_fold, foldl_settings]

@[simp] theorem execPpsInEdge_settings (t : Nat) (s : State) :
    (after (execPpsInEdge t s) s).settings = s.settings := by
  simp [execPpsInEdge]

@[simp] theorem execPpsLoss_settings (t : Nat) (s : State) :
    (after (execPpsLoss t s) s).settings = s.settings := by
  simp [execPpsLoss]

@[simp] theorem execPpsOutEdge_settings (t : Nat) (s : State) :
    (after (execPpsOutEdge t s) s).settings = s.settings := by
  simp [execPpsOutEdge]

@[simp] theorem State.modBrk_settings (s : State) (x : Nat) (f : Breakout → Breakout) :
    (State.modBrk s x f).settings = s.settings := by
  simp [State.modBrk]

@[simp] theorem State.linkLost_settings (s : State) (x : Nat) (injected : Bool) :
    (State.linkLost s x injected).settings = s.settings := by
  simp [State.linkLost]

@[simp] theorem execLinkDown_settings (t : Nat) (breakout : Nat) (s : State) :
    (after (execLinkDown t breakout s) s).settings = s.settings := by
  simp [execLinkDown]

@[simp] theorem execLinkUp_settings (t : Nat) (breakout : Nat) (s : State) :
    (after (execLinkUp t breakout s) s).settings = s.settings := by
  simp [execLinkUp]

@[simp] theorem execArpRx_settings (t : Nat) (breakout target : Nat) (request : Bool) (s : State) :
    (after (execArpRx t breakout target request s) s).settings = s.settings := by
  unfold execArpRx
  try dsimp only
  (repeat' split) <;> simp

@[simp] theorem execEthFrameDrop_settings (t : Nat) (breakout : Nat) (kind : BadFrame) (s : State) :
    (after (execEthFrameDrop t breakout kind s) s).settings = s.settings := by
  unfold execEthFrameDrop
  try dsimp only
  (repeat' split) <;> simp

@[simp] theorem State.accountIdle_settings (s : State) (x now : Nat) :
    (State.accountIdle s x now).settings = s.settings := by
  unfold State.accountIdle
  try dsimp only
  (repeat' split) <;> simp

@[simp] theorem State.startFrame7_settings (s : State) (x r c q : Nat) (f : TxFrame) (defs : FMap Nat) :
    (State.startFrame7 s x r c q f defs).settings = s.settings := by
  simp [State.startFrame7]

@[simp] theorem execEgressDecision_settings (t : Nat) (breakout : Nat) (s : State) :
    (after (execEgressDecision t breakout s) s).settings = s.settings := by
  unfold execEgressDecision
  try dsimp only
  (repeat' split) <;> simp

@[simp] theorem withRidge0_settings (h : MbxHdr) (s : State) (body : Nat → MRes) (h_body : ∀ r, (body r).st.settings = s.settings) :
    (withRidge0 h s body).st.settings = s.settings := by
  unfold withRidge0
  try dsimp only
  (repeat' split) <;> simp [h_body]

@[simp] theorem execCbsSet_settings (t : Nat) (h : MbxHdr) (breakout cls idle hi : Nat) (enable full : Bool) (s : State) :
    (after (execCbsSet t h breakout cls idle hi enable full s) s).settings = s.settings := by
  unfold execCbsSet
  grind [MRes.ok_settings, MRes.no_settings, State.mbox_settings, State.modBrk_settings, withRidge0_settings, settings_mk, settings_fold, foldl_settings]

@[simp] theorem execGateSet_settings (t : Nat) (h : MbxHdr) (breakout : Nat) (entries : List (Nat × Nat)) (takeover : Nat) (s : State) :
    (after (execGateSet t h breakout entries takeover s) s).settings = s.settings := by
  unfold execGateSet
  refine State.mbox_settings _ _ _ _ _ _ _ (fun s => ?_)
  try refine withRidge_settings _ _ _ (fun r => ?_)
  try dsimp only
  (repeat' split) <;> first | (simp; done) | (rename_i hk; have := State.kSend_settings _ _ _ _ _ _ _ _ _ hk; simp_all; done) | grind [MRes.ok_settings, MRes.no_settings, State.mbox_settings, State.modBrk_settings, withRidge0_settings, settings_mk, settings_fold, foldl_settings]

@[simp] theorem execShtSet_settings (t : Nat) (h : MbxHdr) (breakout : Nat) (slots : List (Nat × Nat)) (takeover : Nat) (s : State) :
    (after (execShtSet t h breakout slots takeover s) s).settings = s.settings := by
  unfold execShtSet
  refine State.mbox_settings _ _ _ _ _ _ _ (fun s => ?_)
  try refine withRidge_settings _ _ _ (fun r => ?_)
  try dsimp only
  (repeat' split) <;> first | (simp; done) | (rename_i hk; have := State.kSend_settings _ _ _ _ _ _ _ _ _ hk; simp_all; done) | grind [MRes.ok_settings, MRes.no_settings, State.mbox_settings, State.modBrk_settings, settings_mk, settings_fold, foldl_settings]

@[simp] theorem execShtGet_settings (t : Nat) (h : MbxHdr) (breakout : Nat) (s : State) :
    (after (execShtGet t h breakout s) s).settings = s.settings := by
  unfold execShtGet
  refine State.mbox_settings _ _ _ _ _ _ _ (fun s => ?_)
  try refine withRidge_settings _ _ _ (fun r => ?_)
  try dsimp only
  (repeat' split) <;> first | (simp; done) | (rename_i hk; have := State.kSend_settings _ _ _ _ _ _ _ _ _ hk; simp_all; done) | grind [MRes.ok_settings, MRes.no_settings, State.mbox_settings, withRidge0_settings, settings_mk, settings_fold, foldl_settings]

@[simp] theorem execGateTakeover_settings (t : Nat) (ridge breakout : Nat) (s : State) :
    (after (execGateTakeover t ridge breakout s) s).settings = s.settings := by
  simp [execGateTakeover]

@[simp] theorem execShutterTakeover_settings (t : Nat) (breakout : Nat) (s : State) :
    (after (execShutterTakeover t breakout s) s).settings = s.settings := by
  unfold execShutterTakeover
  try dsimp only
  (repeat' split) <;> simp

end Sys2Proof.Machine
end

