-- ==== Sys2Proof/Laws/SettingsNode.lean ====
section
/-! SUPPORT. What leaves the settings alone: the fabric, ridges, trust, rings, registers, health, packages, trace, reset and power. -/

namespace Sys2Proof.Machine

open Sys2Proof

set_option linter.all false

@[simp] theorem State.turnMeter_settings (s : State) (r epoch : Nat) :
    (State.turnMeter s r epoch).settings = s.settings := by
  simp [State.turnMeter]

@[simp] theorem State.turnMeters_settings (s : State) (epoch : Nat) :
    (State.turnMeters s epoch).settings = s.settings := by
  simp [State.turnMeters]

@[simp] theorem execMeterRead_settings (t : Nat) (h : MbxHdr) (s : State) :
    (after (execMeterRead t h s) s).settings = s.settings := by
  unfold execMeterRead
  refine State.mbox_settings _ _ _ _ _ _ _ (fun s => ?_)
  try refine withRidge_settings _ _ _ (fun r => ?_)
  try dsimp only
  (repeat' split) <;> first | (simp; done) | (rename_i hk; have := State.kSend_settings _ _ _ _ _ _ _ _ _ hk; simp_all; done) | grind [MRes.ok_settings, State.mbox_settings, withRidge_settings, State.chargeAll_settings, settings_mk, settings_fold, foldl_settings]

@[simp] theorem State.keepMaster_settings (s : State) (f : Fabric) (old : Option Fabric) :
    (State.keepMaster s f old).settings = s.settings := by
  simp [State.keepMaster]

@[simp] theorem State.conflictPending_settings (s : State) (act : Nat) :
    (State.conflictPending s act).settings = s.settings := by
  unfold State.conflictPending
  try dsimp only
  (repeat' split) <;> simp

@[simp] theorem execFabricGet_settings (t : Nat) (h : MbxHdr) (s : State) :
    (after (execFabricGet t h s) s).settings = s.settings := by
  unfold execFabricGet
  refine State.mbox_settings _ _ _ _ _ _ _ (fun s => ?_)
  try refine withRidge_settings _ _ _ (fun r => ?_)
  try dsimp only
  (repeat' split) <;> first | (simp; done) | (rename_i hk; have := State.kSend_settings _ _ _ _ _ _ _ _ _ hk; simp_all; done) | grind [MRes.ok_settings, State.mbox_settings, settings_mk, settings_fold, foldl_settings]

@[simp] theorem execRidgeOpen_settings (t : Nat) (h : MbxHdr) (p : RidgeParams) (s : State) :
    (after (execRidgeOpen t h p s) s).settings = s.settings := by
  unfold execRidgeOpen
  refine State.mbox_settings _ _ _ _ _ _ _ (fun s => ?_)
  try refine withRidge_settings _ _ _ (fun r => ?_)
  try dsimp only
  (repeat' split) <;> first | (simp; done) | (rename_i hk; have := State.kSend_settings _ _ _ _ _ _ _ _ _ hk; simp_all; done) | grind [State.modRidge_settings, State.setRState_settings, MRes.no_settings, State.mbox_settings, withRidge_settings, State.modBankL_settings, settings_mk, settings_fold, foldl_settings]

@[simp] theorem State.clearTiming_settings (s : State) (r : Nat) :
    (State.clearTiming s r).settings = s.settings := by
  simp [State.clearTiming]

@[simp] theorem State.freeBanks_settings (s : State) (g : Ridge) :
    (State.freeBanks s g).settings = s.settings := by
  simp [State.freeBanks]

@[simp] theorem MRes.okRidge_settings (s : State) (r : Nat) :
    (MRes.okRidge s r).st.settings = s.settings := by
  simp [MRes.okRidge]

@[simp] theorem execRidgeOpened_settings (t : Nat) (ridge : Nat) (trngOk : Bool) (s : State) :
    (after (execRidgeOpened t ridge trngOk s) s).settings = s.settings := by
  simp [execRidgeOpened]

@[simp] theorem execRidgeModify_settings (t : Nat) (h : MbxHdr) (pfDepth scratchEn : Option Nat) (s : State) :
    (after (execRidgeModify t h pfDepth scratchEn s) s).settings = s.settings := by
  unfold execRidgeModify
  refine State.mbox_settings _ _ _ _ _ _ _ (fun s => ?_)
  try refine withRidge_settings _ _ _ (fun r => ?_)
  try dsimp only
  (repeat' split) <;> first | (simp; done) | (rename_i hk; have := State.kSend_settings _ _ _ _ _ _ _ _ _ hk; simp_all; done) | grind [State.modRidge_settings, MRes.no_settings, State.mbox_settings, withRidge_settings, MRes.okRidge_settings, settings_mk, settings_fold, foldl_settings]

@[simp] theorem execRidgeDrain_settings (t : Nat) (h : MbxHdr) (s : State) :
    (after (execRidgeDrain t h s) s).settings = s.settings := by
  unfold execRidgeDrain
  refine State.mbox_settings _ _ _ _ _ _ _ (fun s => ?_)
  try refine withRidge_settings _ _ _ (fun r => ?_)
  try dsimp only
  (repeat' split) <;> first | (simp; done) | (rename_i hk; have := State.kSend_settings _ _ _ _ _ _ _ _ _ hk; simp_all; done) | grind [State.modRidge_settings, State.setRState_settings, MRes.no_settings, State.mbox_settings, withRidge_settings, MRes.okRidge_settings, settings_mk, settings_fold, foldl_settings]

@[simp] theorem execRidgeOpenAgain_settings (t : Nat) (h : MbxHdr) (s : State) :
    (after (execRidgeOpenAgain t h s) s).settings = s.settings := by
  unfold execRidgeOpenAgain
  refine State.mbox_settings _ _ _ _ _ _ _ (fun s => ?_)
  try refine withRidge_settings _ _ _ (fun r => ?_)
  try dsimp only
  (repeat' split) <;> first | (simp; done) | (rename_i hk; have := State.kSend_settings _ _ _ _ _ _ _ _ _ hk; simp_all; done) | grind [State.setRState_settings, MRes.no_settings, State.mbox_settings, withRidge_settings, MRes.okRidge_settings, settings_mk, settings_fold, foldl_settings]

@[simp] theorem State.startClose_settings (s : State) (r : Nat) (force : Bool) (waiter : Option Fn) :
    (State.startClose s r force waiter).settings = s.settings := by
  simp [State.startClose]

@[simp] theorem execRidgeClose_settings (t : Nat) (h : MbxHdr) (force : Bool) (s : State) :
    (after (execRidgeClose t h force s) s).settings = s.settings := by
  unfold execRidgeClose
  refine State.mbox_settings _ _ _ _ _ _ _ (fun s => ?_)
  try refine withRidge_settings _ _ _ (fun r => ?_)
  try dsimp only
  (repeat' split) <;> first | (simp; done) | (rename_i hk; have := State.kSend_settings _ _ _ _ _ _ _ _ _ hk; simp_all; done) | grind [MRes.no_settings, State.mbox_settings, withRidge_settings, State.startClose_settings, settings_mk, settings_fold, foldl_settings]

@[simp] theorem execRidgeGet_settings (t : Nat) (h : MbxHdr) (s : State) :
    (after (execRidgeGet t h s) s).settings = s.settings := by
  unfold execRidgeGet
  refine State.mbox_settings _ _ _ _ _ _ _ (fun s => ?_)
  try refine withRidge_settings _ _ _ (fun r => ?_)
  try dsimp only
  (repeat' split) <;> first | (simp; done) | (rename_i hk; have := State.kSend_settings _ _ _ _ _ _ _ _ _ hk; simp_all; done) | grind [MRes.ok_settings, State.mbox_settings, withRidge0_settings, settings_mk, settings_fold, foldl_settings]

@[simp] theorem State.forget_settings (s : State) (slot : Nat) :
    (State.forget s slot).settings = s.settings := by
  unfold State.forget
  try dsimp only
  (repeat' split) <;> simp

@[simp] theorem State.abandonAll_settings (s : State) (r : Nat) :
    (State.abandonAll s r).settings = s.settings := by
  simp [State.abandonAll]

@[simp] theorem State.closeConns_settings (s : State) (r : Nat) :
    (State.closeConns s r).settings = s.settings := by
  simp [State.closeConns]

@[simp] theorem State.dropEntries_settings (s : State) (g : Ridge) :
    (State.dropEntries s g).settings = s.settings := by
  simp [State.dropEntries]

@[simp] theorem State.disableVf_settings (s : State) (r : Nat) :
    (State.disableVf s r).settings = s.settings := by
  simp [State.disableVf]

@[simp] theorem State.stopCirques_settings (s : State) (g : Ridge) :
    (State.stopCirques s g).settings = s.settings := by
  simp [State.stopCirques]

@[simp] theorem State.zeroMode_settings (s : State) (g : Ridge) :
    (State.zeroMode s g).settings = s.settings := by
  simp [State.zeroMode]

@[simp] theorem execRidgeCloseComplete_settings (t : Nat) (ridge : Nat) (readBacks : List Bool) (s : State) :
    (after (execRidgeCloseComplete t ridge readBacks s) s).settings = s.settings := by
  simp [execRidgeCloseComplete]

@[simp] theorem State.wipe_settings (s : State) (r : Nat) (g : Ridge) :
    (State.wipe s r g).settings = s.settings := by
  simp [State.wipe]

@[simp] theorem execRidgeZeroed_settings (t : Nat) (ridge : Nat) (s : State) :
    (after (execRidgeZeroed t ridge s) s).settings = s.settings := by
  simp [execRidgeZeroed]

@[simp] theorem execIdGet_settings (t : Nat) (h : MbxHdr) (s : State) :
    (after (execIdGet t h s) s).settings = s.settings := by
  unfold execIdGet
  refine State.mbox_settings _ _ _ _ _ _ _ (fun s => ?_)
  try refine withRidge_settings _ _ _ (fun r => ?_)
  try dsimp only
  (repeat' split) <;> first | (simp; done) | (rename_i hk; have := State.kSend_settings _ _ _ _ _ _ _ _ _ hk; simp_all; done) | grind [MRes.ok_settings, State.mbox_settings, settings_mk, settings_fold, foldl_settings]

@[simp] theorem execCertGet_settings (t : Nat) (h : MbxHdr) (aliasCert : Bool) (offset : Nat) (s : State) :
    (after (execCertGet t h aliasCert offset s) s).settings = s.settings := by
  unfold execCertGet
  refine State.mbox_settings _ _ _ _ _ _ _ (fun s => ?_)
  try refine withRidge_settings _ _ _ (fun r => ?_)
  try dsimp only
  (repeat' split) <;> first | (simp; done) | (rename_i hk; have := State.kSend_settings _ _ _ _ _ _ _ _ _ hk; simp_all; done) | grind [MRes.ok_settings, MRes.no_settings, MRes.hw_settings, State.mbox_settings, settings_mk, settings_fold, foldl_settings]

@[simp] theorem execAttest_settings (t : Nat) (h : MbxHdr) (nonce : BitVec 256) (sel : Nat) (offset : Option Nat) (s : State) :
    (after (execAttest t h nonce sel offset s) s).settings = s.settings := by
  unfold execAttest
  refine State.mbox_settings _ _ _ _ _ _ _ (fun s => ?_)
  try refine withRidge_settings _ _ _ (fun r => ?_)
  try dsimp only
  (repeat' split) <;> first | (simp; done) | (rename_i hk; have := State.kSend_settings _ _ _ _ _ _ _ _ _ hk; simp_all; done) | grind [State.modFunc_settings, State.report_settings, MRes.ok_settings, MRes.no_settings, MRes.hw_settings, State.mbox_settings, settings_mk, settings_fold, foldl_settings]

@[simp] theorem execAttestReportHoldExpiry_settings (t : Nat) (fn : Fn) (s : State) :
    (after (execAttestReportHoldExpiry t fn s) s).settings = s.settings := by
  unfold execAttestReportHoldExpiry
  try dsimp only
  (repeat' split) <;> simp

@[simp] theorem execHello_settings (t : Nat) (h : MbxHdr) (versions : Nat) (s : State) :
    (after (execHello t h versions s) s).settings = s.settings := by
  unfold execHello
  refine State.mbox_settings _ _ _ _ _ _ _ (fun s => ?_)
  try refine withRidge_settings _ _ _ (fun r => ?_)
  try dsimp only
  (repeat' split) <;> first | (simp; done) | (rename_i hk; have := State.kSend_settings _ _ _ _ _ _ _ _ _ hk; simp_all; done) | grind [State.modFunc_settings, MRes.ok_settings, MRes.no_settings, State.mbox_settings, settings_mk, settings_fold, foldl_settings]

@[simp] theorem execMboxUnsupportedOpcode_settings (t : Nat) (h : MbxHdr) (opcode : Nat) (s : State) :
    (after (execMboxUnsupportedOpcode t h opcode s) s).settings = s.settings := by
  unfold execMboxUnsupportedOpcode
  grind [MRes.no_settings, State.message_settings, settings_mk, settings_fold, foldl_settings]

@[simp] theorem execMboxOverrun_settings (t : Nat) (fn : Fn) (s : State) :
    (after (execMboxOverrun t fn s) s).settings = s.settings := by
  simp [execMboxOverrun]

@[simp] theorem execRingCreate_settings (t : Nat) (h : MbxHdr) (p : RingParams) (s : State) :
    (after (execRingCreate t h p s) s).settings = s.settings := by
  unfold execRingCreate
  refine State.mbox_settings _ _ _ _ _ _ _ (fun s => ?_)
  try refine withRidge_settings _ _ _ (fun r => ?_)
  try dsimp only
  (repeat' split) <;> first | (simp; done) | (rename_i hk; have := State.kSend_settings _ _ _ _ _ _ _ _ _ hk; simp_all; done) | grind [MRes.ok_settings, MRes.no_settings, State.mbox_settings, withRidge_settings, settings_mk, settings_fold, foldl_settings]

theorem withRing_settings (h : MbxHdr) (i : Nat) (s : State) (body : Nat → Ring → MRes)
    (hb : ∀ r g, (body r g).st.settings = s.settings) : (withRing h i s body).st.settings = s.settings := by
  unfold withRing
  refine withRidge_settings _ _ _ (fun r => ?_)
  (repeat' split) <;> simp [hb]

@[simp] theorem execRingDestroy_settings (t : Nat) (h : MbxHdr) (ring : Nat) (s : State) :
    (after (execRingDestroy t h ring s) s).settings = s.settings := by
  unfold execRingDestroy
  refine State.mbox_settings _ _ _ _ _ _ _ (fun s => ?_)
  try refine withRidge_settings _ _ _ (fun r => ?_)
  try dsimp only
  (repeat' split) <;> first | (simp; done) | (rename_i hk; have := State.kSend_settings _ _ _ _ _ _ _ _ _ hk; simp_all; done) | grind [MRes.ok_settings, MRes.no_settings, State.mbox_settings, withRing_settings, settings_mk, settings_fold, foldl_settings]

@[simp] theorem execRingReset_settings (t : Nat) (h : MbxHdr) (ring : Nat) (s : State) :
    (after (execRingReset t h ring s) s).settings = s.settings := by
  unfold execRingReset
  refine State.mbox_settings _ _ _ _ _ _ _ (fun s => ?_)
  try refine withRidge_settings _ _ _ (fun r => ?_)
  try dsimp only
  (repeat' split) <;> first | (simp; done) | (rename_i hk; have := State.kSend_settings _ _ _ _ _ _ _ _ _ hk; simp_all; done) | grind [MRes.ok_settings, MRes.no_settings, State.mbox_settings, withRing_settings, settings_mk, settings_fold, foldl_settings]

@[simp] theorem execRingGet_settings (t : Nat) (h : MbxHdr) (ring : Nat) (s : State) :
    (after (execRingGet t h ring s) s).settings = s.settings := by
  unfold execRingGet
  refine State.mbox_settings _ _ _ _ _ _ _ (fun s => ?_)
  try refine withRidge_settings _ _ _ (fun r => ?_)
  try dsimp only
  (repeat' split) <;> first | (simp; done) | (rename_i hk; have := State.kSend_settings _ _ _ _ _ _ _ _ _ hk; simp_all; done) | grind [MRes.ok_settings, State.mbox_settings, withRing_settings, settings_mk, settings_fold, foldl_settings]

@[simp] theorem State.noteRing_settings (s : State) (k r i : Nat) :
    (State.noteRing s k r i).settings = s.settings := by
  simp [State.noteRing]

@[simp] theorem State.ringError_settings (s : State) (r i : Nat) :
    (State.ringError s r i).settings = s.settings := by
  simp [State.ringError]

@[simp] theorem execSubmissionFetchComplete_settings (t : Nat) (ridge ring span : Nat) (s : State) :
    (after (execSubmissionFetchComplete t ridge ring span s) s).settings = s.settings := by
  unfold execSubmissionFetchComplete
  try dsimp only
  (repeat' split) <;> simp

@[simp] theorem execRingSpanFetch_settings (t : Nat) (ridge ring : Nat) (s : State) :
    (after (execRingSpanFetch t ridge ring s) s).settings = s.settings := by
  unfold execRingSpanFetch
  try dsimp only
  (repeat' split) <;> simp

@[simp] theorem execCoalTimeout_settings (t : Nat) (ridge ring : Nat) (s : State) :
    (after (execCoalTimeout t ridge ring s) s).settings = s.settings := by
  unfold execCoalTimeout
  try dsimp only
  (repeat' split) <;> simp

@[simp] theorem execPcieReadFailed_settings (t : Nat) (what : PcieRead) (s : State) :
    (after (execPcieReadFailed t what s) s).settings = s.settings := by
  unfold execPcieReadFailed
  try dsimp only
  (repeat' split) <;> simp

@[simp] theorem execUndefinedCommandOpcode_settings (t : Nat) (src : Src) (d : Desc) (s : State) :
    (after (execUndefinedCommandOpcode t src d s) s).settings = s.settings := by
  unfold execUndefinedCommandOpcode
  dsimp only
  have h2 := State.take_settings (s.advance t) src d []
  split
  · simp
  · split <;> rename_i he <;> rw [he] at h2 <;> simp at h2 <;> simp [h2]

@[simp] theorem State.stopRings_settings (s : State) (p : Fn → Bool) :
    (State.stopRings s p).settings = s.settings := by
  simp [State.stopRings]

@[simp] theorem execFunctionLevelReset_settings (t : Nat) (fn : Fn) (s : State) :
    (after (execFunctionLevelReset t fn s) s).settings = s.settings := by
  unfold execFunctionLevelReset
  try dsimp only
  (repeat' split) <;> simp

@[simp] theorem execPcieReplay_settings (t : Nat) (s : State) :
    (after (execPcieReplay t s) s).settings = s.settings := by
  simp [execPcieReplay]

@[simp] theorem State.badRead_settings (s : State) (f : Fn) (off : Nat) :
    (State.badRead s f off).settings = s.settings := by
  simp [State.badRead]

@[simp] theorem execLowWordRead_settings (t : Nat) (fn : Fn) (offset : Nat) (s : State) :
    (after (execLowWordRead t fn offset s) s).settings = s.settings := by
  unfold execLowWordRead
  have h : (if (s.advance t).frozen then s.advance t else ((s.advance t).chargeAll false).event none 0x0E 1).settings = s.settings := by
    split <;> simp
  dsimp only
  generalize (if (s.advance t).frozen then s.advance t else ((s.advance t).chargeAll false).event none 0x0E 1) = x at h
  (repeat' split) <;> simp [h]

@[simp] theorem State.ringDbW_settings (s : State) (r i tail : Nat) :
    (State.ringDbW s r i tail).settings = s.settings := by
  unfold State.ringDbW
  try dsimp only
  (repeat' split) <;> simp

@[simp] theorem State.cqHeadW_settings (s : State) (r i head : Nat) :
    (State.cqHeadW s r i head).settings = s.settings := by
  unfold State.cqHeadW
  try dsimp only
  (repeat' split) <;> simp

@[simp] theorem State.heldWrite_settings (s : State) (f : Fn) (off value : Nat) (eff : State → State) (h_eff : ∀ s, (eff s).settings = s.settings) :
    (State.heldWrite s f off value eff).settings = s.settings := by
  simp [State.heldWrite, h_eff]

@[simp] theorem State.causeW_settings (s : State) (k : Nat) (bits : W32) :
    (State.causeW s k bits).settings = s.settings := by
  simp [State.causeW]

@[simp] theorem State.enableW_settings (s : State) (k : Nat) (bits : W32) :
    (State.enableW s k bits).settings = s.settings := by
  simp [State.enableW]

@[simp] theorem State.markW_settings (s : State) (value : Nat) :
    (State.markW s value).settings = s.settings := by
  simp [State.markW]

@[simp] theorem State.lupCfgW_settings (s : State) (v : Nat) :
    (State.lupCfgW s v).settings = s.settings := by
  simp [State.lupCfgW]

@[simp] theorem State.lupBankW_settings (s : State) (b v : Nat) :
    (State.lupBankW s b v).settings = s.settings := by
  simp [State.lupBankW]

@[simp] theorem State.pfWordW_settings (s : State) (off v : Nat) :
    (State.pfWordW s off v).settings = s.settings := by
  simp [State.pfWordW]

@[simp] theorem State.vfWordW_settings (s : State) (r off v : Nat) :
    (State.vfWordW s r off v).settings = s.settings := by
  simp [State.vfWordW]

@[simp] theorem State.wordW_settings (s : State) (f : Fn) (off v : Nat) :
    (State.wordW s f off v).settings = s.settings := by
  unfold State.wordW
  try dsimp only
  (repeat' split) <;> simp

@[simp] theorem State.barWrite_settings (s : State) (f : Fn) (off size v : Nat) :
    (State.barWrite s f off size v).settings = s.settings := by
  simp [State.barWrite]

@[simp] theorem State.queueWrite_settings (s : State) (f : Fn) (off size v : Nat) :
    (State.queueWrite s f off size v).settings = s.settings := by
  simp [State.queueWrite]

theorem State.arrive_settings (s : State) (t : Nat) (f : Fn) (off size v : Nat) (eff : State → State) (h_eff : ∀ s, (eff s).settings = s.settings) :
    (after (State.arrive s t f off size v eff) s).settings = s.settings := by
  simp [State.arrive, h_eff]

@[simp] theorem execRingDb_settings (t : Nat) (fn : Fn) (ridge ring tail : Nat) (s : State) :
    (after (execRingDb t fn ridge ring tail s) s).settings = s.settings := by
  unfold execRingDb
  grind [State.ringDbW_settings, State.heldWrite_settings, State.arrive_settings, settings_mk, settings_fold, foldl_settings]

@[simp] theorem execCqHead_settings (t : Nat) (fn : Fn) (ridge ring head : Nat) (s : State) :
    (after (execCqHead t fn ridge ring head s) s).settings = s.settings := by
  unfold execCqHead
  grind [State.cqHeadW_settings, State.heldWrite_settings, State.arrive_settings, settings_mk, settings_fold, foldl_settings]

@[simp] theorem execIntCauseClear_settings (t : Nat) (fn : Fn) (bits : W32) (s : State) :
    (after (execIntCauseClear t fn bits s) s).settings = s.settings := by
  unfold execIntCauseClear
  grind [State.causeW_settings, State.arrive_settings, settings_mk, settings_fold, foldl_settings]

@[simp] theorem execIntEnable_settings (t : Nat) (fn : Fn) (bits : W32) (s : State) :
    (after (execIntEnable t fn bits s) s).settings = s.settings := by
  unfold execIntEnable
  grind [State.enableW_settings, State.arrive_settings, settings_mk, settings_fold, foldl_settings]

@[simp] theorem execFlmMark_settings (t : Nat) (value : W32) (s : State) :
    (after (execFlmMark t value s) s).settings = s.settings := by
  unfold execFlmMark
  grind [State.markW_settings, State.arrive_settings, settings_mk, settings_fold, foldl_settings]

@[simp] theorem execRegisterWrite_settings (t : Nat) (fn : Fn) (offset size value : Nat) (s : State) :
    (after (execRegisterWrite t fn offset size value s) s).settings = s.settings := by
  unfold execRegisterWrite
  grind [State.barWrite_settings, State.arrive_settings, settings_mk, settings_fold, foldl_settings]

@[simp] theorem execBarBadAccess_settings (t : Nat) (fn : Fn) (write : Bool) (offset size : Nat) (s : State) :
    (after (execBarBadAccess t fn write offset size s) s).settings = s.settings := by
  unfold execBarBadAccess
  try dsimp only
  (repeat' split) <;> first | (simp; done) | (rename_i hk; have := State.kSend_settings _ _ _ _ _ _ _ _ _ hk; simp_all; done) | grind [State.bumpN_settings, State.event_settings, State.advance_settings, State.emit_settings, State.arrive_settings, settings_mk, settings_fold, foldl_settings]

@[simp] theorem execErrRead_settings (t : Nat) (h : MbxHdr) (log : LogSel) (start : Nat) (s : State) :
    (after (execErrRead t h log start s) s).settings = s.settings := by
  unfold execErrRead
  refine State.mbox_settings _ _ _ _ _ _ _ (fun s => ?_)
  try refine withRidge_settings _ _ _ (fun r => ?_)
  try dsimp only
  (repeat' split) <;> first | (simp; done) | (rename_i hk; have := State.kSend_settings _ _ _ _ _ _ _ _ _ hk; simp_all; done) | grind [MRes.ok_settings, MRes.no_settings, State.mbox_settings, State.take_settings, settings_mk, settings_fold, foldl_settings]

@[simp] theorem State.advise_settings (s : State) (c : Comp) (score : Nat) (old new : Level) :
    (State.advise s c score old new).settings = s.settings := by
  simp [State.advise]

@[simp] theorem State.levelChange_settings (s : State) (c : Comp) (score : Nat) (old new : Level) :
    (State.levelChange s c score old new).settings = s.settings := by
  simp [State.levelChange]

@[simp] theorem execHealthDecay_settings (t : Nat) (s : State) :
    (after (execHealthDecay t s) s).settings = s.settings := by
  simp [execHealthDecay]

@[simp] theorem execAdvisoryMinute_settings (t : Nat) (s : State) :
    (after (execAdvisoryMinute t s) s).settings = s.settings := by
  simp [execAdvisoryMinute]

@[simp] theorem execHealthGet_settings (t : Nat) (h : MbxHdr) (s : State) :
    (after (execHealthGet t h s) s).settings = s.settings := by
  unfold execHealthGet
  refine State.mbox_settings _ _ _ _ _ _ _ (fun s => ?_)
  try refine withRidge_settings _ _ _ (fun r => ?_)
  try dsimp only
  (repeat' split) <;> first | (simp; done) | (rename_i hk; have := State.kSend_settings _ _ _ _ _ _ _ _ _ hk; simp_all; done) | grind [MRes.ok_settings, MRes.no_settings, State.mbox_settings, settings_mk, settings_fold, foldl_settings]

@[simp] theorem execShadowSet_settings (t : Nat) (h : MbxHdr) (fraction : Nat) (s : State) :
    (after (execShadowSet t h fraction s) s).settings = s.settings := by
  unfold execShadowSet
  refine State.mbox_settings _ _ _ _ _ _ _ (fun s => ?_)
  try refine withRidge_settings _ _ _ (fun r => ?_)
  try dsimp only
  (repeat' split) <;> first | (simp; done) | (rename_i hk; have := State.kSend_settings _ _ _ _ _ _ _ _ _ hk; simp_all; done) | grind [State.modRidge_settings, MRes.ok_settings, MRes.no_settings, State.mbox_settings, withRidge_settings, settings_mk, settings_fold, foldl_settings]

@[simp] theorem execShadowSetRelease_settings (t : Nat) (h : MbxHdr) (cirque cell : Nat) (s : State) :
    (after (execShadowSetRelease t h cirque cell s) s).settings = s.settings := by
  unfold execShadowSetRelease
  refine State.mbox_settings _ _ _ _ _ _ _ (fun s => ?_)
  try refine withRidge_settings _ _ _ (fun r => ?_)
  try dsimp only
  (repeat' split) <;> first | (simp; done) | (rename_i hk; have := State.kSend_settings _ _ _ _ _ _ _ _ _ hk; simp_all; done) | grind [MRes.ok_settings, MRes.no_settings, State.mbox_settings, State.modCell_settings, settings_mk, settings_fold, foldl_settings]

theorem State.fireAtOnce_settings (s : State) (id : Nat) (t : InjTarget) :
    ∀ x, (State.fireAtOnce s id t) = some x → x.settings = s.settings := by
  intro x h
  unfold State.fireAtOnce at h
  try dsimp only at h
  (repeat' split at h) <;> first | (simp at h; done) | (rename_i hk; have := State.kSend_settings _ _ _ _ _ _ _ _ _ hk; simp_all; done) | (simp at h; subst h; simp; done) | (simp_all; done) | grind [State.bumpN_settings, State.modCell_settings, State.modPage_settings, State.modConn_settings, State.linkLost_settings, settings_mk, settings_fold, foldl_settings]

@[simp] theorem State.fireDue_settings (s : State) :
    (State.fireDue s).settings = s.settings := by
  unfold State.fireDue
  grind [State.bumpN_settings, State.fireAtOnce_settings, settings_mk, settings_fold, foldl_settings]

@[simp] theorem execInject_settings (t : Nat) (h : MbxHdr) (target : InjTarget) (count expiry : Nat) (s : State) :
    (after (execInject t h target count expiry s) s).settings = s.settings := by
  unfold execInject
  refine State.mbox_settings _ _ _ _ _ _ _ (fun s => ?_)
  try refine withRidge_settings _ _ _ (fun r => ?_)
  try dsimp only
  (repeat' split) <;> first | (simp; done) | (rename_i hk; have := State.kSend_settings _ _ _ _ _ _ _ _ _ hk; simp_all; done) | grind [MRes.ok_settings, MRes.no_settings, State.mbox_settings, State.fireDue_settings, settings_mk, settings_fold, foldl_settings]

@[simp] theorem execInjectClear_settings (t : Nat) (h : MbxHdr) (id : Nat) (s : State) :
    (after (execInjectClear t h id s) s).settings = s.settings := by
  unfold execInjectClear
  refine State.mbox_settings _ _ _ _ _ _ _ (fun s => ?_)
  try refine withRidge_settings _ _ _ (fun r => ?_)
  try dsimp only
  (repeat' split) <;> first | (simp; done) | (rename_i hk; have := State.kSend_settings _ _ _ _ _ _ _ _ _ hk; simp_all; done) | grind [MRes.ok_settings, MRes.no_settings, State.mbox_settings, State.modPage_settings, settings_mk, settings_fold, foldl_settings]

@[simp] theorem execInjectExpiry_settings (t : Nat) (id : Nat) (s : State) :
    (after (execInjectExpiry t id s) s).settings = s.settings := by
  simp [execInjectExpiry]

@[simp] theorem execBelaySetDrain_settings (t : Nat) (h : MbxHdr) (on : Bool) (s : State) :
    (after (execBelaySetDrain t h on s) s).settings = s.settings := by
  unfold execBelaySetDrain
  refine State.mbox_settings _ _ _ _ _ _ _ (fun s => ?_)
  try refine withRidge_settings _ _ _ (fun r => ?_)
  try dsimp only
  (repeat' split) <;> first | (simp; done) | (rename_i hk; have := State.kSend_settings _ _ _ _ _ _ _ _ _ hk; simp_all; done) | grind [State.report_settings, MRes.ok_settings, State.mbox_settings, settings_mk, settings_fold, foldl_settings]

@[simp] theorem execBelaySetMirror_settings (t : Nat) (h : MbxHdr) (conn : Option Nat) (sync : Bool) (s : State) :
    (after (execBelaySetMirror t h conn sync s) s).settings = s.settings := by
  unfold execBelaySetMirror
  refine State.mbox_settings _ _ _ _ _ _ _ (fun s => ?_)
  try refine withRidge_settings _ _ _ (fun r => ?_)
  try dsimp only
  (repeat' split) <;> first | (simp; done) | (rename_i hk; have := State.kSend_settings _ _ _ _ _ _ _ _ _ hk; simp_all; done) | grind [State.modRidge_settings, MRes.ok_settings, MRes.no_settings, State.mbox_settings, withRidge_settings, State.mirror_settings, settings_mk, settings_fold, foldl_settings]

@[simp] theorem execBelaySetStandin_settings (t : Nat) (h : MbxHdr) (on : Bool) (s : State) :
    (after (execBelaySetStandin t h on s) s).settings = s.settings := by
  unfold execBelaySetStandin
  refine State.mbox_settings _ _ _ _ _ _ _ (fun s => ?_)
  try refine withRidge_settings _ _ _ (fun r => ?_)
  try dsimp only
  (repeat' split) <;> first | (simp; done) | (rename_i hk; have := State.kSend_settings _ _ _ _ _ _ _ _ _ hk; simp_all; done) | grind [State.modRidge_settings, MRes.ok_settings, MRes.no_settings, State.mbox_settings, withRidge_settings, settings_mk, settings_fold, foldl_settings]



@[simp] theorem State.selectEvent_settings (s : State) (e : EvSel) :
    (State.selectEvent s e).settings = s.settings := by
  simp [State.selectEvent]

@[simp] theorem execTraceSetEvsel_settings (t : Nat) (h : MbxHdr) (sels : List EvSel) (s : State) :
    (after (execTraceSetEvsel t h sels s) s).settings = s.settings := by
  unfold execTraceSetEvsel
  refine State.mbox_settings _ _ _ _ _ _ _ (fun s => ?_)
  try refine withRidge_settings _ _ _ (fun r => ?_)
  try dsimp only
  (repeat' split) <;> first | (simp; done) | (rename_i hk; have := State.kSend_settings _ _ _ _ _ _ _ _ _ hk; simp_all; done) | grind [MRes.ok_settings, MRes.no_settings, State.mbox_settings, State.selectEvent_settings, settings_mk, settings_fold, foldl_settings]

@[simp] theorem execTraceSetRecords_settings (t : Nat) (h : MbxHdr) (sel : RecSel) (s : State) :
    (after (execTraceSetRecords t h sel s) s).settings = s.settings := by
  unfold execTraceSetRecords
  refine State.mbox_settings _ _ _ _ _ _ _ (fun s => ?_)
  try refine withRidge_settings _ _ _ (fun r => ?_)
  try dsimp only
  (repeat' split) <;> first | (simp; done) | (rename_i hk; have := State.kSend_settings _ _ _ _ _ _ _ _ _ hk; simp_all; done) | grind [MRes.ok_settings, MRes.no_settings, State.mbox_settings, settings_mk, settings_fold, foldl_settings]

@[simp] theorem State.noteLoss_settings (s : State) :
    (State.noteLoss s).settings = s.settings := by
  simp [State.noteLoss]

@[simp] theorem State.drainBuf_settings (s : State) :
    (State.drainBuf s).settings = s.settings := by
  unfold State.drainBuf
  dsimp only
  split
  · rw [State.noteLoss_settings, foldl_settings _ _ State.flmSend_settings, settings_mk]
    rfl
  · split <;> simp

@[simp] theorem execTraceSetMode_settings (t : Nat) (h : MbxHdr) (mode : FlmMode) (s : State) :
    (after (execTraceSetMode t h mode s) s).settings = s.settings := by
  unfold execTraceSetMode
  refine State.mbox_settings _ _ _ _ _ _ _ (fun s => ?_)
  try refine withRidge_settings _ _ _ (fun r => ?_)
  try dsimp only
  (repeat' split) <;> first | (simp; done) | (rename_i hk; have := State.kSend_settings _ _ _ _ _ _ _ _ _ hk; simp_all; done) | grind [MRes.ok_settings, State.mbox_settings, State.drainBuf_settings, settings_mk, settings_fold, foldl_settings]

@[simp] theorem State.dumpWrites_settings (s : State) (addr : Nat) (bs : List Byte) :
    (State.dumpWrites s addr bs).settings = s.settings := by
  simp [State.dumpWrites]

@[simp] theorem execTraceSetDump_settings (t : Nat) (h : MbxHdr) (snapshot : Bool) (addr len : Nat) (s : State) :
    (after (execTraceSetDump t h snapshot addr len s) s).settings = s.settings := by
  unfold execTraceSetDump
  refine State.mbox_settings _ _ _ _ _ _ _ (fun s => ?_)
  try refine withRidge_settings _ _ _ (fun r => ?_)
  try dsimp only
  (repeat' split) <;> first | (simp; done) | (rename_i hk; have := State.kSend_settings _ _ _ _ _ _ _ _ _ hk; simp_all; done) | grind [State.drawNat_settings, MRes.ok_settings, MRes.no_settings, State.mbox_settings, State.take_settings, State.dumpWrites_settings, settings_mk, settings_fold, foldl_settings]

@[simp] theorem execFilmstripSync_settings (t : Nat) (s : State) :
    (after (execFilmstripSync t s) s).settings = s.settings := by
  simp [execFilmstripSync]

@[simp] theorem execWatchdogSet_settings (t : Nat) (h : MbxHdr) (periodMs : Nat) (s : State) :
    (after (execWatchdogSet t h periodMs s) s).settings = s.settings := by
  unfold execWatchdogSet
  refine State.mbox_settings _ _ _ _ _ _ _ (fun s => ?_)
  try refine withRidge_settings _ _ _ (fun r => ?_)
  try dsimp only
  (repeat' split) <;> first | (simp; done) | (rename_i hk; have := State.kSend_settings _ _ _ _ _ _ _ _ _ hk; simp_all; done) | grind [State.modRidge_settings, MRes.ok_settings, MRes.no_settings, State.mbox_settings, withRidge0_settings, settings_mk, settings_fold, foldl_settings]

@[simp] theorem State.waitRecord_settings (s : State) (slot : Nat) (q : Request) (start : Nat) (g : WaitGraph) :
    (State.waitRecord s slot q start g).1.settings = s.settings := by
  unfold State.waitRecord
  try dsimp only
  (repeat' split) <;> simp

@[simp] theorem State.watchdog_settings (s : State) (slot : Nat) (q : Request) (start : Nat) :
    (State.watchdog s slot q start).settings = s.settings := by
  unfold State.watchdog
  try dsimp only
  (repeat' split) <;> simp

@[simp] theorem execWatchdogFire_settings (t : Nat) (slot : Nat) (s : State) :
    (after (execWatchdogFire t slot s) s).settings = s.settings := by
  unfold execWatchdogFire
  try dsimp only
  (repeat' split) <;> simp

@[simp] theorem execStopAt_settings (t : Nat) (h : MbxHdr) (instant : Nat) (holdMaxS : Option Nat) (s : State) :
    (after (execStopAt t h instant holdMaxS s) s).settings = s.settings := by
  unfold execStopAt
  refine State.mbox_settings _ _ _ _ _ _ _ (fun s => ?_)
  try refine withRidge_settings _ _ _ (fun r => ?_)
  try dsimp only
  (repeat' split) <;> first | (simp; done) | (rename_i hk; have := State.kSend_settings _ _ _ _ _ _ _ _ _ hk; simp_all; done) | grind [MRes.ok_settings, MRes.no_settings, State.mbox_settings, settings_mk, settings_fold, foldl_settings]

@[simp] theorem execStopAtCancel_settings (t : Nat) (h : MbxHdr) (s : State) :
    (after (execStopAtCancel t h s) s).settings = s.settings := by
  unfold execStopAtCancel
  refine State.mbox_settings _ _ _ _ _ _ _ (fun s => ?_)
  try refine withRidge_settings _ _ _ (fun r => ?_)
  try dsimp only
  (repeat' split) <;> first | (simp; done) | (rename_i hk; have := State.kSend_settings _ _ _ _ _ _ _ _ _ hk; simp_all; done) | grind [MRes.ok_settings, State.mbox_settings, settings_mk, settings_fold, foldl_settings]

@[simp] theorem execStopCut_settings (t : Nat) (s : State) : (after (execStopCut t s) s).settings = s.settings := by
  unfold execStopCut
  dsimp only
  split
  · simp
  · split
    · simp
    · simp [State.bumpN_settings, State.chargeAll_settings]

@[simp] theorem execCutWritten_settings (t : Nat) (s : State) :
    (after (execCutWritten t s) s).settings = s.settings := by
  simp [execCutWritten]

@[simp] theorem State.gaps_settings (s : State) (stopped : Nat) :
    (State.gaps s stopped).settings = s.settings := by
  simp [State.gaps]

@[simp] theorem State.release_settings (s : State) :
    (State.release s).settings = s.settings := by
  simp [State.release]

@[simp] theorem execStopAtRelease_settings (t : Nat) (h : MbxHdr) (s : State) :
    (after (execStopAtRelease t h s) s).settings = s.settings := by
  unfold execStopAtRelease
  refine State.mbox_settings _ _ _ _ _ _ _ (fun s => ?_)
  try refine withRidge_settings _ _ _ (fun r => ?_)
  try dsimp only
  (repeat' split) <;> first | (simp; done) | (rename_i hk; have := State.kSend_settings _ _ _ _ _ _ _ _ _ hk; simp_all; done) | grind [MRes.ok_settings, MRes.no_settings, State.mbox_settings, State.release_settings, settings_mk, settings_fold, foldl_settings]

@[simp] theorem execHoldMaxExpiry_settings (t : Nat) (s : State) :
    (after (execHoldMaxExpiry t s) s).settings = s.settings := by
  simp [execHoldMaxExpiry]

@[simp] theorem State.warmClose_settings (s : State) (r : Nat) :
    (State.warmClose s r).settings = s.settings := by
  simp [State.warmClose]

@[simp] theorem State.dropCut_settings (s : State) :
    (State.dropCut s).settings = s.settings := by
  simp [State.dropCut]

@[simp] theorem State.warmAbsent_settings (s : State) (r : Nat) :
    (State.warmAbsent s r).settings = s.settings := by
  simp [State.warmAbsent]

@[simp] theorem State.redeclare_settings (s : State) (n : Nat) :
    (State.redeclare s n).settings = s.settings := by
  unfold State.redeclare
  try dsimp only
  (repeat' split) <;> simp

@[simp] theorem State.rebuildBanks_settings (s : State) (g : Ridge) :
    (State.rebuildBanks s g).settings = s.settings := by
  simp [State.rebuildBanks]

@[simp] theorem State.freePages_settings (s : State) (r : Nat) (g : Ridge) :
    (State.freePages s r g).settings = s.settings := by
  simp [State.freePages]

@[simp] theorem State.resetRidge_settings (s : State) (r : Nat) :
    (State.resetRidge s r).settings = s.settings := by
  simp [State.resetRidge]

@[simp] theorem execRidgeReset_settings (t : Nat) (h : MbxHdr) (s : State) :
    (after (execRidgeReset t h s) s).settings = s.settings := by
  unfold execRidgeReset
  refine State.mbox_settings _ _ _ _ _ _ _ (fun s => ?_)
  try refine withRidge_settings _ _ _ (fun r => ?_)
  try dsimp only
  (repeat' split) <;> first | (simp; done) | (rename_i hk; have := State.kSend_settings _ _ _ _ _ _ _ _ _ hk; simp_all; done) | grind [State.bumpN_settings, State.modRidge_settings, MRes.no_settings, State.mbox_settings, withRidge_settings, State.resetRidge_settings, settings_mk, settings_fold, foldl_settings]

@[simp] theorem execRidgeResetComplete_settings (t : Nat) (ridge : Nat) (s : State) :
    (after (execRidgeResetComplete t ridge s) s).settings = s.settings := by
  simp [execRidgeResetComplete]

@[simp] theorem State.resetCirque_settings (s : State) (c : Nat) :
    (State.resetCirque s c).settings = s.settings := by
  simp [State.resetCirque]

@[simp] theorem execCirqueReset_settings (t : Nat) (h : MbxHdr) (cirque : Nat) (s : State) :
    (after (execCirqueReset t h cirque s) s).settings = s.settings := by
  unfold execCirqueReset
  refine State.mbox_settings _ _ _ _ _ _ _ (fun s => ?_)
  try refine withRidge_settings _ _ _ (fun r => ?_)
  try dsimp only
  (repeat' split) <;> first | (simp; done) | (rename_i hk; have := State.kSend_settings _ _ _ _ _ _ _ _ _ hk; simp_all; done) | grind [State.bumpN_settings, MRes.ok_settings, MRes.no_settings, State.mbox_settings, State.resetCirque_settings, settings_mk, settings_fold, foldl_settings]

@[simp] theorem State.avsWrite_settings (s : State) (acks : List Bool) :
    (State.avsWrite s acks).settings = s.settings := by
  simp [State.avsWrite]

@[simp] theorem execSensorUpdate_settings (t : Nat) (r : Sensors) (s : State) :
    (after (execSensorUpdate t r s) s).settings = s.settings := by
  simp [execSensorUpdate]

@[simp] theorem State.gateIdle_settings (s : State) (on : Bool) :
    (State.gateIdle s on).settings = s.settings := by
  unfold State.gateIdle
  grind [State.chargeAll_settings, settings_mk, settings_fold, foldl_settings]

@[simp] theorem execCellRegate_settings (t : Nat) (cirque : Nat) (s : State) :
    (after (execCellRegate t cirque s) s).settings = s.settings := by
  simp [execCellRegate]

@[simp] theorem execPwrEnter_settings (t : Nat) (h : MbxHdr) (target : Nat) (s : State) :
    (after (execPwrEnter t h target s) s).settings = s.settings := by
  unfold execPwrEnter
  refine State.mbox_settings _ _ _ _ _ _ _ (fun s => ?_)
  (repeat' split) <;> simp

@[simp] theorem State.startExit_settings (s : State) (replayed : Bool) :
    (State.startExit s replayed).settings = s.settings := by
  simp [State.startExit]

theorem powerDown_settings_aux (s x : State) (h : x.settings = s.settings) (t : Nat) :
    State.settings (
      let s := { x with conns := x.conns.mapVals (fun _ c => { c with onDie := false }), trace := { x.trace with portUp := false } }
      if t = 3 then
        { s with frames := [], hands := [], brks := s.brks.mapVals (fun _ b => { b with link := false, queue := [], sending := none }) }
      else s) = s.settings := by
  dsimp only
  split <;> simp [h]
theorem exitAll_settings (s : State) : ((List.range 16).foldl State.exitCairn (s.chargeAll false)).settings = s.settings := by
  simp only [foldl_settings, State.exitCairn_settings, implies_true, State.chargeAll_settings]
@[simp] theorem State.powerDown_settings (s : State) (target : Nat) : (s.powerDown target).settings = s.settings :=
  powerDown_settings_aux s _ (exitAll_settings s) target

@[simp] theorem execPwrEntryComplete_settings (t : Nat) (s : State) :
    (after (execPwrEntryComplete t s) s).settings = s.settings := by
  simp [execPwrEntryComplete]

@[simp] theorem execWakeEvent_settings (t : Nat) (source breakout : Nat) (fn : Fn) (post : Option (Nat × Nat × Nat)) (s : State) :
    (after (execWakeEvent t source breakout fn post s) s).settings = s.settings := by
  unfold execWakeEvent
  try dsimp only
  (repeat' split) <;> first | (simp; done) | (rename_i hk; have := State.kSend_settings _ _ _ _ _ _ _ _ _ hk; simp_all; done) | grind [State.advance_settings, State.wakeUp_settings, State.post_settings, State.source_settings, State.barWrite_settings, State.arrive_settings, settings_mk, settings_fold, foldl_settings]

@[simp] theorem execWakeFrame_settings (t : Nat) (f : WakeFrame) (s : State) :
    (after (execWakeFrame t f s) s).settings = s.settings := by
  simp [execWakeFrame]

@[simp] theorem State.restartRecords_settings (s : State) (from_ : Nat) :
    (State.restartRecords s from_).settings = s.settings := by
  simp [State.restartRecords]

@[simp] theorem State.reachA0_settings (s : State) (bad : Bool) :
    (State.reachA0 s bad).settings = s.settings := by
  simp [State.reachA0]

end Sys2Proof.Machine
end

