-- ==== Sys2Proof/Laws/SettingsOk.lean ====
section
/-! SUPPORT. The commands that change a setting leave it in its range. -/

namespace Sys2Proof.Machine

open Sys2Proof

set_option linter.all false

theorem settings_ok_iff (s : State) : s.settings.ok = true ↔
    (s.numVfs ≤ 16 ∧ s.fab.cur.all Fabric.rangesOk = true ∧ s.fab.pend.all Fabric.rangesOk = true ∧ 100 ≤ s.fab.drainUs ∧
      s.fab.drainUs ≤ 10000000 ∧ 4 ≤ s.sns.lowK ∧ s.sns.lowK ≤ s.sns.issueK ∧ s.sns.issueK ≤ 16 ∧ s.strip.state ≤ 3 ∧
      (s.strip.state == 1) = s.strip.run.isSome ∧ portsOk s.ports = true) := by
  unfold Settings.ok State.settings
  simp [and_assoc]

theorem settings_ok_of_eq {a b : State} (h : a.settings = b.settings) (hb : b.settings.ok = true) : a.settings.ok = true := by
  rw [h]; exact hb

theorem State.message_ok (s : State) (t : Nat) (i : Instr) (h : MbxHdr) (op : Nat) (defined : Bool) (who : Rights) (body : State → MRes)
    (hb : ∀ s : State, s.settings.ok = true → (body s).st.settings.ok = true) (hs : s.settings.ok = true) :
    (after (s.message t i h op defined who body) s).settings.ok = true := by
  unfold State.message State.serve
  dsimp only
  (repeat' split) <;> simp [hs] <;> (apply hb; simp [hs])

theorem State.mbox_ok (s : State) (t : Nat) (i : Instr) (h : MbxHdr) (op : Nat) (who : Rights) (body : State → MRes)
    (hb : ∀ s : State, s.settings.ok = true → (body s).st.settings.ok = true) (hs : s.settings.ok = true) :
    (after (s.mbox t i h op who body) s).settings.ok = true := State.message_ok _ _ _ _ _ _ _ _ hb hs

theorem State.becomeCurrent_settings (s : State) (f : Fabric) :
    (s.becomeCurrent f).settings = State.settings { s with fab :=
      { s.fab with cur := some f, pend := none, prevEpoch := s.fab.cur.map (fun (o : Fabric) => o.epoch),
                   drainAt := if s.fab.cur.isSome then s.now + s.fab.drainUs * 1000 else 0 } } := by
  simp [State.becomeCurrent]

theorem State.becomeCurrent_ok (s : State) (f : Fabric) (hf : f.rangesOk = true) (hs : s.settings.ok = true) :
    (s.becomeCurrent f).settings.ok = true := by
  rw [State.becomeCurrent_settings, settings_ok_iff]
  rw [settings_ok_iff] at hs
  simp_all

theorem execFabricSet_ok (t h d) (s : State) (hs : s.settings.ok = true) : (after (execFabricSet t h d s) s).settings.ok = true := by
  unfold execFabricSet
  refine State.mbox_ok _ _ _ _ _ _ _ (fun s hs => ?_) hs
  split
  · simpa using hs
  split
  · simpa using hs
  · rename_i f _ hv
    have hr : f.rangesOk = true := by
      simp [Fabric.validFor] at hv; simp [hv]
    split
    · simpa using s.becomeCurrent_ok f hr hs
    · refine settings_ok_of_eq (MRes.ok_settings _ _) (settings_ok_of_eq (State.conflictPending_settings _ _)
        (settings_ok_of_eq (State.raiseAll_settings _ _) ?_))
      rw [settings_ok_iff] at hs ⊢
      simp_all

theorem execFabricActivation_ok (t) (s : State) (hs : s.settings.ok = true) :
    (after (execFabricActivation t s) s).settings.ok = true := by
  have ha := settings_ok_of_eq (s.advance_settings t) hs
  unfold execFabricActivation
  dsimp only
  split
  · exact ha
  · rename_i f hf
    split
    · exact ha
    · refine State.becomeCurrent_ok _ f ?_ ha
      have := (settings_ok_iff _).1 ha
      simp_all

theorem execDrainDeadline_ok (t) (s : State) (hs : s.settings.ok = true) : (after (execDrainDeadline t s) s).settings.ok = true := by
  have ha := settings_ok_of_eq (s.advance_settings t) hs
  unfold execDrainDeadline
  dsimp only
  split
  · exact ha
  · simp only [after_next]
    rw [settings_ok_iff] at ha ⊢
    simp_all

theorem execEpochDrain_ok (t h p) (s : State) (hs : s.settings.ok = true) : (after (execEpochDrain t h p s) s).settings.ok = true := by
  unfold execEpochDrain
  refine State.mbox_ok _ _ _ _ _ _ _ (fun s hs => ?_) hs
  split
  · simpa using hs
  · refine settings_ok_of_eq (MRes.ok_settings _ _) ?_
    rw [settings_ok_iff] at hs ⊢
    simp_all

theorem execEpochDrainEndNow_ok (t h) (s : State) (hs : s.settings.ok = true) :
    (after (execEpochDrainEndNow t h s) s).settings.ok = true := by
  unfold execEpochDrainEndNow
  refine State.mbox_ok _ _ _ _ _ _ _ (fun s hs => ?_) hs
  refine settings_ok_of_eq (MRes.ok_settings _ _) ?_
  rw [settings_ok_iff] at hs ⊢
  simp_all

theorem portsOk_set (l : FMap Port) (k : Nat) (v : Port) (h : portsOk l = true) (hk : portsOk [(k, v)] = true) :
    portsOk (l.set k v) = true := by
  induction l with
  | nil => exact hk
  | cons a l ih =>
    obtain ⟨j, b⟩ := a
    have h2 := Bool.and_eq_true_iff.1 h
    have hk2 := (Bool.and_eq_true_iff.1 hk).1
    unfold FMap.set
    split
    · exact Bool.and_eq_true_iff.2 ⟨hk2, h2.2⟩
    · split
      · exact Bool.and_eq_true_iff.2 ⟨hk2, h⟩
      · exact Bool.and_eq_true_iff.2 ⟨h2.1, ih h2.2⟩

theorem execPortSet_ok (t h a b c d) (s : State) (hs : s.settings.ok = true) :
    (after (execPortSet t h a b c d s) s).settings.ok = true := by
  unfold execPortSet
  refine State.mbox_ok _ _ _ _ _ _ _ (fun s hs => ?_) hs
  split
  · simpa using hs
  · rename_i hv
    split
    · simpa using hs
    · refine settings_ok_of_eq (MRes.ok_settings _ _) (settings_ok_of_eq (foldl_settings _ _ (by simp) _) ?_)
      have hl : ((List.range 4).foldl (fun s i => s.linkLost (4 * a + i) false) s).settings.ok = true :=
        settings_ok_of_eq (foldl_settings _ _ (by simp) _) hs
      generalize (List.range 4).foldl (fun s i => s.linkLost (4 * a + i) false) s = x at hl ⊢
      rw [settings_ok_iff] at hl ⊢
      have hp : portsOk [(a, { mode := b, mtu := c })] = true := by
        simp [portsOk] at hv ⊢; omega
      simp_all [portsOk_set]

theorem bootOnly_ok (s : State) (b : BootSt) (hs : s.settings.ok = true) : (State.settings { s with boot := b }).ok = true := by
  rw [settings_ok_iff] at hs ⊢; exact hs

theorem execFwStage_ok (t h img) (s : State) (hs : s.settings.ok = true) : (after (execFwStage t h img s) s).settings.ok = true := by
  unfold execFwStage
  refine State.mbox_ok _ _ _ _ _ _ _ (fun s hs => ?_) hs
  (repeat' split) <;> first
    | exact settings_ok_of_eq (MRes.ok_settings _ _) (bootOnly_ok s _ hs)
    | exact settings_ok_of_eq (MRes.no_settings _ _) (bootOnly_ok s _ hs)
    | exact settings_ok_of_eq (MRes.no_settings _ _) hs

theorem execFwActivate_ok (t h a) (s : State) (hs : s.settings.ok = true) : (after (execFwActivate t h a s) s).settings.ok = true := by
  unfold execFwActivate
  refine State.mbox_ok _ _ _ _ _ _ _ (fun s hs => ?_) hs
  (repeat' split) <;> first
    | exact bootOnly_ok s _ hs
    | exact settings_ok_of_eq (MRes.no_settings _ _) hs

theorem execFwFloor_ok (t h v) (s : State) (hs : s.settings.ok = true) : (after (execFwFloor t h v s) s).settings.ok = true := by
  unfold execFwFloor
  refine State.mbox_ok _ _ _ _ _ _ _ (fun s hs => ?_) hs
  (repeat' split) <;> first
    | exact settings_ok_of_eq (MRes.ok_settings _ _) (bootOnly_ok s _ hs)
    | exact settings_ok_of_eq (MRes.no_settings _ _) hs

theorem execOwnerEnrol_ok (t h a b) (s : State) (hs : s.settings.ok = true) : (after (execOwnerEnrol t h a b s) s).settings.ok = true := by
  unfold execOwnerEnrol
  refine State.mbox_ok _ _ _ _ _ _ _ (fun s hs => ?_) hs
  (repeat' split) <;> first
    | exact settings_ok_of_eq (MRes.ok_settings _ _) (bootOnly_ok s _ hs)
    | exact settings_ok_of_eq (MRes.no_settings _ _) hs

theorem execFwSwitch_ok (t b) (s : State) (hs : s.settings.ok = true) : (after (execFwSwitch t b s) s).settings.ok = true := by
  have ha := settings_ok_of_eq (s.advance_settings t) hs
  unfold execFwSwitch
  generalize s.advance t = x at ha ⊢
  dsimp only
  split
  · split
    · exact ha
    · split
      · simp only [after_next]
        exact settings_ok_of_eq (State.answerBusy_settings _ _ _ _ _)
          (settings_ok_of_eq (State.raiseCause_settings _ _ _) (bootOnly_ok x _ ha))
      · simp only [after_next]
        exact settings_ok_of_eq (State.answerBusy_settings _ _ _ _ _)
          (settings_ok_of_eq (State.raiseCause_settings _ _ _)
            (settings_ok_of_eq (State.report_settings _ _) (bootOnly_ok x _ ha)))
  · exact ha
  · exact ha

theorem execTrngHealthFailure_ok (t) (s : State) (hs : s.settings.ok = true) :
    (after (execTrngHealthFailure t s) s).settings.ok = true :=
  settings_ok_of_eq (State.report_settings _ _) (bootOnly_ok (s.advance t) _ (settings_ok_of_eq (s.advance_settings t) hs))

theorem State.cold_ok (s : State) (c : ColdInputs) (o : Option Nat) : (s.cold c o).settings.ok = true := by
  rw [settings_ok_iff]
  simp [State.cold]
  decide

theorem execColdReset_ok (t c) (s : State) : (after (execColdReset t c s) s).settings.ok = true := State.cold_ok _ _ _

theorem execSupplyExcursion_ok (t a b c) (s : State) (hs : s.settings.ok = true) :
    (after (execSupplyExcursion t a b c s) s).settings.ok = true := by
  unfold execSupplyExcursion
  dsimp only
  split
  · exact settings_ok_of_eq (s.advance_settings t) hs
  · exact State.cold_ok _ _ _

theorem State.perst_ok (s : State) (hs : s.settings.ok = true) : (s.perst).settings.ok = true := by
  have h := settings_ok_of_eq (State.bumpN_settings _ 2346) (settings_ok_of_eq (State.stopRings_settings s (fun _ => true)) hs)
  rw [settings_ok_iff] at h ⊢
  simp [State.perst]
  simp_all

theorem execPerstReset_ok (t) (s : State) (hs : s.settings.ok = true) : (after (execPerstReset t s) s).settings.ok = true := by
  have ha := settings_ok_of_eq (s.advance_settings t) hs
  unfold execPerstReset
  dsimp only
  split
  · exact settings_ok_of_eq (by simp) hs
  · exact State.perst_ok _ ha

theorem execSriovVfEnable_ok (t n b) (s : State) (hs : s.settings.ok = true) :
    (after (execSriovVfEnable t n b s) s).settings.ok = true := by
  have ha := settings_ok_of_eq (s.advance_settings t) hs
  unfold execSriovVfEnable
  simp only [after_next]
  rw [settings_ok_iff] at ha ⊢
  simp_all
  try omega

theorem execThermtrip_ok (t a b) (s : State) (hs : s.settings.ok = true) : (after (execThermtrip t a b s) s).settings.ok = true := by
  have ha := settings_ok_of_eq (s.advance_settings t) hs
  unfold execThermtrip
  dsimp only
  generalize (if b then (s.advance t).boot.limits.stackTrip else (s.advance t).boot.limits.dieTrip) = lim
  by_cases hc : (decide (a < lim) || (s.advance t).sns.tripped) = true
  · simp only [hc, if_true]
    exact ha
  · simp only [hc, if_false]
    have hx : (if (s.advance t).frozen then s.advance t else (s.advance t).chargeAll false).settings.ok = true := by
      split
      · exact ha
      · exact settings_ok_of_eq (State.chargeAll_settings _ _) ha
    generalize (if (s.advance t).frozen then s.advance t else (s.advance t).chargeAll false) = x at hx ⊢
    refine settings_ok_of_eq (State.emit_settings _ _) ?_
    rw [settings_ok_iff] at hx ⊢
    simp_all

theorem execThrottleStep_ok (t k) (s : State) (hs : s.settings.ok = true) : (after (execThrottleStep t k s) s).settings.ok = true := by
  have ha := settings_ok_of_eq (s.advance_settings t) hs
  unfold execThrottleStep
  dsimp only
  split
  · exact ha
  · rename_i hk
    have hk2 : 4 ≤ k ∧ k ≤ 16 := by simp at hk; omega
    have hx : (if (s.advance t).frozen then s.advance t else (s.advance t).chargeAll false).settings.ok = true := by
      split
      · exact ha
      · exact settings_ok_of_eq (State.chargeAll_settings _ _) ha
    generalize (if (s.advance t).frozen then s.advance t else (s.advance t).chargeAll false) = x at hx ⊢
    refine settings_ok_of_eq (State.film_settings _ _ _ _ _) ?_
    rw [settings_ok_iff] at hx ⊢
    simp_all
    try omega

theorem State.tempo_ok (s : State) (n : Nat) (hs : s.settings.ok = true) : (s.tempo n).settings.ok = true := by
  have hx : (State.settings { s with sns := { s.sns with lowK := s.sns.issueK } }).ok = true := by
    rw [settings_ok_iff] at hs ⊢
    simp_all
    omega
  unfold State.tempo
  dsimp only
  split
  · exact hx
  · refine settings_ok_of_eq (foldl_settings _ _ ?_ _) hx
    intro s a
    (repeat' split) <;> simp

theorem execExposureBoundary_ok (t n) (s : State) (hs : s.settings.ok = true) :
    (after (execExposureBoundary t n s) s).settings.ok = true := by
  have ha := settings_ok_of_eq (s.advance_settings t) hs
  unfold execExposureBoundary
  dsimp only
  split
  · exact ha
  · rename_i f _
    split
    · exact ha
    · have hb : (State.settings { s.advance t with sns := { (s.advance t).sns with boundaryAt := some (openingOf f n) } }).ok = true := by
        rw [settings_ok_iff] at ha ⊢
        exact ha
      generalize ({ s.advance t with sns := { (s.advance t).sns with boundaryAt := some (openingOf f n) } } : State) = x at hb ⊢
      have h := settings_ok_of_eq (State.film_settings _ 0x0A .ioRing 31
        [n, ((x.tempo n).ridge 0).tempoLevel, (x.tempo n).sns.issueK]) (State.tempo_ok _ n hb)
      split
      · exact h
      · exact settings_ok_of_eq (State.startDue_settings _) h

theorem State.warmReset_ok (s : State) (hs : s.settings.ok = true) : s.warmReset.settings.ok = true := by
  have hx : ((List.range 17).foldl State.warmClose s.dropCut).settings.ok = true :=
    settings_ok_of_eq (foldl_settings _ _ (by simp) _) (settings_ok_of_eq (State.dropCut_settings _) hs)
  unfold State.warmReset
  dsimp only
  generalize (List.range 17).foldl State.warmClose s.dropCut = x at hx ⊢
  rw [settings_ok_iff] at hx ⊢
  refine ⟨hx.1, rfl, rfl, (by decide : 100 ≤ State.reset.fab.drainUs), (by decide : State.reset.fab.drainUs ≤ 10000000), hx.2.2.2.2.2.1,
    hx.2.2.2.2.2.2.1, hx.2.2.2.2.2.2.2.1, ?_, ?_, (by decide : portsOk State.reset.ports = true)⟩
  · dsimp only; split <;> simp_all
  · dsimp only; split <;> simp_all

theorem execResetWarm_ok (t h) (s : State) (hs : s.settings.ok = true) : (after (execResetWarm t h s) s).settings.ok = true := by
  unfold execResetWarm
  refine State.mbox_ok _ _ _ _ _ _ _ (fun s hs => ?_) hs
  exact settings_ok_of_eq (MRes.ok_settings _ _) (settings_ok_of_eq (State.bumpN_settings _ _) (State.warmReset_ok s hs))

theorem execWarmResetComplete_ok (t c) (s : State) (hs : s.settings.ok = true) :
    (after (execWarmResetComplete t c s) s).settings.ok = true := by
  have ha := settings_ok_of_eq (s.advance_settings t) hs
  unfold execWarmResetComplete
  dsimp only
  split
  · exact ha
  · have hx : ((List.range 17).foldl State.warmAbsent (s.advance t)).settings.ok = true :=
      settings_ok_of_eq (foldl_settings _ _ (by simp) _) ha
    generalize (List.range 17).foldl State.warmAbsent (s.advance t) = x at hx ⊢
    simp only [after_next]
    rw [settings_ok_iff] at hx ⊢
    exact hx

theorem execStripRun_ok (t h r) (s : State) (hs : s.settings.ok = true) : (after (execStripRun t h r s) s).settings.ok = true := by
  unfold execStripRun
  refine State.mbox_ok _ _ _ _ _ _ _ (fun s hs => ?_) hs
  split
  · simpa using hs
  split
  · simpa using hs
  split
  · simpa using hs
  split
  · rename_i h2 _ _
    refine settings_ok_of_eq (State.bumpN_settings _ _) (settings_ok_of_eq (State.bumpN_settings _ _) ?_)
    rw [settings_ok_iff] at hs ⊢
    obtain ⟨a1, a2, a3, a4, a5, a6, a7, a8, _, hrun, a11⟩ := hs
    have hn : s.strip.run.isSome = false := by rw [← hrun]; simpa using h2
    exact ⟨a1, a2, a3, a4, a5, a6, a7, a8, Nat.le_refl 3, hn.symm, a11⟩
  · refine settings_ok_of_eq (State.bumpN_settings _ _) ?_
    rw [settings_ok_iff] at hs ⊢
    simp_all

theorem execStripComplete_ok (t r) (s : State) (hs : s.settings.ok = true) : (after (execStripComplete t r s) s).settings.ok = true := by
  have ha := settings_ok_of_eq (s.advance_settings t) hs
  unfold execStripComplete
  dsimp only
  split
  · exact ha
  · split
    · exact ha
    · refine settings_ok_of_eq (State.answerBusy_settings _ _ _ _ _) ?_
      rw [settings_ok_iff] at ha ⊢
      simp_all

theorem lostOnly_ok (s : State) (l : List Clock) (hs : s.settings.ok = true) :
    (State.settings { s with sns := { s.sns with lost := l } }).ok = true := by
  rw [settings_ok_iff] at hs ⊢; exact hs

theorem execClockLoss_ok (t c) (s : State) (hs : s.settings.ok = true) : (after (execClockLoss t c s) s).settings.ok = true := by
  have ha := settings_ok_of_eq (s.advance_settings t) hs
  unfold execClockLoss
  dsimp only
  split
  · exact ha
  · have hx : (if (decide (c = .sys) && !(s.advance t).frozen) then (s.advance t).chargeAll false else s.advance t).settings.ok = true := by
      split
      · exact settings_ok_of_eq (State.chargeAll_settings _ _) ha
      · exact ha
    generalize (if (decide (c = .sys) && !(s.advance t).frozen) then (s.advance t).chargeAll false else s.advance t) = x at hx ⊢
    have hl := lostOnly_ok x (x.sns.lost ++ [c]) hx
    cases c
    · exact hl
    · exact hl
    · exact settings_ok_of_eq (foldl_settings _ _ (by simp) _) hl
    · exact settings_ok_of_eq (by simp) hl
    · exact settings_ok_of_eq (State.report_settings _ _) hl

theorem execClockReturn_ok (t c d) (s : State) (hs : s.settings.ok = true) : (after (execClockReturn t c d s) s).settings.ok = true := by
  have ha := settings_ok_of_eq (s.advance_settings t) hs
  unfold execClockReturn
  dsimp only
  split
  · exact ha
  · have hl := lostOnly_ok (s.advance t) ((s.advance t).sns.lost.filter (fun x => x != c)) ha
    cases c
    · exact State.cold_ok _ _ _
    · exact hl
    · exact hl
    · exact settings_ok_of_eq (State.drainBuf_settings _) (settings_ok_of_eq (by simp) hl)
    · exact hl

theorem goesOn_after (s : State) (o : Host.Outcome State Fault Refusal) : goesOn s o = after o s := by
  cases o <;> rfl

theorem replayRow_ok (i : Instr) (s : State) (hs : s.settings.ok = true) : (goesOn s (replayRow i s)).settings.ok = true := by
  rw [goesOn_after]
  unfold replayRow
  split <;> first
    | (simp [hs]; done)
    | with_reducible exact execFabricSet_ok _ _ _ _ hs
    | with_reducible exact execPortSet_ok _ _ _ _ _ _ _ hs
    | with_reducible exact execFwStage_ok _ _ _ _ hs
    | with_reducible exact execFwActivate_ok _ _ _ _ hs
    | with_reducible exact execFwFloor_ok _ _ _ _ hs
    | with_reducible exact execOwnerEnrol_ok _ _ _ _ _ hs
    | with_reducible exact execResetWarm_ok _ _ _ hs
    | with_reducible exact execStripRun_ok _ _ _ _ hs
    | with_reducible exact execEpochDrain_ok _ _ _ _ hs
    | with_reducible exact execEpochDrainEndNow_ok _ _ _ hs
    | with_reducible exact execPerstReset_ok _ _ hs

theorem foldl_ok {α : Type} (l : List α) (f : State → α → State) (h : ∀ s a, s.settings.ok = true → (f s a).settings.ok = true)
    (s : State) (hs : s.settings.ok = true) : (l.foldl f s).settings.ok = true := by
  induction l generalizing s with
  | nil => exact hs
  | cons a l ih => exact ih _ (h s a hs)

theorem replayed_ok (s : State) (m : Fn × Instr) (hs : s.settings.ok = true) : (goesOn s (replayRow m.2 s)).settings.ok = true :=
  replayRow_ok m.2 s hs

theorem State.drainQueued_ok (s : State) (hs : s.settings.ok = true) : s.drainQueued.settings.ok = true := by
  unfold State.drainQueued
  refine settings_ok_of_eq (State.pumpAll_settings _) ?_
  refine foldl_ok (α := Fn × Instr) _ (fun s m => goesOn s (replayRow m.2 s)) replayed_ok _ ?_
  simp [hs]

theorem execA0Reported_ok (t b) (s : State) (hs : s.settings.ok = true) : (after (execA0Reported t b s) s).settings.ok = true := by
  have ha := settings_ok_of_eq (s.advance_settings t) hs
  unfold execA0Reported
  generalize s.advance t = x at ha ⊢
  dsimp only
  generalize x.power.exitAt + (if (decide (x.power.fromState = 3) && !b) = true then 300000000 else 0) = lim
  split
  · simp only [after_next]; exact ha
  · simp only [after_next]
    exact State.drainQueued_ok _ (settings_ok_of_eq (State.reachA0_settings _ _) ha)

end Sys2Proof.Machine
end

