-- ==== Sys2Proof/Laws/Denied.lean ====
section
/-! SUPPORT. A VF's message that needs the rights of ridge 0 never reaches its own part. -/

namespace Sys2Proof.Machine

open Sys2Proof

/-- Check 5 of R510, or one before it, fails. -/
theorem State.mboxCheck_denied (s : State) (h : MbxHdr) (op : Nat) (hv : h.fn.isVf = true) :
    (s.mboxCheck h op true .ridge0).isSome = true := by
  unfold State.mboxCheck
  dsimp only
  (repeat' split) <;> simp_all

/-- The settings stay as they are. -/
theorem State.mbox_denied (s : State) (t : Nat) (i : Instr) (h : MbxHdr) (op : Nat) (body : State → MRes) (hv : h.fn.isVf = true) :
    (after (s.mbox t i h op .ridge0 body) s).settings = s.settings := by
  have hs : ∀ s : State, (s.serve h op true .ridge0 body).settings = s.settings := by
    intro s
    unfold State.serve
    dsimp only
    split
    · simp
    · rename_i he
      have := State.mboxCheck_denied ((s.event none 0x0F 1).modFunc h.fn.key
        (fun f => { f with busy := some (op, h.tag), done := false })) h op hv
      rw [he] at this
      simp at this
  unfold State.mbox State.message
  dsimp only
  (repeat' split) <;> simp [after, hs]

end Sys2Proof.Machine
end

