-- ==== Sys2Proof/Laws/Runs.lean ====
section
/-! SUPPORT. What a message, a data-path command and a BAR write do, said once: their front checks pass and their own part runs. -/

namespace Sys2Proof.Machine

open Sys2Proof

/-- A message that reaches its own part ends as that part says. -/
theorem State.message_runs (s : State) (t : Nat) (i : Instr) (h : MbxHdr) (op : Nat) (who : Rights) (body : State → MRes)
    (hr : s.msgRuns t h op who = true) :
    s.message t i h op true who body = .next (State.finishMsg h.fn.key h.tag op (body (s.atMsg t h op))) := by
  simp only [State.msgRuns, Bool.and_eq_true, Bool.not_eq_true', Option.isNone_iff_eq_none] at hr
  obtain ⟨⟨⟨⟨⟨⟨⟨⟨⟨h1, h2⟩, h3⟩, h4⟩, h5⟩, h6⟩, h7⟩, h8⟩, h9⟩, h10⟩ := hr
  have h1 : (s.advance t).dead = false := h1
  have h2 : (s.advance t).asleep = false := h2
  have hm : State.mboxCheck ((((s.advance t).fillRequest h op).event none 0x0F 1).modFunc h.fn.key
      (fun f => { f with busy := some (op, h.tag), done := false })) h op true who = none := h7
  unfold State.message
  simp only [State.submitted] at h3 h4 h5 h6
  simp only [h1, h2, h3, h4, h5, h6, Bool.false_eq_true, if_false, Bool.not_true, Bool.or_self, Option.isSome_none]
  unfold State.serve
  simp only [hm, h8, Bool.not_true, Bool.false_eq_true, if_false]
  have h9' := h9
  simp only [State.atMsg, State.serving, State.submitted] at h9'
  cases hc : h.chunk with
  | none =>
    simp only [h9', Bool.false_eq_true, if_false]
    rfl
  | some c =>
    rw [hc] at h10
    simp only [State.serving, State.submitted, beq_iff_eq] at h10
    simp only [h10, h9', Bool.false_eq_true, if_false]
    rfl

/-- The same for a message of R378. -/
theorem State.mbox_runs (s : State) (t : Nat) (i : Instr) (h : MbxHdr) (op : Nat) (who : Rights) (body : State → MRes)
    (hr : s.msgRuns t h op who = true) :
    s.mbox t i h op who body = .next (State.finishMsg h.fn.key h.tag op (body (s.atMsg t h op))) :=
  s.message_runs t i h op who body hr

/-- The ridge a message names is 1 to 16: its part runs on it. -/
theorem withRidge_of (h : MbxHdr) (s : State) (body : Nat → MRes) (r : Nat) (ht : h.target = some r) (h1 : 1 ≤ r) (h2 : r ≤ 16) :
    withRidge h s body = body r := by
  unfold withRidge
  simp only [ht, h1, h2, and_self, if_true]

/-- A message about a ridge that reaches its own part. -/
theorem State.mbox_on (s : State) (t : Nat) (i : Instr) (h : MbxHdr) (op : Nat) (who : Rights) (body : State → Nat → MRes) (r : Nat)
    (hr : s.msgOn t h op who r = true) :
    s.mbox t i h op who (fun s => withRidge h s (body s)) =
      .next (State.finishMsg h.fn.key h.tag op (body (s.atMsg t h op) r)) := by
  simp only [State.msgOn, Bool.and_eq_true, decide_eq_true_eq] at hr
  obtain ⟨⟨⟨h1, h2⟩, h3⟩, h4⟩ := hr
  rw [s.mbox_runs t i h op who _ h1, withRidge_of h _ _ r h2 h3 h4]

/-- The ridge a timing message names is 0 to 16: its part runs on it. -/
theorem withRidge0_of (h : MbxHdr) (s : State) (body : Nat → MRes) (r : Nat) (ht : h.target = some r) (h2 : r ≤ 16) :
    withRidge0 h s body = body r := by
  unfold withRidge0
  simp only [ht, h2, if_true]

/-- What a message about a ridge that reaches its own part says of it. -/
theorem msgOn_parts (s : State) (t : Nat) (h : MbxHdr) (op : Nat) (who : Rights) (r : Nat) (hr : s.msgOn t h op who r = true) :
    s.msgRuns t h op who = true ∧ h.target = some r ∧ 1 ≤ r ∧ r ≤ 16 := by
  simp only [State.msgOn, Bool.and_eq_true, decide_eq_true_eq] at hr
  exact ⟨hr.1.1.1, hr.1.1.2, hr.1.2, hr.2⟩

/-- The ring a message names exists: its part runs on it. -/
theorem withRing_of (h : MbxHdr) (i : Nat) (s : State) (body : Nat → Ring → MRes) (r : Nat) (g : Ring) (ht : h.target = some r)
    (h1 : 1 ≤ r) (h2 : r ≤ 16) (hi : i < 8192) (hg : s.rings.get? (ringKey r i) = some g) : withRing h i s body = body r g := by
  unfold withRing
  rw [withRidge_of h s _ r ht h1 h2]
  simp only [Nat.not_le.mpr hi, hg, if_false]

/-- The connection a message names is its ridge's: its part runs on it. -/
theorem withConn_of (h : MbxHdr) (n : Nat) (s : State) (body : Nat → Conn → MRes) (r : Nat) (c : Conn) (ht : h.target = some r)
    (h1 : 1 ≤ r) (h2 : r ≤ 16) (hc : s.conns.get? n = some c) (hr : c.ridge = r) : withConn h n s body = body r c := by
  unfold withConn
  rw [withRidge_of h s _ r ht h1 h2]
  simp only [hc, hr, if_true]

/-- A data-path command that passes its checks runs. -/
theorem State.command_runs (s : State) (t : Nat) (src : Src) (d : Desc) (inl : List Byte) (layout : List (Nat × Nat × Nat))
    (checks : State → Cmd → List (Bool × Status)) (run : State → Cmd → State) (x : State) (c : Cmd)
    (h : s.cmdRuns t src d inl layout checks x c) : s.command t src d inl layout checks run = .next (run x c) := by
  obtain ⟨h1, h2, h3, h4⟩ := h
  unfold State.command
  simp only [h1, h2, h3, h4, Bool.false_eq_true, if_false]

/-- A taken data-path command whose checks pass runs. -/
theorem State.taken_runs (s : State) (t : Nat) (src : Src) (d : Desc) (inl : List Byte) (layout : List (Nat × Nat × Nat))
    (checks : State → Cmd → List (Bool × Status)) (run : State → Cmd → State) (x : State) (c : Cmd)
    (h : s.taken t src d inl layout x c) (hc : firstFail (checks x c) = none) :
    s.command t src d inl layout checks run = .next (run x c) :=
  s.command_runs t src d inl layout checks run x c ⟨h.1, h.2.1, h.2.2, hc⟩

/-- A BAR write of a served function takes effect. -/
theorem State.arrive_runs (s : State) (t : Nat) (f : Fn) (off size v : Nat) (eff : State → State) (h : s.barRuns t f = true) :
    s.arrive t f off size v eff = .next (eff (s.atBar t)) := by
  simp only [State.barRuns, Bool.and_eq_true, Bool.not_eq_true'] at h
  obtain ⟨⟨h1, h2⟩, h3⟩ := h
  unfold State.arrive
  simp only [h1, h2, h3, Bool.false_eq_true, if_false, if_true]
  rfl

/-- Every message ends in a next state. -/
theorem State.message_next (s : State) (t : Nat) (i : Instr) (h : MbxHdr) (op : Nat) (d : Bool) (who : Rights) (body : State → MRes) :
    ∃ x, s.message t i h op d who body = .next x := by
  unfold State.message
  dsimp only
  (repeat' split) <;> exact ⟨_, rfl⟩

/-- Every data-path command ends in a next state. -/
theorem State.command_next (s : State) (t : Nat) (src : Src) (d : Desc) (inl : List Byte) (layout : List (Nat × Nat × Nat))
    (checks : State → Cmd → List (Bool × Status)) (run : State → Cmd → State) :
    ∃ x, s.command t src d inl layout checks run = .next x := by
  unfold State.command
  dsimp only
  (repeat' split) <;> exact ⟨_, rfl⟩

/-- Every BAR write ends in a next state. -/
theorem State.arrive_next (s : State) (t : Nat) (f : Fn) (off size v : Nat) (eff : State → State) :
    ∃ x, s.arrive t f off size v eff = .next x := by
  unfold State.arrive
  dsimp only
  (repeat' split) <;> exact ⟨_, rfl⟩

end Sys2Proof.Machine
end

