-- ==== Sys2Proof/Laws/Frames.lean ====
section
/-! SUPPORT. What a mailbox message leaves of the state beside its own part: the inversion of `State.message`, over the projection that
leaves out what serving a mailbox may touch. -/

namespace Sys2Proof.Machine

open Sys2Proof

/-- An entry of a keyed list after a change of the entry of a key. -/
theorem FMap.get?_adjust {α : Type} (m : FMap α) (k : Nat) (f : α → α) : (m.adjust k f).get? k = (m.get? k).map f := by
  induction m with
  | nil => rfl
  | cons e r ih =>
    obtain ⟨j, b⟩ := e
    simp only [FMap.adjust]
    split <;> simp_all [FMap.get?]

/-- A change of one entry leaves every other one. -/
theorem FMap.get?_adjust_ne {α : Type} (m : FMap α) (k j : Nat) (f : α → α) (h : j ≠ k) : (m.adjust k f).get? j = m.get? j := by
  induction m with
  | nil => rfl
  | cons e r ih =>
    obtain ⟨i, b⟩ := e
    simp only [FMap.adjust]
    split
    · subst_vars
      simp only [FMap.get?, if_neg (Ne.symm h)]
    · simp [FMap.get?, ih]

/-- A put entry is there. -/
theorem FMap.get?_set {α : Type} (m : FMap α) (k : Nat) (a : α) : (m.set k a).get? k = some a := by
  induction m with
  | nil => simp [FMap.set, FMap.get?]
  | cons e r ih =>
    obtain ⟨j, b⟩ := e
    simp only [FMap.set]
    split
    · simp [FMap.get?]
    · split <;> simp_all [FMap.get?]

/-- Putting an entry leaves every other one. -/
theorem FMap.get?_set_ne {α : Type} (m : FMap α) (k j : Nat) (a : α) (h : j ≠ k) : (m.set k a).get? j = m.get? j := by
  induction m with
  | nil => simp [FMap.set, FMap.get?, Ne.symm h]
  | cons e r ih =>
    obtain ⟨i, b⟩ := e
    simp only [FMap.set]
    split
    · subst_vars
      simp [FMap.get?, Ne.symm h]
    · split <;> simp_all [FMap.get?, Ne.symm h]

/-- A state without what serving a mailbox may touch: time, the counters, the mailboxes and interrupts, what was sent, and the MSI-X
messages a held cut keeps. -/
def State.sansMail (s : State) : State :=
  { s with time := State.reset.time, ctrs := [], funcs := [], out := [], trace := { s.trace with heldMsix := [] } }

/-- Two states that agree but for what serving the mailbox of function k may touch. -/
def State.mailStep (k : Nat) (s x : State) : Prop :=
  x.sansMail = s.sansMail ∧ x.time = { s.time with now := x.time.now } ∧ ∀ j, j ≠ k → x.func j = s.func j

/-- States that agree but for the mailbox agree in every other field. -/
theorem State.of_sansMail {s x : State} (h : x.sansMail = s.sansMail) :
    { x with
      time := s.time, ctrs := s.ctrs, funcs := s.funcs, out := s.out
      trace := { x.trace with heldMsix := s.trace.heldMsix } } = s :=
  congrArg (fun y : State => { y with
    time := s.time, ctrs := s.ctrs, funcs := s.funcs, out := s.out, trace := { y.trace with heldMsix := s.trace.heldMsix } }) h

theorem State.mailStep_refl (k : Nat) (s : State) : State.mailStep k s s := ⟨rfl, rfl, fun _ _ => rfl⟩

theorem State.mailStep_trans {k : Nat} {s x y : State} (h : State.mailStep k s x) (g : State.mailStep k x y) : State.mailStep k s y := by
  obtain ⟨h1, h2, h3⟩ := h
  obtain ⟨g1, g2, g3⟩ := g
  refine ⟨g1.trans h1, ?_, fun j hj => (g3 j hj).trans (h3 j hj)⟩
  rw [g2, h2]

theorem State.mailStep_foldl {α : Type} (k : Nat) (l : List α) (f : State → α → State) (h : ∀ s a, State.mailStep k s (f s a))
    (s : State) : State.mailStep k s (l.foldl f s) := by
  induction l generalizing s with
  | nil => exact State.mailStep_refl k s
  | cons a l ih => exact State.mailStep_trans (h s a) (ih _)

/-- Counters change nothing else. -/
theorem State.bumpBy_mail (k : Nat) (s : State) (c : Ctr) (n : Nat) : State.mailStep k s (s.bumpBy c n) := by
  unfold State.bumpBy
  split
  · exact State.mailStep_refl k s
  · exact ⟨rfl, rfl, fun _ _ => rfl⟩

theorem State.event_mail (k : Nat) (s : State) (c : Option Nat) (ev qty : Nat) : State.mailStep k s (s.event c ev qty) := by
  unfold State.event
  refine State.mailStep_foldl k _ _ (fun s a => ?_) s
  split
  · exact State.bumpBy_mail k s _ _
  · exact State.mailStep_refl k s

theorem State.levelEvent_mail (k : Nat) (s : State) (c : Option Nat) (ev level cycles : Nat) :
    State.mailStep k s (s.levelEvent c ev level cycles) := by
  unfold State.levelEvent
  split
  · exact State.mailStep_refl k s
  · refine State.mailStep_foldl k _ _ (fun s a => ?_) s
    split
    · exact State.bumpBy_mail k s _ _
    · dsimp only [State.maxCtr]
      split
      · exact State.mailStep_refl k s
      · exact ⟨rfl, rfl, fun _ _ => rfl⟩
    · exact State.mailStep_refl k s

theorem State.flits_mail (k : Nat) (s : State) (t0 t1 : Nat) : State.mailStep k s (s.flits t0 t1) := by
  have hb : ∀ (s : State) (c : Ctr) (n : Nat), State.mailStep k s (s.bumpOpen c n) := fun s c n => by
    unfold State.bumpOpen
    split
    · exact State.mailStep_refl k s
    · exact ⟨rfl, rfl, fun _ _ => rfl⟩
  have he : ∀ (s : State) (c : Option Nat) (ev n : Nat), State.mailStep k s (s.eventOpen c ev n) := fun s c ev n =>
    State.mailStep_foldl k _ _ (fun s a => by
      split
      · exact hb s _ _
      · exact State.mailStep_refl k s) s
  exact State.mailStep_foldl k _ _ (fun s c => State.mailStep_trans (he s _ _ _) (he _ _ _ _)) s

/-- Time passing moves network time and counts. -/
theorem State.advance_mail (k : Nat) (s : State) (t : Nat) : State.mailStep k s (s.advance t) := by
  have hl : ∀ (s : State) (n : Nat), State.mailStep k s (s.levels n) := by
    intro s n
    unfold State.levels
    have hc := State.mailStep_foldl k s.cirques (fun s e => (s.levelEvent (some e.1) 0x0F e.2.reorder.length n).levelEvent
      (some e.1) 0x14 e.2.ready.length n) (fun s e => State.mailStep_trans (State.levelEvent_mail k s (some e.1) 0x0F
        e.2.reorder.length n) (State.levelEvent_mail k _ (some e.1) 0x14 e.2.ready.length n)) s
    exact State.mailStep_trans (State.mailStep_trans (State.mailStep_trans hc (State.levelEvent_mail k _ _ _ _ _))
      (State.levelEvent_mail k _ _ _ _ _)) (State.levelEvent_mail k _ _ _ _ _)
  unfold State.advance
  generalize t % 2 ^ 64 = u
  dsimp only
  split
  · exact State.mailStep_refl k s
  · split
    · exact ⟨rfl, rfl, fun _ _ => rfl⟩
    · have h := State.mailStep_trans (hl s (cyclesIn s.time.now u)) (State.flits_mail k _ s.time.now u)
      generalize (s.levels (cyclesIn s.time.now u)).flits s.time.now u = x at h ⊢
      exact State.mailStep_trans h ⟨rfl, rfl, fun _ _ => rfl⟩

theorem State.modFunc_mail (k : Nat) (s : State) (f : Func → Func) : State.mailStep k s (s.modFunc k f) := by
  refine ⟨rfl, rfl, fun j hj => ?_⟩
  simp only [State.func, State.modFunc, FMap.get?_adjust_ne _ _ _ _ hj]

theorem State.emit_mail (k : Nat) (s : State) (o : Out) : State.mailStep k s (s.emit o) := ⟨rfl, rfl, fun _ _ => rfl⟩

theorem State.msix_mail (k : Nat) (s : State) (n v : Nat) : State.mailStep k s (s.msix n v) := by
  unfold State.msix
  split
  · exact ⟨rfl, rfl, fun _ _ => rfl⟩
  · exact State.emit_mail k s _

theorem State.raiseCause_mail (k : Nat) (s : State) (bit : Nat) : State.mailStep k s (s.raiseCause k bit) := by
  unfold State.raiseCause
  dsimp only
  (repeat' split)
  · exact State.mailStep_refl k s
  · exact State.mailStep_trans (State.modFunc_mail k s _) (State.msix_mail k _ _ _)
  · exact State.modFunc_mail k s _
  · exact State.mailStep_refl k s

/-- An answer reaches its own mailbox alone. -/
theorem State.answer_mail (k : Nat) (s : State) (tag op : Nat) (st : MStatus) (retry : Nat) (vals : List Nat) :
    State.mailStep k s (s.answer k tag op st retry vals) :=
  State.mailStep_trans (State.mailStep_trans (State.modFunc_mail k s _) (State.emit_mail k _ _)) (State.raiseCause_mail k _ _)

theorem State.finishMsg_mail (k tag op : Nat) (r : MRes) : State.mailStep k r.st (State.finishMsg k tag op r) := by
  cases r with
  | ans s st retry vals => exact State.answer_mail k s tag op st retry vals
  | wait s => exact State.mailStep_refl k s

/-- A part of a function's state that an update keeps reads as before. -/
theorem State.func_modFunc_keeps {β : Type} (s : State) (k : Nat) (f : Func → Func) (p : Func → β) (hp : ∀ x, p (f x) = p x) :
    p ((s.modFunc k f).func k) = p (s.func k) := by
  unfold State.func State.modFunc
  rw [FMap.get?_adjust]
  cases s.funcs.get? k <;> simp [hp]

/-- A message in the request buffer leaves READY and BUSY as they are. -/
theorem State.fillRequest_func (s : State) (h : MbxHdr) (op : Nat) :
    ((s.fillRequest h op).func h.fn.key).ready = (s.func h.fn.key).ready ∧
    ((s.fillRequest h op).func h.fn.key).busy = (s.func h.fn.key).busy :=
  ⟨s.func_modFunc_keeps _ _ Func.ready (fun _ => rfl), s.func_modFunc_keeps _ _ Func.busy (fun _ => rfl)⟩

/-- What a served message does: from a state `m` that differs from `s` in nothing but the mailbox, it is answered there, or its own part
runs and what that leaves is answered or waits. -/
theorem State.serve_cases (s : State) (h : MbxHdr) (op : Nat) (defined : Bool) (who : Rights) (body : State → MRes) :
    ∃ m, State.mailStep h.fn.key s m ∧
      (State.mailStep h.fn.key m (s.serve h op defined who body) ∨
        State.mailStep h.fn.key (body m).st (s.serve h op defined who body)) := by
  have h0 := State.mailStep_trans (State.event_mail h.fn.key s none 0x0F 1)
    (State.modFunc_mail h.fn.key _ (fun f => { f with busy := some (op, h.tag), done := false }))
  unfold State.serve
  dsimp only
  split
  · exact ⟨_, h0, .inl (State.answer_mail _ _ _ _ _ _ _)⟩
  · split
    · refine ⟨_, State.mailStep_trans h0 (State.modFunc_mail _ _ (fun f => { f with series := none })), ?_⟩
      (repeat' split)
      · exact .inl (State.answer_mail _ _ _ _ _ _ _)
      · exact .inl (State.answer_mail _ _ _ _ _ _ _)
      · exact .inr (State.finishMsg_mail _ _ _ _)
    · split
      · exact ⟨_, State.mailStep_trans h0 (State.modFunc_mail _ _ _), .inl (State.answer_mail _ _ _ _ _ _ _)⟩
      · rename_i se _
        exact ⟨_, State.mailStep_trans h0 (State.modFunc_mail _ _ (fun f => { f with series := some se })),
          .inl (State.answer_mail _ _ _ _ _ _ _)⟩
      · refine ⟨_, State.mailStep_trans h0 (State.modFunc_mail _ _ (fun f => { f with series := none })), ?_⟩
        (repeat' split)
        · exact .inl (State.answer_mail _ _ _ _ _ _ _)
        · exact .inl (State.answer_mail _ _ _ _ _ _ _)
        · exact .inr (State.finishMsg_mail _ _ _ _)

/-- What a message that finds the node awake does: nothing but to the mailbox, or its own part. -/
theorem State.message_cases (s x : State) (t : Nat) (i : Instr) (h : MbxHdr) (op : Nat) (defined : Bool) (who : Rights)
    (body : State → MRes) (ha : (s.advance t).asleep = false) (hx : s.message t i h op defined who body = .next x) :
    ∃ m, State.mailStep h.fn.key s m ∧ (State.mailStep h.fn.key m x ∨ State.mailStep h.fn.key (body m).st x) := by
  have h0 := State.advance_mail h.fn.key s t
  have h1 := State.mailStep_trans h0 (State.modFunc_mail h.fn.key (s.advance t) (fun f => { f with
    reqBuf := (chunkLe 4 4 (h.bytes op)).zipIdx.foldl (fun m e => m.put (4 * e.2) e.1) f.reqBuf }))
  unfold State.message at hx
  simp only [ha, Bool.false_eq_true, if_false] at hx
  (repeat' split at hx) <;> simp only [Host.Outcome.next.injEq] at hx <;> subst hx
  · exact ⟨_, h0, .inl (State.mailStep_refl _ _)⟩
  · exact ⟨_, h1, .inl (State.mailStep_refl _ _)⟩
  · exact ⟨_, h1, .inl (State.modFunc_mail _ _ _)⟩
  · obtain ⟨m, hm, hc⟩ := State.serve_cases ((s.advance t).fillRequest h op) h op defined who body
    exact ⟨m, State.mailStep_trans h1 hm, hc⟩

end Sys2Proof.Machine
end

