-- ==== Sys2Proof/Laws/Memory.lean ====
section
/-! SUPPORT. The bytes of a region: every operation keeps the canonical form, a written byte reads back and every other one stays. -/

namespace Sys2Proof.Machine

open Sys2Proof

/-- A bound below a list's keys may be lowered. -/
theorem FMap.above_mono {α : Type} (m : FMap α) (a b : Nat) (h : a ≤ b) (hm : FMap.above b m = true) : FMap.above a m = true := by
  cases m with
  | nil => rfl
  | cons e r =>
    obtain ⟨j, x⟩ := e
    simp only [FMap.above, Bool.and_eq_true, decide_eq_true_eq] at hm ⊢
    exact ⟨by omega, hm.2⟩

theorem FMap.above_set {α : Type} (m : FMap α) (a k : Nat) (x : α) (h : a < k) (hm : FMap.above a m = true) :
    FMap.above a (m.set k x) = true := by
  induction m generalizing a with
  | nil => simp [FMap.set, FMap.above, h]
  | cons e r ih =>
    obtain ⟨j, b⟩ := e
    simp only [FMap.above, Bool.and_eq_true, decide_eq_true_eq] at hm
    simp only [FMap.set]
    split
    · subst_vars
      simp [FMap.above, h, hm.2]
    · split
      · simp [FMap.above, h, hm.2, *]
      · simp only [FMap.above, Bool.and_eq_true, decide_eq_true_eq]
        exact ⟨hm.1, ih j (by omega) hm.2⟩

theorem FMap.above_erase {α : Type} (m : FMap α) (a k : Nat) (hm : FMap.above a m = true) : FMap.above a (m.erase k) = true := by
  induction m generalizing a with
  | nil => rfl
  | cons e r ih =>
    obtain ⟨j, b⟩ := e
    simp only [FMap.above, Bool.and_eq_true, decide_eq_true_eq] at hm
    simp only [FMap.erase]
    split
    · exact FMap.above_mono r a j (by omega) hm.2
    · simp only [FMap.above, Bool.and_eq_true, decide_eq_true_eq]
      exact ⟨hm.1, ih j hm.2⟩

/-- Putting an entry keeps the keys rising. -/
theorem FMap.wf_set {α : Type} (m : FMap α) (k : Nat) (x : α) (hm : m.wf = true) : FMap.wf (m.set k x) = true := by
  cases m with
  | nil => rfl
  | cons e r =>
    obtain ⟨j, b⟩ := e
    simp only [FMap.wf] at hm
    simp only [FMap.set]
    split
    · subst_vars
      exact hm
    · split
      · simp [FMap.wf, FMap.above, hm, *]
      · exact FMap.above_set r j k x (by omega) hm

/-- Taking an entry out keeps the keys rising. -/
theorem FMap.wf_erase {α : Type} (m : FMap α) (k : Nat) (hm : m.wf = true) : FMap.wf (m.erase k) = true := by
  cases m with
  | nil => rfl
  | cons e r =>
    obtain ⟨j, b⟩ := e
    simp only [FMap.wf] at hm
    simp only [FMap.erase]
    split
    · cases r with
      | nil => rfl
      | cons f r =>
        obtain ⟨i, c⟩ := f
        simp only [FMap.above, Bool.and_eq_true, decide_eq_true_eq] at hm
        exact hm.2
    · exact FMap.above_erase r j k hm

theorem FMap.all_set {α : Type} (m : FMap α) (k : Nat) (x : α) (p : Nat × α → Bool) (hm : m.all p = true) (hx : p (k, x) = true) :
    (m.set k x).all p = true := by
  induction m with
  | nil => simp [FMap.set, hx]
  | cons e r ih =>
    obtain ⟨j, b⟩ := e
    simp only [List.all_cons, Bool.and_eq_true] at hm
    simp only [FMap.set]
    split
    · simp [hx, hm.2]
    · split
      · simp [hx, hm.1, hm.2]
      · simp [hm.1, ih hm.2]

theorem FMap.all_erase {α : Type} (m : FMap α) (k : Nat) (p : Nat × α → Bool) (hm : m.all p = true) : (m.erase k).all p = true := by
  induction m with
  | nil => rfl
  | cons e r ih =>
    obtain ⟨j, b⟩ := e
    simp only [List.all_cons, Bool.and_eq_true] at hm
    simp only [FMap.erase]
    split
    · exact hm.2
    · simp [hm.1, ih hm.2]

/-- An entry above a bound is none of the keys at or below it. -/
theorem FMap.get?_above {α : Type} (m : FMap α) (a k : Nat) (h : k ≤ a) (hm : FMap.above a m = true) : m.get? k = none := by
  induction m generalizing a with
  | nil => rfl
  | cons e r ih =>
    obtain ⟨j, b⟩ := e
    simp only [FMap.above, Bool.and_eq_true, decide_eq_true_eq] at hm
    have : j ≠ k := by omega
    simp only [FMap.get?, if_neg this]
    exact ih j (by omega) hm.2

/-- With rising keys an entry taken out is gone. -/
theorem FMap.get?_erase {α : Type} (m : FMap α) (k : Nat) (hm : m.wf = true) : (m.erase k).get? k = none := by
  have key : ∀ (a : Nat) (m : FMap α), FMap.above a m = true → (m.erase k).get? k = none := by
    intro a m
    induction m generalizing a with
    | nil => intro _; rfl
    | cons e r ih =>
      obtain ⟨j, b⟩ := e
      intro h
      simp only [FMap.above, Bool.and_eq_true, decide_eq_true_eq] at h
      simp only [FMap.erase]
      split
      · subst_vars
        exact FMap.get?_above r j j (Nat.le_refl j) h.2
      · rename_i hne
        simp only [FMap.get?, if_neg hne]
        exact ih j h.2
  cases m with
  | nil => rfl
  | cons e r =>
    obtain ⟨j, b⟩ := e
    simp only [FMap.wf] at hm
    simp only [FMap.erase]
    split
    · subst_vars
      exact FMap.get?_above r j j (Nat.le_refl j) hm
    · rename_i hne
      simp only [FMap.get?, if_neg hne]
      exact key j r hm

/-- Taking an entry out leaves every other one. -/
theorem FMap.get?_erase_ne {α : Type} (m : FMap α) (k j : Nat) (h : j ≠ k) : (m.erase k).get? j = m.get? j := by
  induction m with
  | nil => rfl
  | cons e r ih =>
    obtain ⟨i, b⟩ := e
    simp only [FMap.erase]
    split
    · subst_vars
      simp [FMap.get?, Ne.symm h]
    · simp [FMap.get?, ih]

/-- Writing one byte keeps the form. -/
theorem memWf_memSet (m : List Host.Cell) (a : Nat) (b : Byte) (hm : memWf m = true) : memWf (memSet m a b) = true := by
  simp only [memWf, Bool.and_eq_true] at hm ⊢
  unfold memSet
  split
  · exact ⟨FMap.wf_erase m a hm.1, FMap.all_erase m a _ hm.2⟩
  · rename_i hb
    exact ⟨FMap.wf_set m a b hm.1, FMap.all_set m a b _ hm.2 (by simpa using hb)⟩

/-- Writing bytes keeps the form. -/
theorem memWf_memPut (m : List Host.Cell) (a : Nat) (bs : List Byte) (hm : memWf m = true) : memWf (memPut m a bs) = true := by
  induction bs generalizing m a with
  | nil => exact hm
  | cons b r ih => exact ih _ _ (memWf_memSet m a b hm)

/-- A new region lists no byte. -/
theorem memWf_nil : memWf [] = true := rfl

/-- A written byte reads back. -/
theorem memGet_memSet (m : List Host.Cell) (a : Nat) (b : Byte) (hm : memWf m = true) : memGet (memSet m a b) a = b := by
  simp only [memWf, Bool.and_eq_true] at hm
  unfold memGet memSet
  split
  · rw [FMap.get?_erase m a hm.1]
    simp_all
  · rw [FMap.get?_set]
    rfl

/-- Every other byte stays. -/
theorem memGet_memSet_ne (m : List Host.Cell) (a c : Nat) (b : Byte) (h : c ≠ a) : memGet (memSet m a b) c = memGet m c := by
  unfold memGet memSet
  split
  · rw [FMap.get?_erase_ne m a c h]
  · rw [FMap.get?_set_ne m a c b h]

/-- Bytes outside the written ones stay. -/
theorem memGet_memPut_outside (m : List Host.Cell) (a c : Nat) (bs : List Byte) (h : c < a ∨ a + bs.length ≤ c) :
    memGet (memPut m a bs) c = memGet m c := by
  induction bs generalizing m a with
  | nil => rfl
  | cons b r ih =>
    simp only [List.length_cons] at h
    rw [memPut, ih (memSet m a b) (a + 1) (by omega), memGet_memSet_ne m a c b (by omega)]

end Sys2Proof.Machine
end

