-- ==== Sys2Proof/Laws/Packets.lean ====
section
/-! SUPPORT. A Kalad packet that passes checks 1 to 7 of R269 comes to check 8, said once. -/

namespace Sys2Proof.Machine

open Sys2Proof

@[simp] theorem State.bumpBy_conns (s : State) (c : Ctr) (n : Nat) : (s.bumpBy c n).conns = s.conns := by
  unfold State.bumpBy
  (repeat' split) <;> rfl

@[simp] theorem State.bumpBy_time (s : State) (c : Ctr) (n : Nat) : (s.bumpBy c n).time = s.time := by
  unfold State.bumpBy
  (repeat' split) <;> rfl

/-- What every step of a fold keeps, the fold keeps. -/
theorem foldl_keeps {α β : Type} (l : List α) (f : State → α → State) (p : State → β) (h : ∀ s a, p (f s a) = p s) (s : State) :
    p (l.foldl f s) = p s := by
  induction l generalizing s with
  | nil => rfl
  | cons a l ih => rw [List.foldl_cons, ih, h]

@[simp] theorem State.event_conns (s : State) (c : Option Nat) (ev qty : Nat) : (s.event c ev qty).conns = s.conns := by
  unfold State.event
  exact foldl_keeps _ _ State.conns (fun s a => by split <;> simp) s

@[simp] theorem State.event_time (s : State) (c : Option Nat) (ev qty : Nat) : (s.event c ev qty).time = s.time := by
  unfold State.event
  exact foldl_keeps _ _ State.time (fun s a => by split <;> simp) s

/-- A packet counted leaves the connections and the time as they are. -/
@[simp] theorem State.rxCounted_conns (s : State) (r : Nat) (p : KPkt) : (s.rxCounted r p).conns = s.conns := by
  simp [State.rxCounted, State.bumpR, State.bump]

@[simp] theorem State.rxCounted_now (s : State) (r : Nat) (p : KPkt) : (s.rxCounted r p).now = s.now := by
  simp [State.rxCounted, State.bumpR, State.bump, State.now]

/-- A verified packet leaves its connection's state and ridge as they are. -/
@[simp] theorem Conn.verified_state (c : Conn) (p : KPkt) (now : Nat) : (c.verified p now).state = c.state := by
  unfold Conn.verified Conn.enterPhase
  dsimp only
  (repeat' split) <;> rfl

@[simp] theorem Conn.verified_ridge (c : Conn) (p : KPkt) (now : Nat) : (c.verified p now).ridge = c.ridge := by
  unfold Conn.verified Conn.enterPhase
  dsimp only
  (repeat' split) <;> rfl

/-- A packet on an Open connection that passes checks 5 to 7 comes to check 8. -/
theorem State.kCheck5_passes (s : State) (n : Nat) (c : Conn) (p : KPkt) (h : s.conns.get? n = some c) (ht : c.trailerOk p s.now = true)
    (ho : c.state = .opened) (hv : p.hdr.ver = 1) (hop : p.hdr.op < 8) (hr : p.reservedOk = true) (h1 : 1 ≤ p.hdr.ridge)
    (h2 : p.hdr.ridge ≤ 16) (h3 : p.hdr.ridge = c.ridge) :
    s.kCheck5 n p = (s.modConn n (fun x => x.verified p s.now)).kCheck8 n (c.verified p s.now) p := by
  have hg : (s.modConn n (fun x => x.verified p s.now)).conns.get? n = some (c.verified p s.now) := by
    show (s.conns.adjust n _).get? n = _
    rw [FMap.get?_adjust, h]
    rfl
  unfold State.kCheck5
  rw [h]
  dsimp only
  rw [if_neg (by rw [ht]; decide), hg]
  dsimp only
  rw [if_neg (by rw [Conn.verified_state, ho]; decide),
    if_neg (by simp only [hv, hr]; simp; omega), if_neg (by rw [Conn.verified_ridge, h3]; simp)]

/-- A packet that passes checks 1 to 7 comes to check 8 (R269). -/
theorem State.kRecv_passes (s : State) (c : Conn) (p : KPkt) (h : s.kPasses c p) :
    s.kRecv p = (s.kVerified c p).kCheck8 p.hdr.conn (c.verified p (s.kVerified c p).now) p := by
  obtain ⟨h1, h2, h3, h4, h5, h6, h7, h8, h9, h10, h11, h12, h13, h14, h15⟩ := h
  unfold State.kRecv
  rw [h1]
  dsimp only
  rw [← Prod.eta (s.kFront p), h2]
  dsimp only
  rw [if_neg h3, ← Prod.eta ((s.kFront p).1.classify p), h4]
  dsimp only
  have hm : (s.kMetered c p).conns = ((s.kFront p).1.classify p).1.conns := by
    unfold State.kMetered State.meterRx State.modRidge
    rfl
  have hc : (((s.kFront p).1.classify p).1).conns.get? p.hdr.conn = some c := hm ▸ h5
  unfold State.kAdmit
  rw [hc]
  dsimp only
  have hk : ((s.kFront p).1.classify p).1.meterRx c.ridge p.breakout (rxFrameBytes p) = s.kMetered c p := rfl
  rw [hk, if_neg (Nat.not_lt.mpr h6), if_pos h7]
  have hx := State.rxCounted_conns (s.kMetered c p) c.ridge p
  have hn := State.rxCounted_now (s.kMetered c p) c.ridge p
  unfold State.kVerified
  dsimp only
  rw [← hx] at h5
  rw [← hn] at h8
  generalize (s.kMetered c p).rxCounted c.ridge p = x at *
  rw [State.kCheck5_passes x _ c p h5 h8 h9 h10 h11 h12 h13 h14 h15]
  rfl

end Sys2Proof.Machine
end

