-- ==== Sys2Proof/Laws/State.lean ====
section
/-! SUPPORT. What each named update of the state leaves in each field. -/

namespace Sys2Proof.Machine

open Sys2Proof

-- A counter written.
@[simp] theorem State.setCtr_pending (s : State) (c : Ctr) (v : Nat) : (s.setCtr c v).pending = s.pending := rfl
@[simp] theorem State.setCtr_time (s : State) (c : Ctr) (v : Nat) : (s.setCtr c v).time = s.time := rfl
@[simp] theorem State.setCtr_fab (s : State) (c : Ctr) (v : Nat) : (s.setCtr c v).fab = s.fab := rfl
@[simp] theorem State.setCtr_ridges (s : State) (c : Ctr) (v : Nat) : (s.setCtr c v).ridges = s.ridges := rfl
@[simp] theorem State.setCtr_funcs (s : State) (c : Ctr) (v : Nat) : (s.setCtr c v).funcs = s.funcs := rfl
@[simp] theorem State.setCtr_numVfs (s : State) (c : Ctr) (v : Nat) : (s.setCtr c v).numVfs = s.numVfs := rfl
@[simp] theorem State.setCtr_vfEnable (s : State) (c : Ctr) (v : Nat) : (s.setCtr c v).vfEnable = s.vfEnable := rfl
@[simp] theorem State.setCtr_rings (s : State) (c : Ctr) (v : Nat) : (s.setCtr c v).rings = s.rings := rfl
@[simp] theorem State.setCtr_seqs (s : State) (c : Ctr) (v : Nat) : (s.setCtr c v).seqs = s.seqs := rfl
@[simp] theorem State.setCtr_gens (s : State) (c : Ctr) (v : Nat) : (s.setCtr c v).gens = s.gens := rfl
@[simp] theorem State.setCtr_pages (s : State) (c : Ctr) (v : Nat) : (s.setCtr c v).pages = s.pages := rfl
@[simp] theorem State.setCtr_wgens (s : State) (c : Ctr) (v : Nat) : (s.setCtr c v).wgens = s.wgens := rfl
@[simp] theorem State.setCtr_frames (s : State) (c : Ctr) (v : Nat) : (s.setCtr c v).frames = s.frames := rfl
@[simp] theorem State.setCtr_hands (s : State) (c : Ctr) (v : Nat) : (s.setCtr c v).hands = s.hands := rfl
@[simp] theorem State.setCtr_reqs (s : State) (c : Ctr) (v : Nat) : (s.setCtr c v).reqs = s.reqs := rfl
@[simp] theorem State.setCtr_nextOrder (s : State) (c : Ctr) (v : Nat) : (s.setCtr c v).nextOrder = s.nextOrder := rfl
@[simp] theorem State.setCtr_cirques (s : State) (c : Ctr) (v : Nat) : (s.setCtr c v).cirques = s.cirques := rfl
@[simp] theorem State.setCtr_groups (s : State) (c : Ctr) (v : Nat) : (s.setCtr c v).groups = s.groups := rfl
@[simp] theorem State.setCtr_banks (s : State) (c : Ctr) (v : Nat) : (s.setCtr c v).banks = s.banks := rfl
@[simp] theorem State.setCtr_stacks (s : State) (c : Ctr) (v : Nat) : (s.setCtr c v).dramStacks = s.dramStacks := rfl
@[simp] theorem State.setCtr_cairnCfg (s : State) (c : Ctr) (v : Nat) : (s.setCtr c v).cairnCfg = s.cairnCfg := rfl
@[simp] theorem State.setCtr_regions (s : State) (c : Ctr) (v : Nat) : (s.setCtr c v).regions = s.regions := rfl
@[simp] theorem State.setCtr_indexes (s : State) (c : Ctr) (v : Nat) : (s.setCtr c v).indexes = s.indexes := rfl
@[simp] theorem State.setCtr_indexGens (s : State) (c : Ctr) (v : Nat) : (s.setCtr c v).indexGens = s.indexGens := rfl
@[simp] theorem State.setCtr_conns (s : State) (c : Ctr) (v : Nat) : (s.setCtr c v).conns = s.conns := rfl
@[simp] theorem State.setCtr_kldCfg (s : State) (c : Ctr) (v : Nat) : (s.setCtr c v).kldCfg = s.kldCfg := rfl
@[simp] theorem State.setCtr_kldRidge (s : State) (c : Ctr) (v : Nat) : (s.setCtr c v).kldRidge = s.kldRidge := rfl
@[simp] theorem State.setCtr_ports (s : State) (c : Ctr) (v : Nat) : (s.setCtr c v).ports = s.ports := rfl
@[simp] theorem State.setCtr_brks (s : State) (c : Ctr) (v : Nat) : (s.setCtr c v).brks = s.brks := rfl
@[simp] theorem State.setCtr_classCfg (s : State) (c : Ctr) (v : Nat) : (s.setCtr c v).classCfg = s.classCfg := rfl
@[simp] theorem State.setCtr_ingress (s : State) (c : Ctr) (v : Nat) : (s.setCtr c v).ingress = s.ingress := rfl
@[simp] theorem State.setCtr_loupe (s : State) (c : Ctr) (v : Nat) : (s.setCtr c v).loupe = s.loupe := rfl
@[simp] theorem State.setCtr_health (s : State) (c : Ctr) (v : Nat) : (s.setCtr c v).health = s.health := rfl
@[simp] theorem State.setCtr_trace (s : State) (c : Ctr) (v : Nat) : (s.setCtr c v).trace = s.trace := rfl
@[simp] theorem State.setCtr_power (s : State) (c : Ctr) (v : Nat) : (s.setCtr c v).power = s.power := rfl
@[simp] theorem State.setCtr_strip (s : State) (c : Ctr) (v : Nat) : (s.setCtr c v).strip = s.strip := rfl
@[simp] theorem State.setCtr_sns (s : State) (c : Ctr) (v : Nat) : (s.setCtr c v).sns = s.sns := rfl
@[simp] theorem State.setCtr_boot (s : State) (c : Ctr) (v : Nat) : (s.setCtr c v).boot = s.boot := rfl
@[simp] theorem State.setCtr_ctrs (s : State) (c : Ctr) (v : Nat) : (s.setCtr c v).ctrs = ctrPut s.ctrs c (min v ctrMax) := rfl
@[simp] theorem State.setCtr_draws (s : State) (c : Ctr) (v : Nat) : (s.setCtr c v).draws = s.draws := rfl
@[simp] theorem State.setCtr_out (s : State) (c : Ctr) (v : Nat) : (s.setCtr c v).out = s.out := rfl

-- Something put on an interface.
@[simp] theorem State.emit_pending (s : State) (o : Out) : (s.emit o).pending = s.pending := rfl
@[simp] theorem State.emit_time (s : State) (o : Out) : (s.emit o).time = s.time := rfl
@[simp] theorem State.emit_fab (s : State) (o : Out) : (s.emit o).fab = s.fab := rfl
@[simp] theorem State.emit_ridges (s : State) (o : Out) : (s.emit o).ridges = s.ridges := rfl
@[simp] theorem State.emit_funcs (s : State) (o : Out) : (s.emit o).funcs = s.funcs := rfl
@[simp] theorem State.emit_numVfs (s : State) (o : Out) : (s.emit o).numVfs = s.numVfs := rfl
@[simp] theorem State.emit_vfEnable (s : State) (o : Out) : (s.emit o).vfEnable = s.vfEnable := rfl
@[simp] theorem State.emit_rings (s : State) (o : Out) : (s.emit o).rings = s.rings := rfl
@[simp] theorem State.emit_seqs (s : State) (o : Out) : (s.emit o).seqs = s.seqs := rfl
@[simp] theorem State.emit_gens (s : State) (o : Out) : (s.emit o).gens = s.gens := rfl
@[simp] theorem State.emit_pages (s : State) (o : Out) : (s.emit o).pages = s.pages := rfl
@[simp] theorem State.emit_wgens (s : State) (o : Out) : (s.emit o).wgens = s.wgens := rfl
@[simp] theorem State.emit_frames (s : State) (o : Out) : (s.emit o).frames = s.frames := rfl
@[simp] theorem State.emit_hands (s : State) (o : Out) : (s.emit o).hands = s.hands := rfl
@[simp] theorem State.emit_reqs (s : State) (o : Out) : (s.emit o).reqs = s.reqs := rfl
@[simp] theorem State.emit_nextOrder (s : State) (o : Out) : (s.emit o).nextOrder = s.nextOrder := rfl
@[simp] theorem State.emit_cirques (s : State) (o : Out) : (s.emit o).cirques = s.cirques := rfl
@[simp] theorem State.emit_groups (s : State) (o : Out) : (s.emit o).groups = s.groups := rfl
@[simp] theorem State.emit_banks (s : State) (o : Out) : (s.emit o).banks = s.banks := rfl
@[simp] theorem State.emit_stacks (s : State) (o : Out) : (s.emit o).dramStacks = s.dramStacks := rfl
@[simp] theorem State.emit_cairnCfg (s : State) (o : Out) : (s.emit o).cairnCfg = s.cairnCfg := rfl
@[simp] theorem State.emit_regions (s : State) (o : Out) : (s.emit o).regions = s.regions := rfl
@[simp] theorem State.emit_indexes (s : State) (o : Out) : (s.emit o).indexes = s.indexes := rfl
@[simp] theorem State.emit_indexGens (s : State) (o : Out) : (s.emit o).indexGens = s.indexGens := rfl
@[simp] theorem State.emit_conns (s : State) (o : Out) : (s.emit o).conns = s.conns := rfl
@[simp] theorem State.emit_kldCfg (s : State) (o : Out) : (s.emit o).kldCfg = s.kldCfg := rfl
@[simp] theorem State.emit_kldRidge (s : State) (o : Out) : (s.emit o).kldRidge = s.kldRidge := rfl
@[simp] theorem State.emit_ports (s : State) (o : Out) : (s.emit o).ports = s.ports := rfl
@[simp] theorem State.emit_brks (s : State) (o : Out) : (s.emit o).brks = s.brks := rfl
@[simp] theorem State.emit_classCfg (s : State) (o : Out) : (s.emit o).classCfg = s.classCfg := rfl
@[simp] theorem State.emit_ingress (s : State) (o : Out) : (s.emit o).ingress = s.ingress := rfl
@[simp] theorem State.emit_loupe (s : State) (o : Out) : (s.emit o).loupe = s.loupe := rfl
@[simp] theorem State.emit_health (s : State) (o : Out) : (s.emit o).health = s.health := rfl
@[simp] theorem State.emit_trace (s : State) (o : Out) : (s.emit o).trace = s.trace := rfl
@[simp] theorem State.emit_power (s : State) (o : Out) : (s.emit o).power = s.power := rfl
@[simp] theorem State.emit_strip (s : State) (o : Out) : (s.emit o).strip = s.strip := rfl
@[simp] theorem State.emit_sns (s : State) (o : Out) : (s.emit o).sns = s.sns := rfl
@[simp] theorem State.emit_boot (s : State) (o : Out) : (s.emit o).boot = s.boot := rfl
@[simp] theorem State.emit_ctrs (s : State) (o : Out) : (s.emit o).ctrs = s.ctrs := rfl
@[simp] theorem State.emit_draws (s : State) (o : Out) : (s.emit o).draws = s.draws := rfl
@[simp] theorem State.emit_out (s : State) (o : Out) : (s.emit o).out = s.out ++ [o] := rfl

-- A function changed.
@[simp] theorem State.modFunc_pending (s : State) (k : Nat) (f : Func → Func) : (s.modFunc k f).pending = s.pending := rfl
@[simp] theorem State.modFunc_time (s : State) (k : Nat) (f : Func → Func) : (s.modFunc k f).time = s.time := rfl
@[simp] theorem State.modFunc_fab (s : State) (k : Nat) (f : Func → Func) : (s.modFunc k f).fab = s.fab := rfl
@[simp] theorem State.modFunc_ridges (s : State) (k : Nat) (f : Func → Func) : (s.modFunc k f).ridges = s.ridges := rfl
@[simp] theorem State.modFunc_funcs (s : State) (k : Nat) (f : Func → Func) : (s.modFunc k f).funcs = s.funcs.adjust k f := rfl
@[simp] theorem State.modFunc_numVfs (s : State) (k : Nat) (f : Func → Func) : (s.modFunc k f).numVfs = s.numVfs := rfl
@[simp] theorem State.modFunc_vfEnable (s : State) (k : Nat) (f : Func → Func) : (s.modFunc k f).vfEnable = s.vfEnable := rfl
@[simp] theorem State.modFunc_rings (s : State) (k : Nat) (f : Func → Func) : (s.modFunc k f).rings = s.rings := rfl
@[simp] theorem State.modFunc_seqs (s : State) (k : Nat) (f : Func → Func) : (s.modFunc k f).seqs = s.seqs := rfl
@[simp] theorem State.modFunc_gens (s : State) (k : Nat) (f : Func → Func) : (s.modFunc k f).gens = s.gens := rfl
@[simp] theorem State.modFunc_pages (s : State) (k : Nat) (f : Func → Func) : (s.modFunc k f).pages = s.pages := rfl
@[simp] theorem State.modFunc_wgens (s : State) (k : Nat) (f : Func → Func) : (s.modFunc k f).wgens = s.wgens := rfl
@[simp] theorem State.modFunc_frames (s : State) (k : Nat) (f : Func → Func) : (s.modFunc k f).frames = s.frames := rfl
@[simp] theorem State.modFunc_hands (s : State) (k : Nat) (f : Func → Func) : (s.modFunc k f).hands = s.hands := rfl
@[simp] theorem State.modFunc_reqs (s : State) (k : Nat) (f : Func → Func) : (s.modFunc k f).reqs = s.reqs := rfl
@[simp] theorem State.modFunc_nextOrder (s : State) (k : Nat) (f : Func → Func) : (s.modFunc k f).nextOrder = s.nextOrder := rfl
@[simp] theorem State.modFunc_cirques (s : State) (k : Nat) (f : Func → Func) : (s.modFunc k f).cirques = s.cirques := rfl
@[simp] theorem State.modFunc_groups (s : State) (k : Nat) (f : Func → Func) : (s.modFunc k f).groups = s.groups := rfl
@[simp] theorem State.modFunc_banks (s : State) (k : Nat) (f : Func → Func) : (s.modFunc k f).banks = s.banks := rfl
@[simp] theorem State.modFunc_stacks (s : State) (k : Nat) (f : Func → Func) : (s.modFunc k f).dramStacks = s.dramStacks := rfl
@[simp] theorem State.modFunc_cairnCfg (s : State) (k : Nat) (f : Func → Func) : (s.modFunc k f).cairnCfg = s.cairnCfg := rfl
@[simp] theorem State.modFunc_regions (s : State) (k : Nat) (f : Func → Func) : (s.modFunc k f).regions = s.regions := rfl
@[simp] theorem State.modFunc_indexes (s : State) (k : Nat) (f : Func → Func) : (s.modFunc k f).indexes = s.indexes := rfl
@[simp] theorem State.modFunc_indexGens (s : State) (k : Nat) (f : Func → Func) : (s.modFunc k f).indexGens = s.indexGens := rfl
@[simp] theorem State.modFunc_conns (s : State) (k : Nat) (f : Func → Func) : (s.modFunc k f).conns = s.conns := rfl
@[simp] theorem State.modFunc_kldCfg (s : State) (k : Nat) (f : Func → Func) : (s.modFunc k f).kldCfg = s.kldCfg := rfl
@[simp] theorem State.modFunc_kldRidge (s : State) (k : Nat) (f : Func → Func) : (s.modFunc k f).kldRidge = s.kldRidge := rfl
@[simp] theorem State.modFunc_ports (s : State) (k : Nat) (f : Func → Func) : (s.modFunc k f).ports = s.ports := rfl
@[simp] theorem State.modFunc_brks (s : State) (k : Nat) (f : Func → Func) : (s.modFunc k f).brks = s.brks := rfl
@[simp] theorem State.modFunc_classCfg (s : State) (k : Nat) (f : Func → Func) : (s.modFunc k f).classCfg = s.classCfg := rfl
@[simp] theorem State.modFunc_ingress (s : State) (k : Nat) (f : Func → Func) : (s.modFunc k f).ingress = s.ingress := rfl
@[simp] theorem State.modFunc_loupe (s : State) (k : Nat) (f : Func → Func) : (s.modFunc k f).loupe = s.loupe := rfl
@[simp] theorem State.modFunc_health (s : State) (k : Nat) (f : Func → Func) : (s.modFunc k f).health = s.health := rfl
@[simp] theorem State.modFunc_trace (s : State) (k : Nat) (f : Func → Func) : (s.modFunc k f).trace = s.trace := rfl
@[simp] theorem State.modFunc_power (s : State) (k : Nat) (f : Func → Func) : (s.modFunc k f).power = s.power := rfl
@[simp] theorem State.modFunc_strip (s : State) (k : Nat) (f : Func → Func) : (s.modFunc k f).strip = s.strip := rfl
@[simp] theorem State.modFunc_sns (s : State) (k : Nat) (f : Func → Func) : (s.modFunc k f).sns = s.sns := rfl
@[simp] theorem State.modFunc_boot (s : State) (k : Nat) (f : Func → Func) : (s.modFunc k f).boot = s.boot := rfl
@[simp] theorem State.modFunc_ctrs (s : State) (k : Nat) (f : Func → Func) : (s.modFunc k f).ctrs = s.ctrs := rfl
@[simp] theorem State.modFunc_draws (s : State) (k : Nat) (f : Func → Func) : (s.modFunc k f).draws = s.draws := rfl
@[simp] theorem State.modFunc_out (s : State) (k : Nat) (f : Func → Func) : (s.modFunc k f).out = s.out := rfl

-- A ridge changed.
@[simp] theorem State.modRidge_pending (s : State) (r : Nat) (f : Ridge → Ridge) : (s.modRidge r f).pending = s.pending := rfl
@[simp] theorem State.modRidge_time (s : State) (r : Nat) (f : Ridge → Ridge) : (s.modRidge r f).time = s.time := rfl
@[simp] theorem State.modRidge_fab (s : State) (r : Nat) (f : Ridge → Ridge) : (s.modRidge r f).fab = s.fab := rfl
@[simp] theorem State.modRidge_ridges (s : State) (r : Nat) (f : Ridge → Ridge) : (s.modRidge r f).ridges = s.ridges.adjust r f := rfl
@[simp] theorem State.modRidge_funcs (s : State) (r : Nat) (f : Ridge → Ridge) : (s.modRidge r f).funcs = s.funcs := rfl
@[simp] theorem State.modRidge_numVfs (s : State) (r : Nat) (f : Ridge → Ridge) : (s.modRidge r f).numVfs = s.numVfs := rfl
@[simp] theorem State.modRidge_vfEnable (s : State) (r : Nat) (f : Ridge → Ridge) : (s.modRidge r f).vfEnable = s.vfEnable := rfl
@[simp] theorem State.modRidge_rings (s : State) (r : Nat) (f : Ridge → Ridge) : (s.modRidge r f).rings = s.rings := rfl
@[simp] theorem State.modRidge_seqs (s : State) (r : Nat) (f : Ridge → Ridge) : (s.modRidge r f).seqs = s.seqs := rfl
@[simp] theorem State.modRidge_gens (s : State) (r : Nat) (f : Ridge → Ridge) : (s.modRidge r f).gens = s.gens := rfl
@[simp] theorem State.modRidge_pages (s : State) (r : Nat) (f : Ridge → Ridge) : (s.modRidge r f).pages = s.pages := rfl
@[simp] theorem State.modRidge_wgens (s : State) (r : Nat) (f : Ridge → Ridge) : (s.modRidge r f).wgens = s.wgens := rfl
@[simp] theorem State.modRidge_frames (s : State) (r : Nat) (f : Ridge → Ridge) : (s.modRidge r f).frames = s.frames := rfl
@[simp] theorem State.modRidge_hands (s : State) (r : Nat) (f : Ridge → Ridge) : (s.modRidge r f).hands = s.hands := rfl
@[simp] theorem State.modRidge_reqs (s : State) (r : Nat) (f : Ridge → Ridge) : (s.modRidge r f).reqs = s.reqs := rfl
@[simp] theorem State.modRidge_nextOrder (s : State) (r : Nat) (f : Ridge → Ridge) : (s.modRidge r f).nextOrder = s.nextOrder := rfl
@[simp] theorem State.modRidge_cirques (s : State) (r : Nat) (f : Ridge → Ridge) : (s.modRidge r f).cirques = s.cirques := rfl
@[simp] theorem State.modRidge_groups (s : State) (r : Nat) (f : Ridge → Ridge) : (s.modRidge r f).groups = s.groups := rfl
@[simp] theorem State.modRidge_banks (s : State) (r : Nat) (f : Ridge → Ridge) : (s.modRidge r f).banks = s.banks := rfl
@[simp] theorem State.modRidge_stacks (s : State) (r : Nat) (f : Ridge → Ridge) : (s.modRidge r f).dramStacks = s.dramStacks := rfl
@[simp] theorem State.modRidge_cairnCfg (s : State) (r : Nat) (f : Ridge → Ridge) : (s.modRidge r f).cairnCfg = s.cairnCfg := rfl
@[simp] theorem State.modRidge_regions (s : State) (r : Nat) (f : Ridge → Ridge) : (s.modRidge r f).regions = s.regions := rfl
@[simp] theorem State.modRidge_indexes (s : State) (r : Nat) (f : Ridge → Ridge) : (s.modRidge r f).indexes = s.indexes := rfl
@[simp] theorem State.modRidge_indexGens (s : State) (r : Nat) (f : Ridge → Ridge) : (s.modRidge r f).indexGens = s.indexGens := rfl
@[simp] theorem State.modRidge_conns (s : State) (r : Nat) (f : Ridge → Ridge) : (s.modRidge r f).conns = s.conns := rfl
@[simp] theorem State.modRidge_kldCfg (s : State) (r : Nat) (f : Ridge → Ridge) : (s.modRidge r f).kldCfg = s.kldCfg := rfl
@[simp] theorem State.modRidge_kldRidge (s : State) (r : Nat) (f : Ridge → Ridge) : (s.modRidge r f).kldRidge = s.kldRidge := rfl
@[simp] theorem State.modRidge_ports (s : State) (r : Nat) (f : Ridge → Ridge) : (s.modRidge r f).ports = s.ports := rfl
@[simp] theorem State.modRidge_brks (s : State) (r : Nat) (f : Ridge → Ridge) : (s.modRidge r f).brks = s.brks := rfl
@[simp] theorem State.modRidge_classCfg (s : State) (r : Nat) (f : Ridge → Ridge) : (s.modRidge r f).classCfg = s.classCfg := rfl
@[simp] theorem State.modRidge_ingress (s : State) (r : Nat) (f : Ridge → Ridge) : (s.modRidge r f).ingress = s.ingress := rfl
@[simp] theorem State.modRidge_loupe (s : State) (r : Nat) (f : Ridge → Ridge) : (s.modRidge r f).loupe = s.loupe := rfl
@[simp] theorem State.modRidge_health (s : State) (r : Nat) (f : Ridge → Ridge) : (s.modRidge r f).health = s.health := rfl
@[simp] theorem State.modRidge_trace (s : State) (r : Nat) (f : Ridge → Ridge) : (s.modRidge r f).trace = s.trace := rfl
@[simp] theorem State.modRidge_power (s : State) (r : Nat) (f : Ridge → Ridge) : (s.modRidge r f).power = s.power := rfl
@[simp] theorem State.modRidge_strip (s : State) (r : Nat) (f : Ridge → Ridge) : (s.modRidge r f).strip = s.strip := rfl
@[simp] theorem State.modRidge_sns (s : State) (r : Nat) (f : Ridge → Ridge) : (s.modRidge r f).sns = s.sns := rfl
@[simp] theorem State.modRidge_boot (s : State) (r : Nat) (f : Ridge → Ridge) : (s.modRidge r f).boot = s.boot := rfl
@[simp] theorem State.modRidge_ctrs (s : State) (r : Nat) (f : Ridge → Ridge) : (s.modRidge r f).ctrs = s.ctrs := rfl
@[simp] theorem State.modRidge_draws (s : State) (r : Nat) (f : Ridge → Ridge) : (s.modRidge r f).draws = s.draws := rfl
@[simp] theorem State.modRidge_out (s : State) (r : Nat) (f : Ridge → Ridge) : (s.modRidge r f).out = s.out := rfl

-- A cirque changed.
@[simp] theorem State.modCirque_pending (s : State) (c : Nat) (f : Cirque → Cirque) : (s.modCirque c f).pending = s.pending := rfl
@[simp] theorem State.modCirque_time (s : State) (c : Nat) (f : Cirque → Cirque) : (s.modCirque c f).time = s.time := rfl
@[simp] theorem State.modCirque_fab (s : State) (c : Nat) (f : Cirque → Cirque) : (s.modCirque c f).fab = s.fab := rfl
@[simp] theorem State.modCirque_ridges (s : State) (c : Nat) (f : Cirque → Cirque) : (s.modCirque c f).ridges = s.ridges := rfl
@[simp] theorem State.modCirque_funcs (s : State) (c : Nat) (f : Cirque → Cirque) : (s.modCirque c f).funcs = s.funcs := rfl
@[simp] theorem State.modCirque_numVfs (s : State) (c : Nat) (f : Cirque → Cirque) : (s.modCirque c f).numVfs = s.numVfs := rfl
@[simp] theorem State.modCirque_vfEnable (s : State) (c : Nat) (f : Cirque → Cirque) : (s.modCirque c f).vfEnable = s.vfEnable := rfl
@[simp] theorem State.modCirque_rings (s : State) (c : Nat) (f : Cirque → Cirque) : (s.modCirque c f).rings = s.rings := rfl
@[simp] theorem State.modCirque_seqs (s : State) (c : Nat) (f : Cirque → Cirque) : (s.modCirque c f).seqs = s.seqs := rfl
@[simp] theorem State.modCirque_gens (s : State) (c : Nat) (f : Cirque → Cirque) : (s.modCirque c f).gens = s.gens := rfl
@[simp] theorem State.modCirque_pages (s : State) (c : Nat) (f : Cirque → Cirque) : (s.modCirque c f).pages = s.pages := rfl
@[simp] theorem State.modCirque_wgens (s : State) (c : Nat) (f : Cirque → Cirque) : (s.modCirque c f).wgens = s.wgens := rfl
@[simp] theorem State.modCirque_frames (s : State) (c : Nat) (f : Cirque → Cirque) : (s.modCirque c f).frames = s.frames := rfl
@[simp] theorem State.modCirque_hands (s : State) (c : Nat) (f : Cirque → Cirque) : (s.modCirque c f).hands = s.hands := rfl
@[simp] theorem State.modCirque_reqs (s : State) (c : Nat) (f : Cirque → Cirque) : (s.modCirque c f).reqs = s.reqs := rfl
@[simp] theorem State.modCirque_nextOrder (s : State) (c : Nat) (f : Cirque → Cirque) : (s.modCirque c f).nextOrder = s.nextOrder := rfl
@[simp] theorem State.modCirque_cirques (s : State) (c : Nat) (f : Cirque → Cirque) : (s.modCirque c f).cirques = s.cirques.set c (f (s.cirque c)) := rfl
@[simp] theorem State.modCirque_groups (s : State) (c : Nat) (f : Cirque → Cirque) : (s.modCirque c f).groups = s.groups := rfl
@[simp] theorem State.modCirque_banks (s : State) (c : Nat) (f : Cirque → Cirque) : (s.modCirque c f).banks = s.banks := rfl
@[simp] theorem State.modCirque_stacks (s : State) (c : Nat) (f : Cirque → Cirque) : (s.modCirque c f).dramStacks = s.dramStacks := rfl
@[simp] theorem State.modCirque_cairnCfg (s : State) (c : Nat) (f : Cirque → Cirque) : (s.modCirque c f).cairnCfg = s.cairnCfg := rfl
@[simp] theorem State.modCirque_regions (s : State) (c : Nat) (f : Cirque → Cirque) : (s.modCirque c f).regions = s.regions := rfl
@[simp] theorem State.modCirque_indexes (s : State) (c : Nat) (f : Cirque → Cirque) : (s.modCirque c f).indexes = s.indexes := rfl
@[simp] theorem State.modCirque_indexGens (s : State) (c : Nat) (f : Cirque → Cirque) : (s.modCirque c f).indexGens = s.indexGens := rfl
@[simp] theorem State.modCirque_conns (s : State) (c : Nat) (f : Cirque → Cirque) : (s.modCirque c f).conns = s.conns := rfl
@[simp] theorem State.modCirque_kldCfg (s : State) (c : Nat) (f : Cirque → Cirque) : (s.modCirque c f).kldCfg = s.kldCfg := rfl
@[simp] theorem State.modCirque_kldRidge (s : State) (c : Nat) (f : Cirque → Cirque) : (s.modCirque c f).kldRidge = s.kldRidge := rfl
@[simp] theorem State.modCirque_ports (s : State) (c : Nat) (f : Cirque → Cirque) : (s.modCirque c f).ports = s.ports := rfl
@[simp] theorem State.modCirque_brks (s : State) (c : Nat) (f : Cirque → Cirque) : (s.modCirque c f).brks = s.brks := rfl
@[simp] theorem State.modCirque_classCfg (s : State) (c : Nat) (f : Cirque → Cirque) : (s.modCirque c f).classCfg = s.classCfg := rfl
@[simp] theorem State.modCirque_ingress (s : State) (c : Nat) (f : Cirque → Cirque) : (s.modCirque c f).ingress = s.ingress := rfl
@[simp] theorem State.modCirque_loupe (s : State) (c : Nat) (f : Cirque → Cirque) : (s.modCirque c f).loupe = s.loupe := rfl
@[simp] theorem State.modCirque_health (s : State) (c : Nat) (f : Cirque → Cirque) : (s.modCirque c f).health = s.health := rfl
@[simp] theorem State.modCirque_trace (s : State) (c : Nat) (f : Cirque → Cirque) : (s.modCirque c f).trace = s.trace := rfl
@[simp] theorem State.modCirque_power (s : State) (c : Nat) (f : Cirque → Cirque) : (s.modCirque c f).power = s.power := rfl
@[simp] theorem State.modCirque_strip (s : State) (c : Nat) (f : Cirque → Cirque) : (s.modCirque c f).strip = s.strip := rfl
@[simp] theorem State.modCirque_sns (s : State) (c : Nat) (f : Cirque → Cirque) : (s.modCirque c f).sns = s.sns := rfl
@[simp] theorem State.modCirque_boot (s : State) (c : Nat) (f : Cirque → Cirque) : (s.modCirque c f).boot = s.boot := rfl
@[simp] theorem State.modCirque_ctrs (s : State) (c : Nat) (f : Cirque → Cirque) : (s.modCirque c f).ctrs = s.ctrs := rfl
@[simp] theorem State.modCirque_draws (s : State) (c : Nat) (f : Cirque → Cirque) : (s.modCirque c f).draws = s.draws := rfl
@[simp] theorem State.modCirque_out (s : State) (c : Nat) (f : Cirque → Cirque) : (s.modCirque c f).out = s.out := rfl

-- A bank group changed.
@[simp] theorem State.modGroup_pending (s : State) (k : Nat) (f : Group → Group) : (s.modGroup k f).pending = s.pending := rfl
@[simp] theorem State.modGroup_time (s : State) (k : Nat) (f : Group → Group) : (s.modGroup k f).time = s.time := rfl
@[simp] theorem State.modGroup_fab (s : State) (k : Nat) (f : Group → Group) : (s.modGroup k f).fab = s.fab := rfl
@[simp] theorem State.modGroup_ridges (s : State) (k : Nat) (f : Group → Group) : (s.modGroup k f).ridges = s.ridges := rfl
@[simp] theorem State.modGroup_funcs (s : State) (k : Nat) (f : Group → Group) : (s.modGroup k f).funcs = s.funcs := rfl
@[simp] theorem State.modGroup_numVfs (s : State) (k : Nat) (f : Group → Group) : (s.modGroup k f).numVfs = s.numVfs := rfl
@[simp] theorem State.modGroup_vfEnable (s : State) (k : Nat) (f : Group → Group) : (s.modGroup k f).vfEnable = s.vfEnable := rfl
@[simp] theorem State.modGroup_rings (s : State) (k : Nat) (f : Group → Group) : (s.modGroup k f).rings = s.rings := rfl
@[simp] theorem State.modGroup_seqs (s : State) (k : Nat) (f : Group → Group) : (s.modGroup k f).seqs = s.seqs := rfl
@[simp] theorem State.modGroup_gens (s : State) (k : Nat) (f : Group → Group) : (s.modGroup k f).gens = s.gens := rfl
@[simp] theorem State.modGroup_pages (s : State) (k : Nat) (f : Group → Group) : (s.modGroup k f).pages = s.pages := rfl
@[simp] theorem State.modGroup_wgens (s : State) (k : Nat) (f : Group → Group) : (s.modGroup k f).wgens = s.wgens := rfl
@[simp] theorem State.modGroup_frames (s : State) (k : Nat) (f : Group → Group) : (s.modGroup k f).frames = s.frames := rfl
@[simp] theorem State.modGroup_hands (s : State) (k : Nat) (f : Group → Group) : (s.modGroup k f).hands = s.hands := rfl
@[simp] theorem State.modGroup_reqs (s : State) (k : Nat) (f : Group → Group) : (s.modGroup k f).reqs = s.reqs := rfl
@[simp] theorem State.modGroup_nextOrder (s : State) (k : Nat) (f : Group → Group) : (s.modGroup k f).nextOrder = s.nextOrder := rfl
@[simp] theorem State.modGroup_cirques (s : State) (k : Nat) (f : Group → Group) : (s.modGroup k f).cirques = s.cirques := rfl
@[simp] theorem State.modGroup_groups (s : State) (k : Nat) (f : Group → Group) : (s.modGroup k f).groups = s.groups.set k (f (s.group k)) := rfl
@[simp] theorem State.modGroup_banks (s : State) (k : Nat) (f : Group → Group) : (s.modGroup k f).banks = s.banks := rfl
@[simp] theorem State.modGroup_stacks (s : State) (k : Nat) (f : Group → Group) : (s.modGroup k f).dramStacks = s.dramStacks := rfl
@[simp] theorem State.modGroup_cairnCfg (s : State) (k : Nat) (f : Group → Group) : (s.modGroup k f).cairnCfg = s.cairnCfg := rfl
@[simp] theorem State.modGroup_regions (s : State) (k : Nat) (f : Group → Group) : (s.modGroup k f).regions = s.regions := rfl
@[simp] theorem State.modGroup_indexes (s : State) (k : Nat) (f : Group → Group) : (s.modGroup k f).indexes = s.indexes := rfl
@[simp] theorem State.modGroup_indexGens (s : State) (k : Nat) (f : Group → Group) : (s.modGroup k f).indexGens = s.indexGens := rfl
@[simp] theorem State.modGroup_conns (s : State) (k : Nat) (f : Group → Group) : (s.modGroup k f).conns = s.conns := rfl
@[simp] theorem State.modGroup_kldCfg (s : State) (k : Nat) (f : Group → Group) : (s.modGroup k f).kldCfg = s.kldCfg := rfl
@[simp] theorem State.modGroup_kldRidge (s : State) (k : Nat) (f : Group → Group) : (s.modGroup k f).kldRidge = s.kldRidge := rfl
@[simp] theorem State.modGroup_ports (s : State) (k : Nat) (f : Group → Group) : (s.modGroup k f).ports = s.ports := rfl
@[simp] theorem State.modGroup_brks (s : State) (k : Nat) (f : Group → Group) : (s.modGroup k f).brks = s.brks := rfl
@[simp] theorem State.modGroup_classCfg (s : State) (k : Nat) (f : Group → Group) : (s.modGroup k f).classCfg = s.classCfg := rfl
@[simp] theorem State.modGroup_ingress (s : State) (k : Nat) (f : Group → Group) : (s.modGroup k f).ingress = s.ingress := rfl
@[simp] theorem State.modGroup_loupe (s : State) (k : Nat) (f : Group → Group) : (s.modGroup k f).loupe = s.loupe := rfl
@[simp] theorem State.modGroup_health (s : State) (k : Nat) (f : Group → Group) : (s.modGroup k f).health = s.health := rfl
@[simp] theorem State.modGroup_trace (s : State) (k : Nat) (f : Group → Group) : (s.modGroup k f).trace = s.trace := rfl
@[simp] theorem State.modGroup_power (s : State) (k : Nat) (f : Group → Group) : (s.modGroup k f).power = s.power := rfl
@[simp] theorem State.modGroup_strip (s : State) (k : Nat) (f : Group → Group) : (s.modGroup k f).strip = s.strip := rfl
@[simp] theorem State.modGroup_sns (s : State) (k : Nat) (f : Group → Group) : (s.modGroup k f).sns = s.sns := rfl
@[simp] theorem State.modGroup_boot (s : State) (k : Nat) (f : Group → Group) : (s.modGroup k f).boot = s.boot := rfl
@[simp] theorem State.modGroup_ctrs (s : State) (k : Nat) (f : Group → Group) : (s.modGroup k f).ctrs = s.ctrs := rfl
@[simp] theorem State.modGroup_draws (s : State) (k : Nat) (f : Group → Group) : (s.modGroup k f).draws = s.draws := rfl
@[simp] theorem State.modGroup_out (s : State) (k : Nat) (f : Group → Group) : (s.modGroup k f).out = s.out := rfl

-- A bank changed.
@[simp] theorem State.modBank_pending (s : State) (k : Nat) (f : Bank → Bank) : (s.modBank k f).pending = s.pending := rfl
@[simp] theorem State.modBank_time (s : State) (k : Nat) (f : Bank → Bank) : (s.modBank k f).time = s.time := rfl
@[simp] theorem State.modBank_fab (s : State) (k : Nat) (f : Bank → Bank) : (s.modBank k f).fab = s.fab := rfl
@[simp] theorem State.modBank_ridges (s : State) (k : Nat) (f : Bank → Bank) : (s.modBank k f).ridges = s.ridges := rfl
@[simp] theorem State.modBank_funcs (s : State) (k : Nat) (f : Bank → Bank) : (s.modBank k f).funcs = s.funcs := rfl
@[simp] theorem State.modBank_numVfs (s : State) (k : Nat) (f : Bank → Bank) : (s.modBank k f).numVfs = s.numVfs := rfl
@[simp] theorem State.modBank_vfEnable (s : State) (k : Nat) (f : Bank → Bank) : (s.modBank k f).vfEnable = s.vfEnable := rfl
@[simp] theorem State.modBank_rings (s : State) (k : Nat) (f : Bank → Bank) : (s.modBank k f).rings = s.rings := rfl
@[simp] theorem State.modBank_seqs (s : State) (k : Nat) (f : Bank → Bank) : (s.modBank k f).seqs = s.seqs := rfl
@[simp] theorem State.modBank_gens (s : State) (k : Nat) (f : Bank → Bank) : (s.modBank k f).gens = s.gens := rfl
@[simp] theorem State.modBank_pages (s : State) (k : Nat) (f : Bank → Bank) : (s.modBank k f).pages = s.pages := rfl
@[simp] theorem State.modBank_wgens (s : State) (k : Nat) (f : Bank → Bank) : (s.modBank k f).wgens = s.wgens := rfl
@[simp] theorem State.modBank_frames (s : State) (k : Nat) (f : Bank → Bank) : (s.modBank k f).frames = s.frames := rfl
@[simp] theorem State.modBank_hands (s : State) (k : Nat) (f : Bank → Bank) : (s.modBank k f).hands = s.hands := rfl
@[simp] theorem State.modBank_reqs (s : State) (k : Nat) (f : Bank → Bank) : (s.modBank k f).reqs = s.reqs := rfl
@[simp] theorem State.modBank_nextOrder (s : State) (k : Nat) (f : Bank → Bank) : (s.modBank k f).nextOrder = s.nextOrder := rfl
@[simp] theorem State.modBank_cirques (s : State) (k : Nat) (f : Bank → Bank) : (s.modBank k f).cirques = s.cirques := rfl
@[simp] theorem State.modBank_groups (s : State) (k : Nat) (f : Bank → Bank) : (s.modBank k f).groups = s.groups := rfl
@[simp] theorem State.modBank_banks (s : State) (k : Nat) (f : Bank → Bank) : (s.modBank k f).banks = s.banks.set k (f (s.bank k)) := rfl
@[simp] theorem State.modBank_stacks (s : State) (k : Nat) (f : Bank → Bank) : (s.modBank k f).dramStacks = s.dramStacks := rfl
@[simp] theorem State.modBank_cairnCfg (s : State) (k : Nat) (f : Bank → Bank) : (s.modBank k f).cairnCfg = s.cairnCfg := rfl
@[simp] theorem State.modBank_regions (s : State) (k : Nat) (f : Bank → Bank) : (s.modBank k f).regions = s.regions := rfl
@[simp] theorem State.modBank_indexes (s : State) (k : Nat) (f : Bank → Bank) : (s.modBank k f).indexes = s.indexes := rfl
@[simp] theorem State.modBank_indexGens (s : State) (k : Nat) (f : Bank → Bank) : (s.modBank k f).indexGens = s.indexGens := rfl
@[simp] theorem State.modBank_conns (s : State) (k : Nat) (f : Bank → Bank) : (s.modBank k f).conns = s.conns := rfl
@[simp] theorem State.modBank_kldCfg (s : State) (k : Nat) (f : Bank → Bank) : (s.modBank k f).kldCfg = s.kldCfg := rfl
@[simp] theorem State.modBank_kldRidge (s : State) (k : Nat) (f : Bank → Bank) : (s.modBank k f).kldRidge = s.kldRidge := rfl
@[simp] theorem State.modBank_ports (s : State) (k : Nat) (f : Bank → Bank) : (s.modBank k f).ports = s.ports := rfl
@[simp] theorem State.modBank_brks (s : State) (k : Nat) (f : Bank → Bank) : (s.modBank k f).brks = s.brks := rfl
@[simp] theorem State.modBank_classCfg (s : State) (k : Nat) (f : Bank → Bank) : (s.modBank k f).classCfg = s.classCfg := rfl
@[simp] theorem State.modBank_ingress (s : State) (k : Nat) (f : Bank → Bank) : (s.modBank k f).ingress = s.ingress := rfl
@[simp] theorem State.modBank_loupe (s : State) (k : Nat) (f : Bank → Bank) : (s.modBank k f).loupe = s.loupe := rfl
@[simp] theorem State.modBank_health (s : State) (k : Nat) (f : Bank → Bank) : (s.modBank k f).health = s.health := rfl
@[simp] theorem State.modBank_trace (s : State) (k : Nat) (f : Bank → Bank) : (s.modBank k f).trace = s.trace := rfl
@[simp] theorem State.modBank_power (s : State) (k : Nat) (f : Bank → Bank) : (s.modBank k f).power = s.power := rfl
@[simp] theorem State.modBank_strip (s : State) (k : Nat) (f : Bank → Bank) : (s.modBank k f).strip = s.strip := rfl
@[simp] theorem State.modBank_sns (s : State) (k : Nat) (f : Bank → Bank) : (s.modBank k f).sns = s.sns := rfl
@[simp] theorem State.modBank_boot (s : State) (k : Nat) (f : Bank → Bank) : (s.modBank k f).boot = s.boot := rfl
@[simp] theorem State.modBank_ctrs (s : State) (k : Nat) (f : Bank → Bank) : (s.modBank k f).ctrs = s.ctrs := rfl
@[simp] theorem State.modBank_draws (s : State) (k : Nat) (f : Bank → Bank) : (s.modBank k f).draws = s.draws := rfl
@[simp] theorem State.modBank_out (s : State) (k : Nat) (f : Bank → Bank) : (s.modBank k f).out = s.out := rfl

-- A stack changed.
@[simp] theorem State.modStack_pending (s : State) (k : Nat) (f : Stack → Stack) : (s.modStack k f).pending = s.pending := rfl
@[simp] theorem State.modStack_time (s : State) (k : Nat) (f : Stack → Stack) : (s.modStack k f).time = s.time := rfl
@[simp] theorem State.modStack_fab (s : State) (k : Nat) (f : Stack → Stack) : (s.modStack k f).fab = s.fab := rfl
@[simp] theorem State.modStack_ridges (s : State) (k : Nat) (f : Stack → Stack) : (s.modStack k f).ridges = s.ridges := rfl
@[simp] theorem State.modStack_funcs (s : State) (k : Nat) (f : Stack → Stack) : (s.modStack k f).funcs = s.funcs := rfl
@[simp] theorem State.modStack_numVfs (s : State) (k : Nat) (f : Stack → Stack) : (s.modStack k f).numVfs = s.numVfs := rfl
@[simp] theorem State.modStack_vfEnable (s : State) (k : Nat) (f : Stack → Stack) : (s.modStack k f).vfEnable = s.vfEnable := rfl
@[simp] theorem State.modStack_rings (s : State) (k : Nat) (f : Stack → Stack) : (s.modStack k f).rings = s.rings := rfl
@[simp] theorem State.modStack_seqs (s : State) (k : Nat) (f : Stack → Stack) : (s.modStack k f).seqs = s.seqs := rfl
@[simp] theorem State.modStack_gens (s : State) (k : Nat) (f : Stack → Stack) : (s.modStack k f).gens = s.gens := rfl
@[simp] theorem State.modStack_pages (s : State) (k : Nat) (f : Stack → Stack) : (s.modStack k f).pages = s.pages := rfl
@[simp] theorem State.modStack_wgens (s : State) (k : Nat) (f : Stack → Stack) : (s.modStack k f).wgens = s.wgens := rfl
@[simp] theorem State.modStack_frames (s : State) (k : Nat) (f : Stack → Stack) : (s.modStack k f).frames = s.frames := rfl
@[simp] theorem State.modStack_hands (s : State) (k : Nat) (f : Stack → Stack) : (s.modStack k f).hands = s.hands := rfl
@[simp] theorem State.modStack_reqs (s : State) (k : Nat) (f : Stack → Stack) : (s.modStack k f).reqs = s.reqs := rfl
@[simp] theorem State.modStack_nextOrder (s : State) (k : Nat) (f : Stack → Stack) : (s.modStack k f).nextOrder = s.nextOrder := rfl
@[simp] theorem State.modStack_cirques (s : State) (k : Nat) (f : Stack → Stack) : (s.modStack k f).cirques = s.cirques := rfl
@[simp] theorem State.modStack_groups (s : State) (k : Nat) (f : Stack → Stack) : (s.modStack k f).groups = s.groups := rfl
@[simp] theorem State.modStack_banks (s : State) (k : Nat) (f : Stack → Stack) : (s.modStack k f).banks = s.banks := rfl
@[simp] theorem State.modStack_stacks (s : State) (k : Nat) (f : Stack → Stack) : (s.modStack k f).dramStacks = s.dramStacks.set k (f (s.stack k)) := rfl
@[simp] theorem State.modStack_cairnCfg (s : State) (k : Nat) (f : Stack → Stack) : (s.modStack k f).cairnCfg = s.cairnCfg := rfl
@[simp] theorem State.modStack_regions (s : State) (k : Nat) (f : Stack → Stack) : (s.modStack k f).regions = s.regions := rfl
@[simp] theorem State.modStack_indexes (s : State) (k : Nat) (f : Stack → Stack) : (s.modStack k f).indexes = s.indexes := rfl
@[simp] theorem State.modStack_indexGens (s : State) (k : Nat) (f : Stack → Stack) : (s.modStack k f).indexGens = s.indexGens := rfl
@[simp] theorem State.modStack_conns (s : State) (k : Nat) (f : Stack → Stack) : (s.modStack k f).conns = s.conns := rfl
@[simp] theorem State.modStack_kldCfg (s : State) (k : Nat) (f : Stack → Stack) : (s.modStack k f).kldCfg = s.kldCfg := rfl
@[simp] theorem State.modStack_kldRidge (s : State) (k : Nat) (f : Stack → Stack) : (s.modStack k f).kldRidge = s.kldRidge := rfl
@[simp] theorem State.modStack_ports (s : State) (k : Nat) (f : Stack → Stack) : (s.modStack k f).ports = s.ports := rfl
@[simp] theorem State.modStack_brks (s : State) (k : Nat) (f : Stack → Stack) : (s.modStack k f).brks = s.brks := rfl
@[simp] theorem State.modStack_classCfg (s : State) (k : Nat) (f : Stack → Stack) : (s.modStack k f).classCfg = s.classCfg := rfl
@[simp] theorem State.modStack_ingress (s : State) (k : Nat) (f : Stack → Stack) : (s.modStack k f).ingress = s.ingress := rfl
@[simp] theorem State.modStack_loupe (s : State) (k : Nat) (f : Stack → Stack) : (s.modStack k f).loupe = s.loupe := rfl
@[simp] theorem State.modStack_health (s : State) (k : Nat) (f : Stack → Stack) : (s.modStack k f).health = s.health := rfl
@[simp] theorem State.modStack_trace (s : State) (k : Nat) (f : Stack → Stack) : (s.modStack k f).trace = s.trace := rfl
@[simp] theorem State.modStack_power (s : State) (k : Nat) (f : Stack → Stack) : (s.modStack k f).power = s.power := rfl
@[simp] theorem State.modStack_strip (s : State) (k : Nat) (f : Stack → Stack) : (s.modStack k f).strip = s.strip := rfl
@[simp] theorem State.modStack_sns (s : State) (k : Nat) (f : Stack → Stack) : (s.modStack k f).sns = s.sns := rfl
@[simp] theorem State.modStack_boot (s : State) (k : Nat) (f : Stack → Stack) : (s.modStack k f).boot = s.boot := rfl
@[simp] theorem State.modStack_ctrs (s : State) (k : Nat) (f : Stack → Stack) : (s.modStack k f).ctrs = s.ctrs := rfl
@[simp] theorem State.modStack_draws (s : State) (k : Nat) (f : Stack → Stack) : (s.modStack k f).draws = s.draws := rfl
@[simp] theorem State.modStack_out (s : State) (k : Nat) (f : Stack → Stack) : (s.modStack k f).out = s.out := rfl

-- A request changed.
@[simp] theorem State.modReq_pending (s : State) (k : Nat) (f : Request → Request) : (s.modReq k f).pending = s.pending := rfl
@[simp] theorem State.modReq_time (s : State) (k : Nat) (f : Request → Request) : (s.modReq k f).time = s.time := rfl
@[simp] theorem State.modReq_fab (s : State) (k : Nat) (f : Request → Request) : (s.modReq k f).fab = s.fab := rfl
@[simp] theorem State.modReq_ridges (s : State) (k : Nat) (f : Request → Request) : (s.modReq k f).ridges = s.ridges := rfl
@[simp] theorem State.modReq_funcs (s : State) (k : Nat) (f : Request → Request) : (s.modReq k f).funcs = s.funcs := rfl
@[simp] theorem State.modReq_numVfs (s : State) (k : Nat) (f : Request → Request) : (s.modReq k f).numVfs = s.numVfs := rfl
@[simp] theorem State.modReq_vfEnable (s : State) (k : Nat) (f : Request → Request) : (s.modReq k f).vfEnable = s.vfEnable := rfl
@[simp] theorem State.modReq_rings (s : State) (k : Nat) (f : Request → Request) : (s.modReq k f).rings = s.rings := rfl
@[simp] theorem State.modReq_seqs (s : State) (k : Nat) (f : Request → Request) : (s.modReq k f).seqs = s.seqs := rfl
@[simp] theorem State.modReq_gens (s : State) (k : Nat) (f : Request → Request) : (s.modReq k f).gens = s.gens := rfl
@[simp] theorem State.modReq_pages (s : State) (k : Nat) (f : Request → Request) : (s.modReq k f).pages = s.pages := rfl
@[simp] theorem State.modReq_wgens (s : State) (k : Nat) (f : Request → Request) : (s.modReq k f).wgens = s.wgens := rfl
@[simp] theorem State.modReq_frames (s : State) (k : Nat) (f : Request → Request) : (s.modReq k f).frames = s.frames := rfl
@[simp] theorem State.modReq_hands (s : State) (k : Nat) (f : Request → Request) : (s.modReq k f).hands = s.hands := rfl
@[simp] theorem State.modReq_reqs (s : State) (k : Nat) (f : Request → Request) : (s.modReq k f).reqs = s.reqs.adjust k f := rfl
@[simp] theorem State.modReq_nextOrder (s : State) (k : Nat) (f : Request → Request) : (s.modReq k f).nextOrder = s.nextOrder := rfl
@[simp] theorem State.modReq_cirques (s : State) (k : Nat) (f : Request → Request) : (s.modReq k f).cirques = s.cirques := rfl
@[simp] theorem State.modReq_groups (s : State) (k : Nat) (f : Request → Request) : (s.modReq k f).groups = s.groups := rfl
@[simp] theorem State.modReq_banks (s : State) (k : Nat) (f : Request → Request) : (s.modReq k f).banks = s.banks := rfl
@[simp] theorem State.modReq_stacks (s : State) (k : Nat) (f : Request → Request) : (s.modReq k f).dramStacks = s.dramStacks := rfl
@[simp] theorem State.modReq_cairnCfg (s : State) (k : Nat) (f : Request → Request) : (s.modReq k f).cairnCfg = s.cairnCfg := rfl
@[simp] theorem State.modReq_regions (s : State) (k : Nat) (f : Request → Request) : (s.modReq k f).regions = s.regions := rfl
@[simp] theorem State.modReq_indexes (s : State) (k : Nat) (f : Request → Request) : (s.modReq k f).indexes = s.indexes := rfl
@[simp] theorem State.modReq_indexGens (s : State) (k : Nat) (f : Request → Request) : (s.modReq k f).indexGens = s.indexGens := rfl
@[simp] theorem State.modReq_conns (s : State) (k : Nat) (f : Request → Request) : (s.modReq k f).conns = s.conns := rfl
@[simp] theorem State.modReq_kldCfg (s : State) (k : Nat) (f : Request → Request) : (s.modReq k f).kldCfg = s.kldCfg := rfl
@[simp] theorem State.modReq_kldRidge (s : State) (k : Nat) (f : Request → Request) : (s.modReq k f).kldRidge = s.kldRidge := rfl
@[simp] theorem State.modReq_ports (s : State) (k : Nat) (f : Request → Request) : (s.modReq k f).ports = s.ports := rfl
@[simp] theorem State.modReq_brks (s : State) (k : Nat) (f : Request → Request) : (s.modReq k f).brks = s.brks := rfl
@[simp] theorem State.modReq_classCfg (s : State) (k : Nat) (f : Request → Request) : (s.modReq k f).classCfg = s.classCfg := rfl
@[simp] theorem State.modReq_ingress (s : State) (k : Nat) (f : Request → Request) : (s.modReq k f).ingress = s.ingress := rfl
@[simp] theorem State.modReq_loupe (s : State) (k : Nat) (f : Request → Request) : (s.modReq k f).loupe = s.loupe := rfl
@[simp] theorem State.modReq_health (s : State) (k : Nat) (f : Request → Request) : (s.modReq k f).health = s.health := rfl
@[simp] theorem State.modReq_trace (s : State) (k : Nat) (f : Request → Request) : (s.modReq k f).trace = s.trace := rfl
@[simp] theorem State.modReq_power (s : State) (k : Nat) (f : Request → Request) : (s.modReq k f).power = s.power := rfl
@[simp] theorem State.modReq_strip (s : State) (k : Nat) (f : Request → Request) : (s.modReq k f).strip = s.strip := rfl
@[simp] theorem State.modReq_sns (s : State) (k : Nat) (f : Request → Request) : (s.modReq k f).sns = s.sns := rfl
@[simp] theorem State.modReq_boot (s : State) (k : Nat) (f : Request → Request) : (s.modReq k f).boot = s.boot := rfl
@[simp] theorem State.modReq_ctrs (s : State) (k : Nat) (f : Request → Request) : (s.modReq k f).ctrs = s.ctrs := rfl
@[simp] theorem State.modReq_draws (s : State) (k : Nat) (f : Request → Request) : (s.modReq k f).draws = s.draws := rfl
@[simp] theorem State.modReq_out (s : State) (k : Nat) (f : Request → Request) : (s.modReq k f).out = s.out := rfl

-- A page changed.
@[simp] theorem State.modPage_pending (s : State) (k : Nat) (f : Page → Page) : (s.modPage k f).pending = s.pending := rfl
@[simp] theorem State.modPage_time (s : State) (k : Nat) (f : Page → Page) : (s.modPage k f).time = s.time := rfl
@[simp] theorem State.modPage_fab (s : State) (k : Nat) (f : Page → Page) : (s.modPage k f).fab = s.fab := rfl
@[simp] theorem State.modPage_ridges (s : State) (k : Nat) (f : Page → Page) : (s.modPage k f).ridges = s.ridges := rfl
@[simp] theorem State.modPage_funcs (s : State) (k : Nat) (f : Page → Page) : (s.modPage k f).funcs = s.funcs := rfl
@[simp] theorem State.modPage_numVfs (s : State) (k : Nat) (f : Page → Page) : (s.modPage k f).numVfs = s.numVfs := rfl
@[simp] theorem State.modPage_vfEnable (s : State) (k : Nat) (f : Page → Page) : (s.modPage k f).vfEnable = s.vfEnable := rfl
@[simp] theorem State.modPage_rings (s : State) (k : Nat) (f : Page → Page) : (s.modPage k f).rings = s.rings := rfl
@[simp] theorem State.modPage_seqs (s : State) (k : Nat) (f : Page → Page) : (s.modPage k f).seqs = s.seqs := rfl
@[simp] theorem State.modPage_gens (s : State) (k : Nat) (f : Page → Page) : (s.modPage k f).gens = s.gens := rfl
@[simp] theorem State.modPage_pages (s : State) (k : Nat) (f : Page → Page) : (s.modPage k f).pages = s.pages.adjust k f := rfl
@[simp] theorem State.modPage_wgens (s : State) (k : Nat) (f : Page → Page) : (s.modPage k f).wgens = s.wgens := rfl
@[simp] theorem State.modPage_frames (s : State) (k : Nat) (f : Page → Page) : (s.modPage k f).frames = s.frames := rfl
@[simp] theorem State.modPage_hands (s : State) (k : Nat) (f : Page → Page) : (s.modPage k f).hands = s.hands := rfl
@[simp] theorem State.modPage_reqs (s : State) (k : Nat) (f : Page → Page) : (s.modPage k f).reqs = s.reqs := rfl
@[simp] theorem State.modPage_nextOrder (s : State) (k : Nat) (f : Page → Page) : (s.modPage k f).nextOrder = s.nextOrder := rfl
@[simp] theorem State.modPage_cirques (s : State) (k : Nat) (f : Page → Page) : (s.modPage k f).cirques = s.cirques := rfl
@[simp] theorem State.modPage_groups (s : State) (k : Nat) (f : Page → Page) : (s.modPage k f).groups = s.groups := rfl
@[simp] theorem State.modPage_banks (s : State) (k : Nat) (f : Page → Page) : (s.modPage k f).banks = s.banks := rfl
@[simp] theorem State.modPage_stacks (s : State) (k : Nat) (f : Page → Page) : (s.modPage k f).dramStacks = s.dramStacks := rfl
@[simp] theorem State.modPage_cairnCfg (s : State) (k : Nat) (f : Page → Page) : (s.modPage k f).cairnCfg = s.cairnCfg := rfl
@[simp] theorem State.modPage_regions (s : State) (k : Nat) (f : Page → Page) : (s.modPage k f).regions = s.regions := rfl
@[simp] theorem State.modPage_indexes (s : State) (k : Nat) (f : Page → Page) : (s.modPage k f).indexes = s.indexes := rfl
@[simp] theorem State.modPage_indexGens (s : State) (k : Nat) (f : Page → Page) : (s.modPage k f).indexGens = s.indexGens := rfl
@[simp] theorem State.modPage_conns (s : State) (k : Nat) (f : Page → Page) : (s.modPage k f).conns = s.conns := rfl
@[simp] theorem State.modPage_kldCfg (s : State) (k : Nat) (f : Page → Page) : (s.modPage k f).kldCfg = s.kldCfg := rfl
@[simp] theorem State.modPage_kldRidge (s : State) (k : Nat) (f : Page → Page) : (s.modPage k f).kldRidge = s.kldRidge := rfl
@[simp] theorem State.modPage_ports (s : State) (k : Nat) (f : Page → Page) : (s.modPage k f).ports = s.ports := rfl
@[simp] theorem State.modPage_brks (s : State) (k : Nat) (f : Page → Page) : (s.modPage k f).brks = s.brks := rfl
@[simp] theorem State.modPage_classCfg (s : State) (k : Nat) (f : Page → Page) : (s.modPage k f).classCfg = s.classCfg := rfl
@[simp] theorem State.modPage_ingress (s : State) (k : Nat) (f : Page → Page) : (s.modPage k f).ingress = s.ingress := rfl
@[simp] theorem State.modPage_loupe (s : State) (k : Nat) (f : Page → Page) : (s.modPage k f).loupe = s.loupe := rfl
@[simp] theorem State.modPage_health (s : State) (k : Nat) (f : Page → Page) : (s.modPage k f).health = s.health := rfl
@[simp] theorem State.modPage_trace (s : State) (k : Nat) (f : Page → Page) : (s.modPage k f).trace = s.trace := rfl
@[simp] theorem State.modPage_power (s : State) (k : Nat) (f : Page → Page) : (s.modPage k f).power = s.power := rfl
@[simp] theorem State.modPage_strip (s : State) (k : Nat) (f : Page → Page) : (s.modPage k f).strip = s.strip := rfl
@[simp] theorem State.modPage_sns (s : State) (k : Nat) (f : Page → Page) : (s.modPage k f).sns = s.sns := rfl
@[simp] theorem State.modPage_boot (s : State) (k : Nat) (f : Page → Page) : (s.modPage k f).boot = s.boot := rfl
@[simp] theorem State.modPage_ctrs (s : State) (k : Nat) (f : Page → Page) : (s.modPage k f).ctrs = s.ctrs := rfl
@[simp] theorem State.modPage_draws (s : State) (k : Nat) (f : Page → Page) : (s.modPage k f).draws = s.draws := rfl
@[simp] theorem State.modPage_out (s : State) (k : Nat) (f : Page → Page) : (s.modPage k f).out = s.out := rfl

-- A sequence changed.
@[simp] theorem State.modSeq_pending (s : State) (k : Nat) (f : SeqD → SeqD) : (s.modSeq k f).pending = s.pending := rfl
@[simp] theorem State.modSeq_time (s : State) (k : Nat) (f : SeqD → SeqD) : (s.modSeq k f).time = s.time := rfl
@[simp] theorem State.modSeq_fab (s : State) (k : Nat) (f : SeqD → SeqD) : (s.modSeq k f).fab = s.fab := rfl
@[simp] theorem State.modSeq_ridges (s : State) (k : Nat) (f : SeqD → SeqD) : (s.modSeq k f).ridges = s.ridges := rfl
@[simp] theorem State.modSeq_funcs (s : State) (k : Nat) (f : SeqD → SeqD) : (s.modSeq k f).funcs = s.funcs := rfl
@[simp] theorem State.modSeq_numVfs (s : State) (k : Nat) (f : SeqD → SeqD) : (s.modSeq k f).numVfs = s.numVfs := rfl
@[simp] theorem State.modSeq_vfEnable (s : State) (k : Nat) (f : SeqD → SeqD) : (s.modSeq k f).vfEnable = s.vfEnable := rfl
@[simp] theorem State.modSeq_rings (s : State) (k : Nat) (f : SeqD → SeqD) : (s.modSeq k f).rings = s.rings := rfl
@[simp] theorem State.modSeq_seqs (s : State) (k : Nat) (f : SeqD → SeqD) : (s.modSeq k f).seqs = s.seqs.adjust k f := rfl
@[simp] theorem State.modSeq_gens (s : State) (k : Nat) (f : SeqD → SeqD) : (s.modSeq k f).gens = s.gens := rfl
@[simp] theorem State.modSeq_pages (s : State) (k : Nat) (f : SeqD → SeqD) : (s.modSeq k f).pages = s.pages := rfl
@[simp] theorem State.modSeq_wgens (s : State) (k : Nat) (f : SeqD → SeqD) : (s.modSeq k f).wgens = s.wgens := rfl
@[simp] theorem State.modSeq_frames (s : State) (k : Nat) (f : SeqD → SeqD) : (s.modSeq k f).frames = s.frames := rfl
@[simp] theorem State.modSeq_hands (s : State) (k : Nat) (f : SeqD → SeqD) : (s.modSeq k f).hands = s.hands := rfl
@[simp] theorem State.modSeq_reqs (s : State) (k : Nat) (f : SeqD → SeqD) : (s.modSeq k f).reqs = s.reqs := rfl
@[simp] theorem State.modSeq_nextOrder (s : State) (k : Nat) (f : SeqD → SeqD) : (s.modSeq k f).nextOrder = s.nextOrder := rfl
@[simp] theorem State.modSeq_cirques (s : State) (k : Nat) (f : SeqD → SeqD) : (s.modSeq k f).cirques = s.cirques := rfl
@[simp] theorem State.modSeq_groups (s : State) (k : Nat) (f : SeqD → SeqD) : (s.modSeq k f).groups = s.groups := rfl
@[simp] theorem State.modSeq_banks (s : State) (k : Nat) (f : SeqD → SeqD) : (s.modSeq k f).banks = s.banks := rfl
@[simp] theorem State.modSeq_stacks (s : State) (k : Nat) (f : SeqD → SeqD) : (s.modSeq k f).dramStacks = s.dramStacks := rfl
@[simp] theorem State.modSeq_cairnCfg (s : State) (k : Nat) (f : SeqD → SeqD) : (s.modSeq k f).cairnCfg = s.cairnCfg := rfl
@[simp] theorem State.modSeq_regions (s : State) (k : Nat) (f : SeqD → SeqD) : (s.modSeq k f).regions = s.regions := rfl
@[simp] theorem State.modSeq_indexes (s : State) (k : Nat) (f : SeqD → SeqD) : (s.modSeq k f).indexes = s.indexes := rfl
@[simp] theorem State.modSeq_indexGens (s : State) (k : Nat) (f : SeqD → SeqD) : (s.modSeq k f).indexGens = s.indexGens := rfl
@[simp] theorem State.modSeq_conns (s : State) (k : Nat) (f : SeqD → SeqD) : (s.modSeq k f).conns = s.conns := rfl
@[simp] theorem State.modSeq_kldCfg (s : State) (k : Nat) (f : SeqD → SeqD) : (s.modSeq k f).kldCfg = s.kldCfg := rfl
@[simp] theorem State.modSeq_kldRidge (s : State) (k : Nat) (f : SeqD → SeqD) : (s.modSeq k f).kldRidge = s.kldRidge := rfl
@[simp] theorem State.modSeq_ports (s : State) (k : Nat) (f : SeqD → SeqD) : (s.modSeq k f).ports = s.ports := rfl
@[simp] theorem State.modSeq_brks (s : State) (k : Nat) (f : SeqD → SeqD) : (s.modSeq k f).brks = s.brks := rfl
@[simp] theorem State.modSeq_classCfg (s : State) (k : Nat) (f : SeqD → SeqD) : (s.modSeq k f).classCfg = s.classCfg := rfl
@[simp] theorem State.modSeq_ingress (s : State) (k : Nat) (f : SeqD → SeqD) : (s.modSeq k f).ingress = s.ingress := rfl
@[simp] theorem State.modSeq_loupe (s : State) (k : Nat) (f : SeqD → SeqD) : (s.modSeq k f).loupe = s.loupe := rfl
@[simp] theorem State.modSeq_health (s : State) (k : Nat) (f : SeqD → SeqD) : (s.modSeq k f).health = s.health := rfl
@[simp] theorem State.modSeq_trace (s : State) (k : Nat) (f : SeqD → SeqD) : (s.modSeq k f).trace = s.trace := rfl
@[simp] theorem State.modSeq_power (s : State) (k : Nat) (f : SeqD → SeqD) : (s.modSeq k f).power = s.power := rfl
@[simp] theorem State.modSeq_strip (s : State) (k : Nat) (f : SeqD → SeqD) : (s.modSeq k f).strip = s.strip := rfl
@[simp] theorem State.modSeq_sns (s : State) (k : Nat) (f : SeqD → SeqD) : (s.modSeq k f).sns = s.sns := rfl
@[simp] theorem State.modSeq_boot (s : State) (k : Nat) (f : SeqD → SeqD) : (s.modSeq k f).boot = s.boot := rfl
@[simp] theorem State.modSeq_ctrs (s : State) (k : Nat) (f : SeqD → SeqD) : (s.modSeq k f).ctrs = s.ctrs := rfl
@[simp] theorem State.modSeq_draws (s : State) (k : Nat) (f : SeqD → SeqD) : (s.modSeq k f).draws = s.draws := rfl
@[simp] theorem State.modSeq_out (s : State) (k : Nat) (f : SeqD → SeqD) : (s.modSeq k f).out = s.out := rfl

-- A ring changed.
@[simp] theorem State.modRing_pending (s : State) (k : Nat) (f : Ring → Ring) : (s.modRing k f).pending = s.pending := rfl
@[simp] theorem State.modRing_time (s : State) (k : Nat) (f : Ring → Ring) : (s.modRing k f).time = s.time := rfl
@[simp] theorem State.modRing_fab (s : State) (k : Nat) (f : Ring → Ring) : (s.modRing k f).fab = s.fab := rfl
@[simp] theorem State.modRing_ridges (s : State) (k : Nat) (f : Ring → Ring) : (s.modRing k f).ridges = s.ridges := rfl
@[simp] theorem State.modRing_funcs (s : State) (k : Nat) (f : Ring → Ring) : (s.modRing k f).funcs = s.funcs := rfl
@[simp] theorem State.modRing_numVfs (s : State) (k : Nat) (f : Ring → Ring) : (s.modRing k f).numVfs = s.numVfs := rfl
@[simp] theorem State.modRing_vfEnable (s : State) (k : Nat) (f : Ring → Ring) : (s.modRing k f).vfEnable = s.vfEnable := rfl
@[simp] theorem State.modRing_rings (s : State) (k : Nat) (f : Ring → Ring) : (s.modRing k f).rings = s.rings.adjust k f := rfl
@[simp] theorem State.modRing_seqs (s : State) (k : Nat) (f : Ring → Ring) : (s.modRing k f).seqs = s.seqs := rfl
@[simp] theorem State.modRing_gens (s : State) (k : Nat) (f : Ring → Ring) : (s.modRing k f).gens = s.gens := rfl
@[simp] theorem State.modRing_pages (s : State) (k : Nat) (f : Ring → Ring) : (s.modRing k f).pages = s.pages := rfl
@[simp] theorem State.modRing_wgens (s : State) (k : Nat) (f : Ring → Ring) : (s.modRing k f).wgens = s.wgens := rfl
@[simp] theorem State.modRing_frames (s : State) (k : Nat) (f : Ring → Ring) : (s.modRing k f).frames = s.frames := rfl
@[simp] theorem State.modRing_hands (s : State) (k : Nat) (f : Ring → Ring) : (s.modRing k f).hands = s.hands := rfl
@[simp] theorem State.modRing_reqs (s : State) (k : Nat) (f : Ring → Ring) : (s.modRing k f).reqs = s.reqs := rfl
@[simp] theorem State.modRing_nextOrder (s : State) (k : Nat) (f : Ring → Ring) : (s.modRing k f).nextOrder = s.nextOrder := rfl
@[simp] theorem State.modRing_cirques (s : State) (k : Nat) (f : Ring → Ring) : (s.modRing k f).cirques = s.cirques := rfl
@[simp] theorem State.modRing_groups (s : State) (k : Nat) (f : Ring → Ring) : (s.modRing k f).groups = s.groups := rfl
@[simp] theorem State.modRing_banks (s : State) (k : Nat) (f : Ring → Ring) : (s.modRing k f).banks = s.banks := rfl
@[simp] theorem State.modRing_stacks (s : State) (k : Nat) (f : Ring → Ring) : (s.modRing k f).dramStacks = s.dramStacks := rfl
@[simp] theorem State.modRing_cairnCfg (s : State) (k : Nat) (f : Ring → Ring) : (s.modRing k f).cairnCfg = s.cairnCfg := rfl
@[simp] theorem State.modRing_regions (s : State) (k : Nat) (f : Ring → Ring) : (s.modRing k f).regions = s.regions := rfl
@[simp] theorem State.modRing_indexes (s : State) (k : Nat) (f : Ring → Ring) : (s.modRing k f).indexes = s.indexes := rfl
@[simp] theorem State.modRing_indexGens (s : State) (k : Nat) (f : Ring → Ring) : (s.modRing k f).indexGens = s.indexGens := rfl
@[simp] theorem State.modRing_conns (s : State) (k : Nat) (f : Ring → Ring) : (s.modRing k f).conns = s.conns := rfl
@[simp] theorem State.modRing_kldCfg (s : State) (k : Nat) (f : Ring → Ring) : (s.modRing k f).kldCfg = s.kldCfg := rfl
@[simp] theorem State.modRing_kldRidge (s : State) (k : Nat) (f : Ring → Ring) : (s.modRing k f).kldRidge = s.kldRidge := rfl
@[simp] theorem State.modRing_ports (s : State) (k : Nat) (f : Ring → Ring) : (s.modRing k f).ports = s.ports := rfl
@[simp] theorem State.modRing_brks (s : State) (k : Nat) (f : Ring → Ring) : (s.modRing k f).brks = s.brks := rfl
@[simp] theorem State.modRing_classCfg (s : State) (k : Nat) (f : Ring → Ring) : (s.modRing k f).classCfg = s.classCfg := rfl
@[simp] theorem State.modRing_ingress (s : State) (k : Nat) (f : Ring → Ring) : (s.modRing k f).ingress = s.ingress := rfl
@[simp] theorem State.modRing_loupe (s : State) (k : Nat) (f : Ring → Ring) : (s.modRing k f).loupe = s.loupe := rfl
@[simp] theorem State.modRing_health (s : State) (k : Nat) (f : Ring → Ring) : (s.modRing k f).health = s.health := rfl
@[simp] theorem State.modRing_trace (s : State) (k : Nat) (f : Ring → Ring) : (s.modRing k f).trace = s.trace := rfl
@[simp] theorem State.modRing_power (s : State) (k : Nat) (f : Ring → Ring) : (s.modRing k f).power = s.power := rfl
@[simp] theorem State.modRing_strip (s : State) (k : Nat) (f : Ring → Ring) : (s.modRing k f).strip = s.strip := rfl
@[simp] theorem State.modRing_sns (s : State) (k : Nat) (f : Ring → Ring) : (s.modRing k f).sns = s.sns := rfl
@[simp] theorem State.modRing_boot (s : State) (k : Nat) (f : Ring → Ring) : (s.modRing k f).boot = s.boot := rfl
@[simp] theorem State.modRing_ctrs (s : State) (k : Nat) (f : Ring → Ring) : (s.modRing k f).ctrs = s.ctrs := rfl
@[simp] theorem State.modRing_draws (s : State) (k : Nat) (f : Ring → Ring) : (s.modRing k f).draws = s.draws := rfl
@[simp] theorem State.modRing_out (s : State) (k : Nat) (f : Ring → Ring) : (s.modRing k f).out = s.out := rfl

-- A connection changed.
@[simp] theorem State.modConn_pending (s : State) (k : Nat) (f : Conn → Conn) : (s.modConn k f).pending = s.pending := rfl
@[simp] theorem State.modConn_time (s : State) (k : Nat) (f : Conn → Conn) : (s.modConn k f).time = s.time := rfl
@[simp] theorem State.modConn_fab (s : State) (k : Nat) (f : Conn → Conn) : (s.modConn k f).fab = s.fab := rfl
@[simp] theorem State.modConn_ridges (s : State) (k : Nat) (f : Conn → Conn) : (s.modConn k f).ridges = s.ridges := rfl
@[simp] theorem State.modConn_funcs (s : State) (k : Nat) (f : Conn → Conn) : (s.modConn k f).funcs = s.funcs := rfl
@[simp] theorem State.modConn_numVfs (s : State) (k : Nat) (f : Conn → Conn) : (s.modConn k f).numVfs = s.numVfs := rfl
@[simp] theorem State.modConn_vfEnable (s : State) (k : Nat) (f : Conn → Conn) : (s.modConn k f).vfEnable = s.vfEnable := rfl
@[simp] theorem State.modConn_rings (s : State) (k : Nat) (f : Conn → Conn) : (s.modConn k f).rings = s.rings := rfl
@[simp] theorem State.modConn_seqs (s : State) (k : Nat) (f : Conn → Conn) : (s.modConn k f).seqs = s.seqs := rfl
@[simp] theorem State.modConn_gens (s : State) (k : Nat) (f : Conn → Conn) : (s.modConn k f).gens = s.gens := rfl
@[simp] theorem State.modConn_pages (s : State) (k : Nat) (f : Conn → Conn) : (s.modConn k f).pages = s.pages := rfl
@[simp] theorem State.modConn_wgens (s : State) (k : Nat) (f : Conn → Conn) : (s.modConn k f).wgens = s.wgens := rfl
@[simp] theorem State.modConn_frames (s : State) (k : Nat) (f : Conn → Conn) : (s.modConn k f).frames = s.frames := rfl
@[simp] theorem State.modConn_hands (s : State) (k : Nat) (f : Conn → Conn) : (s.modConn k f).hands = s.hands := rfl
@[simp] theorem State.modConn_reqs (s : State) (k : Nat) (f : Conn → Conn) : (s.modConn k f).reqs = s.reqs := rfl
@[simp] theorem State.modConn_nextOrder (s : State) (k : Nat) (f : Conn → Conn) : (s.modConn k f).nextOrder = s.nextOrder := rfl
@[simp] theorem State.modConn_cirques (s : State) (k : Nat) (f : Conn → Conn) : (s.modConn k f).cirques = s.cirques := rfl
@[simp] theorem State.modConn_groups (s : State) (k : Nat) (f : Conn → Conn) : (s.modConn k f).groups = s.groups := rfl
@[simp] theorem State.modConn_banks (s : State) (k : Nat) (f : Conn → Conn) : (s.modConn k f).banks = s.banks := rfl
@[simp] theorem State.modConn_stacks (s : State) (k : Nat) (f : Conn → Conn) : (s.modConn k f).dramStacks = s.dramStacks := rfl
@[simp] theorem State.modConn_cairnCfg (s : State) (k : Nat) (f : Conn → Conn) : (s.modConn k f).cairnCfg = s.cairnCfg := rfl
@[simp] theorem State.modConn_regions (s : State) (k : Nat) (f : Conn → Conn) : (s.modConn k f).regions = s.regions := rfl
@[simp] theorem State.modConn_indexes (s : State) (k : Nat) (f : Conn → Conn) : (s.modConn k f).indexes = s.indexes := rfl
@[simp] theorem State.modConn_indexGens (s : State) (k : Nat) (f : Conn → Conn) : (s.modConn k f).indexGens = s.indexGens := rfl
@[simp] theorem State.modConn_conns (s : State) (k : Nat) (f : Conn → Conn) : (s.modConn k f).conns = s.conns.adjust k f := rfl
@[simp] theorem State.modConn_kldCfg (s : State) (k : Nat) (f : Conn → Conn) : (s.modConn k f).kldCfg = s.kldCfg := rfl
@[simp] theorem State.modConn_kldRidge (s : State) (k : Nat) (f : Conn → Conn) : (s.modConn k f).kldRidge = s.kldRidge := rfl
@[simp] theorem State.modConn_ports (s : State) (k : Nat) (f : Conn → Conn) : (s.modConn k f).ports = s.ports := rfl
@[simp] theorem State.modConn_brks (s : State) (k : Nat) (f : Conn → Conn) : (s.modConn k f).brks = s.brks := rfl
@[simp] theorem State.modConn_classCfg (s : State) (k : Nat) (f : Conn → Conn) : (s.modConn k f).classCfg = s.classCfg := rfl
@[simp] theorem State.modConn_ingress (s : State) (k : Nat) (f : Conn → Conn) : (s.modConn k f).ingress = s.ingress := rfl
@[simp] theorem State.modConn_loupe (s : State) (k : Nat) (f : Conn → Conn) : (s.modConn k f).loupe = s.loupe := rfl
@[simp] theorem State.modConn_health (s : State) (k : Nat) (f : Conn → Conn) : (s.modConn k f).health = s.health := rfl
@[simp] theorem State.modConn_trace (s : State) (k : Nat) (f : Conn → Conn) : (s.modConn k f).trace = s.trace := rfl
@[simp] theorem State.modConn_power (s : State) (k : Nat) (f : Conn → Conn) : (s.modConn k f).power = s.power := rfl
@[simp] theorem State.modConn_strip (s : State) (k : Nat) (f : Conn → Conn) : (s.modConn k f).strip = s.strip := rfl
@[simp] theorem State.modConn_sns (s : State) (k : Nat) (f : Conn → Conn) : (s.modConn k f).sns = s.sns := rfl
@[simp] theorem State.modConn_boot (s : State) (k : Nat) (f : Conn → Conn) : (s.modConn k f).boot = s.boot := rfl
@[simp] theorem State.modConn_ctrs (s : State) (k : Nat) (f : Conn → Conn) : (s.modConn k f).ctrs = s.ctrs := rfl
@[simp] theorem State.modConn_draws (s : State) (k : Nat) (f : Conn → Conn) : (s.modConn k f).draws = s.draws := rfl
@[simp] theorem State.modConn_out (s : State) (k : Nat) (f : Conn → Conn) : (s.modConn k f).out = s.out := rfl

-- An index changed.
@[simp] theorem State.modIndex_pending (s : State) (k : Nat) (f : Index → Index) : (s.modIndex k f).pending = s.pending := rfl
@[simp] theorem State.modIndex_time (s : State) (k : Nat) (f : Index → Index) : (s.modIndex k f).time = s.time := rfl
@[simp] theorem State.modIndex_fab (s : State) (k : Nat) (f : Index → Index) : (s.modIndex k f).fab = s.fab := rfl
@[simp] theorem State.modIndex_ridges (s : State) (k : Nat) (f : Index → Index) : (s.modIndex k f).ridges = s.ridges := rfl
@[simp] theorem State.modIndex_funcs (s : State) (k : Nat) (f : Index → Index) : (s.modIndex k f).funcs = s.funcs := rfl
@[simp] theorem State.modIndex_numVfs (s : State) (k : Nat) (f : Index → Index) : (s.modIndex k f).numVfs = s.numVfs := rfl
@[simp] theorem State.modIndex_vfEnable (s : State) (k : Nat) (f : Index → Index) : (s.modIndex k f).vfEnable = s.vfEnable := rfl
@[simp] theorem State.modIndex_rings (s : State) (k : Nat) (f : Index → Index) : (s.modIndex k f).rings = s.rings := rfl
@[simp] theorem State.modIndex_seqs (s : State) (k : Nat) (f : Index → Index) : (s.modIndex k f).seqs = s.seqs := rfl
@[simp] theorem State.modIndex_gens (s : State) (k : Nat) (f : Index → Index) : (s.modIndex k f).gens = s.gens := rfl
@[simp] theorem State.modIndex_pages (s : State) (k : Nat) (f : Index → Index) : (s.modIndex k f).pages = s.pages := rfl
@[simp] theorem State.modIndex_wgens (s : State) (k : Nat) (f : Index → Index) : (s.modIndex k f).wgens = s.wgens := rfl
@[simp] theorem State.modIndex_frames (s : State) (k : Nat) (f : Index → Index) : (s.modIndex k f).frames = s.frames := rfl
@[simp] theorem State.modIndex_hands (s : State) (k : Nat) (f : Index → Index) : (s.modIndex k f).hands = s.hands := rfl
@[simp] theorem State.modIndex_reqs (s : State) (k : Nat) (f : Index → Index) : (s.modIndex k f).reqs = s.reqs := rfl
@[simp] theorem State.modIndex_nextOrder (s : State) (k : Nat) (f : Index → Index) : (s.modIndex k f).nextOrder = s.nextOrder := rfl
@[simp] theorem State.modIndex_cirques (s : State) (k : Nat) (f : Index → Index) : (s.modIndex k f).cirques = s.cirques := rfl
@[simp] theorem State.modIndex_groups (s : State) (k : Nat) (f : Index → Index) : (s.modIndex k f).groups = s.groups := rfl
@[simp] theorem State.modIndex_banks (s : State) (k : Nat) (f : Index → Index) : (s.modIndex k f).banks = s.banks := rfl
@[simp] theorem State.modIndex_stacks (s : State) (k : Nat) (f : Index → Index) : (s.modIndex k f).dramStacks = s.dramStacks := rfl
@[simp] theorem State.modIndex_cairnCfg (s : State) (k : Nat) (f : Index → Index) : (s.modIndex k f).cairnCfg = s.cairnCfg := rfl
@[simp] theorem State.modIndex_regions (s : State) (k : Nat) (f : Index → Index) : (s.modIndex k f).regions = s.regions := rfl
@[simp] theorem State.modIndex_indexes (s : State) (k : Nat) (f : Index → Index) : (s.modIndex k f).indexes = s.indexes.adjust k f := rfl
@[simp] theorem State.modIndex_indexGens (s : State) (k : Nat) (f : Index → Index) : (s.modIndex k f).indexGens = s.indexGens := rfl
@[simp] theorem State.modIndex_conns (s : State) (k : Nat) (f : Index → Index) : (s.modIndex k f).conns = s.conns := rfl
@[simp] theorem State.modIndex_kldCfg (s : State) (k : Nat) (f : Index → Index) : (s.modIndex k f).kldCfg = s.kldCfg := rfl
@[simp] theorem State.modIndex_kldRidge (s : State) (k : Nat) (f : Index → Index) : (s.modIndex k f).kldRidge = s.kldRidge := rfl
@[simp] theorem State.modIndex_ports (s : State) (k : Nat) (f : Index → Index) : (s.modIndex k f).ports = s.ports := rfl
@[simp] theorem State.modIndex_brks (s : State) (k : Nat) (f : Index → Index) : (s.modIndex k f).brks = s.brks := rfl
@[simp] theorem State.modIndex_classCfg (s : State) (k : Nat) (f : Index → Index) : (s.modIndex k f).classCfg = s.classCfg := rfl
@[simp] theorem State.modIndex_ingress (s : State) (k : Nat) (f : Index → Index) : (s.modIndex k f).ingress = s.ingress := rfl
@[simp] theorem State.modIndex_loupe (s : State) (k : Nat) (f : Index → Index) : (s.modIndex k f).loupe = s.loupe := rfl
@[simp] theorem State.modIndex_health (s : State) (k : Nat) (f : Index → Index) : (s.modIndex k f).health = s.health := rfl
@[simp] theorem State.modIndex_trace (s : State) (k : Nat) (f : Index → Index) : (s.modIndex k f).trace = s.trace := rfl
@[simp] theorem State.modIndex_power (s : State) (k : Nat) (f : Index → Index) : (s.modIndex k f).power = s.power := rfl
@[simp] theorem State.modIndex_strip (s : State) (k : Nat) (f : Index → Index) : (s.modIndex k f).strip = s.strip := rfl
@[simp] theorem State.modIndex_sns (s : State) (k : Nat) (f : Index → Index) : (s.modIndex k f).sns = s.sns := rfl
@[simp] theorem State.modIndex_boot (s : State) (k : Nat) (f : Index → Index) : (s.modIndex k f).boot = s.boot := rfl
@[simp] theorem State.modIndex_ctrs (s : State) (k : Nat) (f : Index → Index) : (s.modIndex k f).ctrs = s.ctrs := rfl
@[simp] theorem State.modIndex_draws (s : State) (k : Nat) (f : Index → Index) : (s.modIndex k f).draws = s.draws := rfl
@[simp] theorem State.modIndex_out (s : State) (k : Nat) (f : Index → Index) : (s.modIndex k f).out = s.out := rfl

-- A region changed.
@[simp] theorem State.modRegion_pending (s : State) (k : Nat) (f : Region → Region) : (s.modRegion k f).pending = s.pending := rfl
@[simp] theorem State.modRegion_time (s : State) (k : Nat) (f : Region → Region) : (s.modRegion k f).time = s.time := rfl
@[simp] theorem State.modRegion_fab (s : State) (k : Nat) (f : Region → Region) : (s.modRegion k f).fab = s.fab := rfl
@[simp] theorem State.modRegion_ridges (s : State) (k : Nat) (f : Region → Region) : (s.modRegion k f).ridges = s.ridges := rfl
@[simp] theorem State.modRegion_funcs (s : State) (k : Nat) (f : Region → Region) : (s.modRegion k f).funcs = s.funcs := rfl
@[simp] theorem State.modRegion_numVfs (s : State) (k : Nat) (f : Region → Region) : (s.modRegion k f).numVfs = s.numVfs := rfl
@[simp] theorem State.modRegion_vfEnable (s : State) (k : Nat) (f : Region → Region) : (s.modRegion k f).vfEnable = s.vfEnable := rfl
@[simp] theorem State.modRegion_rings (s : State) (k : Nat) (f : Region → Region) : (s.modRegion k f).rings = s.rings := rfl
@[simp] theorem State.modRegion_seqs (s : State) (k : Nat) (f : Region → Region) : (s.modRegion k f).seqs = s.seqs := rfl
@[simp] theorem State.modRegion_gens (s : State) (k : Nat) (f : Region → Region) : (s.modRegion k f).gens = s.gens := rfl
@[simp] theorem State.modRegion_pages (s : State) (k : Nat) (f : Region → Region) : (s.modRegion k f).pages = s.pages := rfl
@[simp] theorem State.modRegion_wgens (s : State) (k : Nat) (f : Region → Region) : (s.modRegion k f).wgens = s.wgens := rfl
@[simp] theorem State.modRegion_frames (s : State) (k : Nat) (f : Region → Region) : (s.modRegion k f).frames = s.frames := rfl
@[simp] theorem State.modRegion_hands (s : State) (k : Nat) (f : Region → Region) : (s.modRegion k f).hands = s.hands := rfl
@[simp] theorem State.modRegion_reqs (s : State) (k : Nat) (f : Region → Region) : (s.modRegion k f).reqs = s.reqs := rfl
@[simp] theorem State.modRegion_nextOrder (s : State) (k : Nat) (f : Region → Region) : (s.modRegion k f).nextOrder = s.nextOrder := rfl
@[simp] theorem State.modRegion_cirques (s : State) (k : Nat) (f : Region → Region) : (s.modRegion k f).cirques = s.cirques := rfl
@[simp] theorem State.modRegion_groups (s : State) (k : Nat) (f : Region → Region) : (s.modRegion k f).groups = s.groups := rfl
@[simp] theorem State.modRegion_banks (s : State) (k : Nat) (f : Region → Region) : (s.modRegion k f).banks = s.banks := rfl
@[simp] theorem State.modRegion_stacks (s : State) (k : Nat) (f : Region → Region) : (s.modRegion k f).dramStacks = s.dramStacks := rfl
@[simp] theorem State.modRegion_cairnCfg (s : State) (k : Nat) (f : Region → Region) : (s.modRegion k f).cairnCfg = s.cairnCfg := rfl
@[simp] theorem State.modRegion_regions (s : State) (k : Nat) (f : Region → Region) : (s.modRegion k f).regions = s.regions.adjust k f := rfl
@[simp] theorem State.modRegion_indexes (s : State) (k : Nat) (f : Region → Region) : (s.modRegion k f).indexes = s.indexes := rfl
@[simp] theorem State.modRegion_indexGens (s : State) (k : Nat) (f : Region → Region) : (s.modRegion k f).indexGens = s.indexGens := rfl
@[simp] theorem State.modRegion_conns (s : State) (k : Nat) (f : Region → Region) : (s.modRegion k f).conns = s.conns := rfl
@[simp] theorem State.modRegion_kldCfg (s : State) (k : Nat) (f : Region → Region) : (s.modRegion k f).kldCfg = s.kldCfg := rfl
@[simp] theorem State.modRegion_kldRidge (s : State) (k : Nat) (f : Region → Region) : (s.modRegion k f).kldRidge = s.kldRidge := rfl
@[simp] theorem State.modRegion_ports (s : State) (k : Nat) (f : Region → Region) : (s.modRegion k f).ports = s.ports := rfl
@[simp] theorem State.modRegion_brks (s : State) (k : Nat) (f : Region → Region) : (s.modRegion k f).brks = s.brks := rfl
@[simp] theorem State.modRegion_classCfg (s : State) (k : Nat) (f : Region → Region) : (s.modRegion k f).classCfg = s.classCfg := rfl
@[simp] theorem State.modRegion_ingress (s : State) (k : Nat) (f : Region → Region) : (s.modRegion k f).ingress = s.ingress := rfl
@[simp] theorem State.modRegion_loupe (s : State) (k : Nat) (f : Region → Region) : (s.modRegion k f).loupe = s.loupe := rfl
@[simp] theorem State.modRegion_health (s : State) (k : Nat) (f : Region → Region) : (s.modRegion k f).health = s.health := rfl
@[simp] theorem State.modRegion_trace (s : State) (k : Nat) (f : Region → Region) : (s.modRegion k f).trace = s.trace := rfl
@[simp] theorem State.modRegion_power (s : State) (k : Nat) (f : Region → Region) : (s.modRegion k f).power = s.power := rfl
@[simp] theorem State.modRegion_strip (s : State) (k : Nat) (f : Region → Region) : (s.modRegion k f).strip = s.strip := rfl
@[simp] theorem State.modRegion_sns (s : State) (k : Nat) (f : Region → Region) : (s.modRegion k f).sns = s.sns := rfl
@[simp] theorem State.modRegion_boot (s : State) (k : Nat) (f : Region → Region) : (s.modRegion k f).boot = s.boot := rfl
@[simp] theorem State.modRegion_ctrs (s : State) (k : Nat) (f : Region → Region) : (s.modRegion k f).ctrs = s.ctrs := rfl
@[simp] theorem State.modRegion_draws (s : State) (k : Nat) (f : Region → Region) : (s.modRegion k f).draws = s.draws := rfl
@[simp] theorem State.modRegion_out (s : State) (k : Nat) (f : Region → Region) : (s.modRegion k f).out = s.out := rfl

-- A breakout changed.
@[simp] theorem State.modBrk_pending (s : State) (x : Nat) (f : Breakout → Breakout) : (s.modBrk x f).pending = s.pending := rfl
@[simp] theorem State.modBrk_time (s : State) (x : Nat) (f : Breakout → Breakout) : (s.modBrk x f).time = s.time := rfl
@[simp] theorem State.modBrk_fab (s : State) (x : Nat) (f : Breakout → Breakout) : (s.modBrk x f).fab = s.fab := rfl
@[simp] theorem State.modBrk_ridges (s : State) (x : Nat) (f : Breakout → Breakout) : (s.modBrk x f).ridges = s.ridges := rfl
@[simp] theorem State.modBrk_funcs (s : State) (x : Nat) (f : Breakout → Breakout) : (s.modBrk x f).funcs = s.funcs := rfl
@[simp] theorem State.modBrk_numVfs (s : State) (x : Nat) (f : Breakout → Breakout) : (s.modBrk x f).numVfs = s.numVfs := rfl
@[simp] theorem State.modBrk_vfEnable (s : State) (x : Nat) (f : Breakout → Breakout) : (s.modBrk x f).vfEnable = s.vfEnable := rfl
@[simp] theorem State.modBrk_rings (s : State) (x : Nat) (f : Breakout → Breakout) : (s.modBrk x f).rings = s.rings := rfl
@[simp] theorem State.modBrk_seqs (s : State) (x : Nat) (f : Breakout → Breakout) : (s.modBrk x f).seqs = s.seqs := rfl
@[simp] theorem State.modBrk_gens (s : State) (x : Nat) (f : Breakout → Breakout) : (s.modBrk x f).gens = s.gens := rfl
@[simp] theorem State.modBrk_pages (s : State) (x : Nat) (f : Breakout → Breakout) : (s.modBrk x f).pages = s.pages := rfl
@[simp] theorem State.modBrk_wgens (s : State) (x : Nat) (f : Breakout → Breakout) : (s.modBrk x f).wgens = s.wgens := rfl
@[simp] theorem State.modBrk_frames (s : State) (x : Nat) (f : Breakout → Breakout) : (s.modBrk x f).frames = s.frames := rfl
@[simp] theorem State.modBrk_hands (s : State) (x : Nat) (f : Breakout → Breakout) : (s.modBrk x f).hands = s.hands := rfl
@[simp] theorem State.modBrk_reqs (s : State) (x : Nat) (f : Breakout → Breakout) : (s.modBrk x f).reqs = s.reqs := rfl
@[simp] theorem State.modBrk_nextOrder (s : State) (x : Nat) (f : Breakout → Breakout) : (s.modBrk x f).nextOrder = s.nextOrder := rfl
@[simp] theorem State.modBrk_cirques (s : State) (x : Nat) (f : Breakout → Breakout) : (s.modBrk x f).cirques = s.cirques := rfl
@[simp] theorem State.modBrk_groups (s : State) (x : Nat) (f : Breakout → Breakout) : (s.modBrk x f).groups = s.groups := rfl
@[simp] theorem State.modBrk_banks (s : State) (x : Nat) (f : Breakout → Breakout) : (s.modBrk x f).banks = s.banks := rfl
@[simp] theorem State.modBrk_stacks (s : State) (x : Nat) (f : Breakout → Breakout) : (s.modBrk x f).dramStacks = s.dramStacks := rfl
@[simp] theorem State.modBrk_cairnCfg (s : State) (x : Nat) (f : Breakout → Breakout) : (s.modBrk x f).cairnCfg = s.cairnCfg := rfl
@[simp] theorem State.modBrk_regions (s : State) (x : Nat) (f : Breakout → Breakout) : (s.modBrk x f).regions = s.regions := rfl
@[simp] theorem State.modBrk_indexes (s : State) (x : Nat) (f : Breakout → Breakout) : (s.modBrk x f).indexes = s.indexes := rfl
@[simp] theorem State.modBrk_indexGens (s : State) (x : Nat) (f : Breakout → Breakout) : (s.modBrk x f).indexGens = s.indexGens := rfl
@[simp] theorem State.modBrk_conns (s : State) (x : Nat) (f : Breakout → Breakout) : (s.modBrk x f).conns = s.conns := rfl
@[simp] theorem State.modBrk_kldCfg (s : State) (x : Nat) (f : Breakout → Breakout) : (s.modBrk x f).kldCfg = s.kldCfg := rfl
@[simp] theorem State.modBrk_kldRidge (s : State) (x : Nat) (f : Breakout → Breakout) : (s.modBrk x f).kldRidge = s.kldRidge := rfl
@[simp] theorem State.modBrk_ports (s : State) (x : Nat) (f : Breakout → Breakout) : (s.modBrk x f).ports = s.ports := rfl
@[simp] theorem State.modBrk_brks (s : State) (x : Nat) (f : Breakout → Breakout) : (s.modBrk x f).brks = s.brks.adjust x f := rfl
@[simp] theorem State.modBrk_classCfg (s : State) (x : Nat) (f : Breakout → Breakout) : (s.modBrk x f).classCfg = s.classCfg := rfl
@[simp] theorem State.modBrk_ingress (s : State) (x : Nat) (f : Breakout → Breakout) : (s.modBrk x f).ingress = s.ingress := rfl
@[simp] theorem State.modBrk_loupe (s : State) (x : Nat) (f : Breakout → Breakout) : (s.modBrk x f).loupe = s.loupe := rfl
@[simp] theorem State.modBrk_health (s : State) (x : Nat) (f : Breakout → Breakout) : (s.modBrk x f).health = s.health := rfl
@[simp] theorem State.modBrk_trace (s : State) (x : Nat) (f : Breakout → Breakout) : (s.modBrk x f).trace = s.trace := rfl
@[simp] theorem State.modBrk_power (s : State) (x : Nat) (f : Breakout → Breakout) : (s.modBrk x f).power = s.power := rfl
@[simp] theorem State.modBrk_strip (s : State) (x : Nat) (f : Breakout → Breakout) : (s.modBrk x f).strip = s.strip := rfl
@[simp] theorem State.modBrk_sns (s : State) (x : Nat) (f : Breakout → Breakout) : (s.modBrk x f).sns = s.sns := rfl
@[simp] theorem State.modBrk_boot (s : State) (x : Nat) (f : Breakout → Breakout) : (s.modBrk x f).boot = s.boot := rfl
@[simp] theorem State.modBrk_ctrs (s : State) (x : Nat) (f : Breakout → Breakout) : (s.modBrk x f).ctrs = s.ctrs := rfl
@[simp] theorem State.modBrk_draws (s : State) (x : Nat) (f : Breakout → Breakout) : (s.modBrk x f).draws = s.draws := rfl
@[simp] theorem State.modBrk_out (s : State) (x : Nat) (f : Breakout → Breakout) : (s.modBrk x f).out = s.out := rfl

-- A Loupe bank changed.
@[simp] theorem State.modBankL_pending (s : State) (b : Nat) (f : LBank → LBank) : (s.modBankL b f).pending = s.pending := rfl
@[simp] theorem State.modBankL_time (s : State) (b : Nat) (f : LBank → LBank) : (s.modBankL b f).time = s.time := rfl
@[simp] theorem State.modBankL_fab (s : State) (b : Nat) (f : LBank → LBank) : (s.modBankL b f).fab = s.fab := rfl
@[simp] theorem State.modBankL_ridges (s : State) (b : Nat) (f : LBank → LBank) : (s.modBankL b f).ridges = s.ridges := rfl
@[simp] theorem State.modBankL_funcs (s : State) (b : Nat) (f : LBank → LBank) : (s.modBankL b f).funcs = s.funcs := rfl
@[simp] theorem State.modBankL_numVfs (s : State) (b : Nat) (f : LBank → LBank) : (s.modBankL b f).numVfs = s.numVfs := rfl
@[simp] theorem State.modBankL_vfEnable (s : State) (b : Nat) (f : LBank → LBank) : (s.modBankL b f).vfEnable = s.vfEnable := rfl
@[simp] theorem State.modBankL_rings (s : State) (b : Nat) (f : LBank → LBank) : (s.modBankL b f).rings = s.rings := rfl
@[simp] theorem State.modBankL_seqs (s : State) (b : Nat) (f : LBank → LBank) : (s.modBankL b f).seqs = s.seqs := rfl
@[simp] theorem State.modBankL_gens (s : State) (b : Nat) (f : LBank → LBank) : (s.modBankL b f).gens = s.gens := rfl
@[simp] theorem State.modBankL_pages (s : State) (b : Nat) (f : LBank → LBank) : (s.modBankL b f).pages = s.pages := rfl
@[simp] theorem State.modBankL_wgens (s : State) (b : Nat) (f : LBank → LBank) : (s.modBankL b f).wgens = s.wgens := rfl
@[simp] theorem State.modBankL_frames (s : State) (b : Nat) (f : LBank → LBank) : (s.modBankL b f).frames = s.frames := rfl
@[simp] theorem State.modBankL_hands (s : State) (b : Nat) (f : LBank → LBank) : (s.modBankL b f).hands = s.hands := rfl
@[simp] theorem State.modBankL_reqs (s : State) (b : Nat) (f : LBank → LBank) : (s.modBankL b f).reqs = s.reqs := rfl
@[simp] theorem State.modBankL_nextOrder (s : State) (b : Nat) (f : LBank → LBank) : (s.modBankL b f).nextOrder = s.nextOrder := rfl
@[simp] theorem State.modBankL_cirques (s : State) (b : Nat) (f : LBank → LBank) : (s.modBankL b f).cirques = s.cirques := rfl
@[simp] theorem State.modBankL_groups (s : State) (b : Nat) (f : LBank → LBank) : (s.modBankL b f).groups = s.groups := rfl
@[simp] theorem State.modBankL_banks (s : State) (b : Nat) (f : LBank → LBank) : (s.modBankL b f).banks = s.banks := rfl
@[simp] theorem State.modBankL_stacks (s : State) (b : Nat) (f : LBank → LBank) : (s.modBankL b f).dramStacks = s.dramStacks := rfl
@[simp] theorem State.modBankL_cairnCfg (s : State) (b : Nat) (f : LBank → LBank) : (s.modBankL b f).cairnCfg = s.cairnCfg := rfl
@[simp] theorem State.modBankL_regions (s : State) (b : Nat) (f : LBank → LBank) : (s.modBankL b f).regions = s.regions := rfl
@[simp] theorem State.modBankL_indexes (s : State) (b : Nat) (f : LBank → LBank) : (s.modBankL b f).indexes = s.indexes := rfl
@[simp] theorem State.modBankL_indexGens (s : State) (b : Nat) (f : LBank → LBank) : (s.modBankL b f).indexGens = s.indexGens := rfl
@[simp] theorem State.modBankL_conns (s : State) (b : Nat) (f : LBank → LBank) : (s.modBankL b f).conns = s.conns := rfl
@[simp] theorem State.modBankL_kldCfg (s : State) (b : Nat) (f : LBank → LBank) : (s.modBankL b f).kldCfg = s.kldCfg := rfl
@[simp] theorem State.modBankL_kldRidge (s : State) (b : Nat) (f : LBank → LBank) : (s.modBankL b f).kldRidge = s.kldRidge := rfl
@[simp] theorem State.modBankL_ports (s : State) (b : Nat) (f : LBank → LBank) : (s.modBankL b f).ports = s.ports := rfl
@[simp] theorem State.modBankL_brks (s : State) (b : Nat) (f : LBank → LBank) : (s.modBankL b f).brks = s.brks := rfl
@[simp] theorem State.modBankL_classCfg (s : State) (b : Nat) (f : LBank → LBank) : (s.modBankL b f).classCfg = s.classCfg := rfl
@[simp] theorem State.modBankL_ingress (s : State) (b : Nat) (f : LBank → LBank) : (s.modBankL b f).ingress = s.ingress := rfl
@[simp] theorem State.modBankL_loupe (s : State) (b : Nat) (f : LBank → LBank) : (s.modBankL b f).loupe = { s.loupe with banks := s.loupe.banks.adjust b f } := rfl
@[simp] theorem State.modBankL_health (s : State) (b : Nat) (f : LBank → LBank) : (s.modBankL b f).health = s.health := rfl
@[simp] theorem State.modBankL_trace (s : State) (b : Nat) (f : LBank → LBank) : (s.modBankL b f).trace = s.trace := rfl
@[simp] theorem State.modBankL_power (s : State) (b : Nat) (f : LBank → LBank) : (s.modBankL b f).power = s.power := rfl
@[simp] theorem State.modBankL_strip (s : State) (b : Nat) (f : LBank → LBank) : (s.modBankL b f).strip = s.strip := rfl
@[simp] theorem State.modBankL_sns (s : State) (b : Nat) (f : LBank → LBank) : (s.modBankL b f).sns = s.sns := rfl
@[simp] theorem State.modBankL_boot (s : State) (b : Nat) (f : LBank → LBank) : (s.modBankL b f).boot = s.boot := rfl
@[simp] theorem State.modBankL_ctrs (s : State) (b : Nat) (f : LBank → LBank) : (s.modBankL b f).ctrs = s.ctrs := rfl
@[simp] theorem State.modBankL_draws (s : State) (b : Nat) (f : LBank → LBank) : (s.modBankL b f).draws = s.draws := rfl
@[simp] theorem State.modBankL_out (s : State) (b : Nat) (f : LBank → LBank) : (s.modBankL b f).out = s.out := rfl

end Sys2Proof.Machine
end

