-- ==== Sys2Proof/Laws/Store.lean ====
section
/-! SUPPORT. What a refused command, its taking and the passing of time leave of the node's stored content: all of it. -/

namespace Sys2Proof.Machine

open Sys2Proof

@[simp] theorem foldl_store {α : Type} (l : List α) (f : State → α → State) (h : ∀ s a, (f s a).store = s.store) (s : State) :
    (l.foldl f s).store = s.store := by
  induction l generalizing s with
  | nil => rfl
  | cons a l ih => rw [List.foldl_cons, ih, h]

@[simp] theorem store_mk (a b c d e f g h i j k l m n o p q r t u v w x y z a1 b1 c1 d1 e1 f1 g1 h1 i1 j1 k1 l1 m1 n1 o1 p1) :
    State.store ⟨a,b,c,d,e,f,g,h,i,j,k,l,m,n,o,p,q,r,t,u,v,w,x,y,z,a1,b1,c1,d1,e1,f1,g1,h1,i1,j1,k1,l1,m1,n1,o1,p1⟩ =
      ⟨i,j,k,l,m,n,q,r,t,u,w,x,y⟩ := Eq.trans rfl rfl

@[simp] theorem store_fold (s : State) :
    (⟨s.seqs, s.gens, s.pages, s.wgens, s.frames, s.hands, s.cirques, s.groups, s.banks, s.dramStacks, s.regions, s.indexes,
      s.indexGens⟩ : Store) = s.store := by cases s; rfl

@[simp] theorem ite_store (c : Prop) [Decidable c] (a b : State) : (if c then a else b).store = if c then a.store else b.store := by
  split <;> rfl

@[simp] theorem State.setCtr_store (s : State) (c : Ctr) (v : Nat) :
    (State.setCtr s c v).store = s.store := by
  simp [State.setCtr]

@[simp] theorem State.bumpBy_store (s : State) (c : Ctr) (n : Nat) :
    (State.bumpBy s c n).store = s.store := by
  simp [State.bumpBy]

@[simp] theorem State.bump_store (s : State) (c : Ctr) :
    (State.bump s c).store = s.store := by
  simp [State.bump]

@[simp] theorem State.bumpR_store (s : State) (r i : Nat) :
    (State.bumpR s r i).store = s.store := by
  simp [State.bumpR]

@[simp] theorem State.modFunc_store (s : State) (k : Nat) (f : Func → Func) :
    (State.modFunc s k f).store = s.store := by
  simp [State.modFunc]

@[simp] theorem State.emit_store (s : State) (o : Out) :
    (State.emit s o).store = s.store := by
  simp [State.emit]

@[simp] theorem State.msix_store (s : State) (k vector : Nat) :
    (State.msix s k vector).store = s.store := by
  simp [State.msix]

@[simp] theorem State.raiseCause_store (s : State) (k bit : Nat) :
    (State.raiseCause s k bit).store = s.store := by
  simp [State.raiseCause]

@[simp] theorem State.modRidge_store (s : State) (r : Nat) (f : Ridge → Ridge) :
    (State.modRidge s r f).store = s.store := by
  simp [State.modRidge]

@[simp] theorem State.bumpN_store (s : State) (i : Nat) :
    (State.bumpN s i).store = s.store := by
  simp [State.bumpN]

@[simp] theorem State.event_store (s : State) (c : Option Nat) (ev qty : Nat) :
    (State.event s c ev qty).store = s.store := by
  simp [State.event]

@[simp] theorem State.flmSend_store (s : State) (r : FlmRec) :
    (State.flmSend s r).store = s.store := by
  simp [State.flmSend]

@[simp] theorem State.flmPut_store (s : State) (r : FlmRec) :
    (State.flmPut s r).store = s.store := by
  unfold State.flmPut
  dsimp only
  (repeat' split) <;> simp

@[simp] theorem State.film_store (s : State) (type : Nat) (src : Comp) (ridge : Nat) (body : List Nat) :
    (State.film s type src ridge body).store = s.store := by
  simp [State.film]

@[simp] theorem State.logTo_store (s : State) (r : Nat) (e : ErrRec) :
    (State.logTo s r e).1.store = s.store := by
  unfold State.logTo
  dsimp only
  (repeat' split) <;> simp

@[simp] theorem State.logErr_store (s : State) (e : ErrRec) :
    (State.logErr s e).1.store = s.store := by
  unfold State.logErr
  dsimp only
  (repeat' split) <;> simp

@[simp] theorem State.report_store (s : State) (e : ErrRec) :
    (State.report s e).store = s.store := by
  simp [State.report]

@[simp] theorem State.modConn_store (s : State) (k : Nat) (f : Conn → Conn) :
    (State.modConn s k f).store = s.store := by
  simp [State.modConn]

@[simp] theorem State.enqueue_store (s : State) (x : Nat) (f : TxFrame) :
    (State.enqueue s x f).store = s.store := by
  unfold State.enqueue
  grind [store_mk, store_fold, foldl_store]

@[simp] theorem State.kLaunch_store (s : State) (c : Conn) (port ecn : Nat) (data : List Byte) (f : TxFrame) :
    (State.kLaunch s c port ecn data f).store = s.store := by
  unfold State.kLaunch
  try dsimp only
  (repeat' split) <;> simp []

@[simp] theorem State.kEmit_store (s : State) (n : Nat) (op psn msn offset region addr imm : Nat) (bytes : List Byte) (payload retx ent : Nat) (first last : Bool) :
    (State.kEmit s n op psn msn offset region addr imm bytes payload retx ent first last).store = s.store := by
  unfold State.kEmit
  dsimp only
  (repeat' split) <;> simp

@[simp] theorem State.makeRoom_store (s : State) (r : Nat) :
    (State.makeRoom s r).store = s.store := by
  unfold State.makeRoom
  try dsimp only
  (repeat' split) <;> simp

@[simp] theorem State.fetchFor_store (s : State) (n : Nat) :
    (State.fetchFor s n).store = s.store := by
  unfold State.fetchFor
  try dsimp only
  (repeat' split) <;> simp

@[simp] theorem State.kPump_store (s : State) (n : Nat) (fuel : Nat) :
    (State.kPump s n fuel).store = s.store := by
  induction fuel generalizing s n with
  | zero => simp [State.kPump]
  | succ k ih =>
    unfold State.kPump
    dsimp only
    (repeat' split) <;> simp_all

theorem State.kSend_store (s : State) (n op region addr imm : Nat) (bytes : List Byte) (owner : MsgOwner) :
    ∀ x, (State.kSend s n op region addr imm bytes owner) = some x → x.1.store = s.store := by
  unfold State.kSend
  dsimp only
  (repeat' split) <;> simp

@[simp] theorem State.modRing_store (s : State) (k : Nat) (f : Ring → Ring) :
    (State.modRing s k f).store = s.store := by
  simp [State.modRing]

@[simp] theorem State.ringMsix_store (s : State) (key : Nat) (g : Ring) :
    (State.ringMsix s key g).store = s.store := by
  simp [State.ringMsix]

@[simp] theorem State.ringPost_store (s : State) (key : Nat) (c : Cpl) :
    (State.ringPost s key c).store = s.store := by
  unfold State.ringPost
  dsimp only
  (repeat' split) <;> simp

@[simp] theorem State.unadmit_store (s : State) (n : Nat) :
    (State.unadmit s n).store = s.store := by
  simp [State.unadmit]

@[simp] theorem State.freeSlot_store (s : State) (slot : Option Nat) :
    (State.freeSlot s slot).store = s.store := by
  unfold State.freeSlot
  grind [store_mk, store_fold, foldl_store]

@[simp] theorem State.post_store (s : State) (src : Src) (slot : Option Nat) (c : Cpl) :
    (State.post s src slot c).store = s.store := by
  unfold State.post
  split
  · simp
  · split
    · simp
    · split
      · simp
      · dsimp only
        split
        · simp
        · rename_i h
          have := State.kSend_store _ _ _ _ _ _ _ _ _ h
          simp at this
          simp [this]

@[simp] theorem State.countSC_store (s : State) (r op : Nat) :
    (State.countSC s r op).store = s.store := by
  simp [State.countSC]

@[simp] theorem State.reject_store (s : State) (c : Cmd) (st : Status) (r0 r1 : Nat) :
    (State.reject s c st r0 r1).store = s.store := by
  simp [State.reject]

@[simp] theorem State.noteDrained_store (s : State) (c : Cmd) :
    (State.noteDrained s c).store = s.store := by
  simp [State.noteDrained]

@[simp] theorem State.leaveRing_store (s : State) (c : Conn) :
    (State.leaveRing s c).store = s.store := by
  unfold State.leaveRing
  try dsimp only
  (repeat' split) <;> simp []

@[simp] theorem State.take_store (s : State) (src : Src) (d : Desc) (inl : List Byte) :
    (State.take s src d inl).1.store = s.store := by
  unfold State.take
  dsimp only
  (repeat' split) <;> simp

@[simp] theorem State.maxCtr_store (s : State) (c : Ctr) (v : Nat) :
    (State.maxCtr s c v).store = s.store := by
  simp [State.maxCtr]

@[simp] theorem State.levelEvent_store (s : State) (c : Option Nat) (ev level cycles : Nat) :
    (State.levelEvent s c ev level cycles).store = s.store := by
  unfold State.levelEvent
  grind [State.bumpBy_store, State.maxCtr_store, store_mk, store_fold, foldl_store]

@[simp] theorem State.levels_store (s : State) (cycles : Nat) :
    (State.levels s cycles).store = s.store := by
  simp [State.levels]

@[simp] theorem State.bumpOpen_store (s : State) (c : Ctr) (n : Nat) :
    (State.bumpOpen s c n).store = s.store := by
  unfold State.bumpOpen
  split <;> rfl

@[simp] theorem State.eventOpen_store (s : State) (c : Option Nat) (ev qty : Nat) :
    (State.eventOpen s c ev qty).store = s.store := by
  simp [State.eventOpen]

@[simp] theorem State.flits_store (s : State) (t0 t1 : Nat) :
    (State.flits s t0 t1).store = s.store := by
  have he : ∀ (s : State) (c : Option Nat) (ev n : Nat), (s.eventOpen c ev n).store = s.store := by
    intro s c ev n
    simp [State.eventOpen]
  simp [State.flits, he]

@[simp] theorem State.advance_store (s : State) (t : Nat) :
    (State.advance s t).store = s.store := by
  simp [State.advance]

end Sys2Proof.Machine
end

