-- ==== Sys2Proof/Tests/Slice0.lean ====
section
/-! SUPPORT. Tests: the checks of a well-formed command, one step on small states against the spec's own examples, and for every statement
with hypotheses a state and operands that meet them. -/

set_option Elab.async false

open Sys2Proof Sys2Proof.Machine

namespace Sys2Proof.Tests

-- Operands and states.

/-- A mailbox header of the PF, with its RIDGE TLV. -/
def hdr (ridge : Option Nat) : MbxHdr :=
  { fn := .pf, proto := 1, tag := 7, reserved := 0, status := 0, retryUs := 0, length := 32, ridge := ridge, framed := true,
    complete := true, chunk := none }

def h0 : MbxHdr := hdr none
def h1 : MbxHdr := hdr (some 1)
def h2 : MbxHdr := hdr (some 2)

/-- A description of two nodes in one rack, its exposures 1 ms long from 0 on. -/
def fabric : Fabric :=
  { node := 1, portAddrs := [{ breakout := 0, ipv6 := 1, ipv4 := none }], nextHops := [], kaladPort := 4791, rack := 1, boundary := [],
    map := [{ node := 1, addrs := [1], rack := 1 }, { node := 2, addrs := [2], rack := 1 }], epoch := 5, ptpDomain := 0, ptpPorts := [0],
    pps := .none, t0 := 0, periodUs := 1000, deadlineUs := 500, actTime := 0 }

/-- The FABRIC_SET body that names every field of a description. -/
def fabricMsg (f : Fabric) : FabricMsg :=
  { node := some f.node, portAddrs := some f.portAddrs, nextHops := some f.nextHops, kaladPort := some f.kaladPort, rack := some f.rack,
    boundary := some f.boundary, map := some f.map, epoch := some f.epoch, timeSource := some (f.ptpDomain, f.ptpPorts, f.pps),
    t0 := some f.t0, periodUs := some f.periodUs, deadlineUs := some f.deadlineUs, actTime := some f.actTime }

/-- Parameters of a small ridge. -/
def share (cirque bank : Nat) : RidgeParams :=
  { cirques := [cirque], descAllow := 16, ringShare := 4, slotAllow := 8, connAllow := 8, ctxShare := 8, parkShare := 8,
    ingressShare := 65536, banks := [(bank, 4)], pfDepth := none, scratchEn := some 1 }

/-- A descriptor from its fields: byte offset, lowest bit, value. -/
def desc (fields : List (Nat × Nat × Nat)) : Desc :=
  BitVec.ofNat 1024 (fields.foldl (fun n f => n + f.2.2 <<< (8 * f.1 + f.2.1)) 0)

/-- A command of ridge 1 in map epoch 5, TAG 9, with the EXPOSURE given. -/
def cmdDesc (op exposure : Nat) (fields : List (Nat × Nat × Nat)) : Desc :=
  desc ([(0, 0, op), (0, 8, 1), (0, 16, 9), (4, 0, 5), (8, 0, exposure)] ++ fields)

/-- The untagged mark of R385. -/
def untagged : Nat := 0xFFFFFFFFFFF

/-- One KV head of dimension 16 in BF16, no rotation and no RoPE (R31). -/
def format : Nat := 1 <<< 28

def handle5 : Nat := 262144 + 5

def seq5 : SeqD :=
  { state := .opened, ridge := 1, gen := 1, fmt := Fmt.parse (BitVec.ofNat 192 format),
    layers := [(0, Layer.empty 0)], salt := 3, ringW := 0, sink := 0, start := 0, mirror := none }

def ring0 : Ring := { Ring.fresh .pf (.host 16 4096 8192 1 1 0) with fetched := [1], sqTail := 1 }

def source : Src := .ring 1 0

/-- The command a descriptor of ring 0 of ridge 1 is taken as. -/
def cmd (d : Desc) (inl : List Byte) : Cmd := { src := source, ridge := 1, d := d, inl := inl, sqHead := 1 }

def connParams : ConnParams :=
  { initiate := true, label := 4, peerAddr := 2, peerPort := 4791, breakout := 0, cls := 0, seg := 1024, e := 1, entBase := 2000,
    cwndMax := 4096, tDelayUs := none, cmdRing := none, psk := List.replicate 32 0 }

def conn (st : CState) : Conn := { Conn.declared 1 connParams false 0 77 10 20 0 with state := st, onDie := true, peerConn := 6, peerE := 1 }

/-- A node in service: time LOCKED, a description, a PF session, ridge 1 Open on cirque 0 and Loupe bank 0, and two breakouts. -/
def live : State :=
  let s := State.reset
  let s : State := { s with
    time := { s.time with st := .locked }
    fab := { s.fab with cur := some fabric }
    funcs := s.funcs.adjust 0 (fun f => { f with session := some 1 })
    loupe := { s.loupe with
      privBanks := 1
      banks := (s.loupe.banks.set 0 { owner := 1, width := 2, entries := [], shadow := [] }) } }
  s.modRidge 1 (fun g => { g with state := .opened, p := share 0 0 })

/-- The node with a sequence, a ring that has fetched a command, and a connection in each state. -/
def busy : State :=
  { live with
    seqs := [(5, seq5)]
    rings := [(ringKey 1 0, ring0), (ringKey 1 1, { ring0 with fetched := [], state := .error })]
    conns := [(1, conn .opened), (2, conn .failed), (3, conn .connecting), (4, conn .declared)] }

def draining : State := live.modRidge 1 (fun g => { g with state := .draining })

/-- The node with two idle rings. -/
def idleRings : State :=
  { live with rings := [(ringKey 1 0, { ring0 with fetched := [] }), (ringKey 1 1, { ring0 with fetched := [], state := .error })] }

def region (kind : RegionKind) (h size : Nat) : Region :=
  { ridge := 1, handle := h, kind := kind, size := size, mem := [], rows := [], wgen := 0 }

def indexParams : IndexParams :=
  { metric := 0, dim := 16, efmt := 0, skw := 0, maxNorm := 0, seed := 1, cirques := [0], stripes := 1, sideCap := 4096, mergeAt := some 1 }

def index0 : Index :=
  { p := indexParams, gen := 1, commit := 0, whiteW := 0, whiteT := 0, wgen := 0, parts := [], groups := [], extra := [] }

/-- The node with a composite buffer 9, a scratch region 10, an index 0 and a region 11 that is held. -/
def stores : State :=
  { live with
    regions := [(regionKey 1 9, region (.composite 4 1024 0 none) 9 4096), (regionKey 1 10, region (.scratch 0 [0] false) 10 65536),
                (regionKey 1 11, region (.scratch 0 [1] true) 11 65536)]
    indexes := [(indexKey 1 0, index0)] }

/-- A Loupe entry of a filter table. -/
def body : LoupeBody := { key := 0, mask := 0, result := 1, prio := 65535, crit := false, reserved := 0 }

/-- The node with a filter entry in the ridge's bank and a free place in a privileged one. -/
def filters : State :=
  { live with loupe := { live.loupe with
      banks := (live.loupe.banks.set 0 { owner := 1, width := 2, entries := [(3, loupeEntry body .rfl)], shadow := [] }) } }

def link0 : State := live.modBrk 0 (fun b => { b with link := true, gates := [(0, { run := CycList.openGate, pend := none })] })

def sketches : Pskr := { width := 256, seed := 1, groups := 1, white := 0, wgen := 0, rowGroups := [(0, [0])], rows := [], nextBank := [] }

def stripRun : StripRun :=
  { logic := true, memory := true, analog := true, cirques := [15], banks := [1], breakouts := [4], clocksOk := true, suppliesOk := true }

def lease : Lease :=
  { p := { role := 1, epoch := 1, expires := 0, peer := none, peerRegion := 0, periodUs := some 100, orphanS := some 0 }, region := 12,
    peerRec := none, holding := true, lostAt := 0, reclaimed := false, lastSend := 0 }

def vfOn : State := { live with numVfs := 16, vfEnable := true }

/-- The busy node with regions, an index and cirque 0 in Cairn mode. -/
def full : State :=
  { busy with
    regions := stores.regions
    indexes := stores.indexes
    groups := (List.range 64).map (fun g => (groupKey 0 g, { Group.out with mode := true })) }

/-- The state in which a command of ring 0 is taken. -/
def front (s : State) (d : Desc) (inl : List Byte) : State := (s.take source d inl).1

/-- A state whose ring 0 has fetched a span of two entries: a descriptor and 128 bytes inline. -/
def wide (s : State) : State := { s with rings := s.rings.set (ringKey 1 0) { ring0 with fetched := [2], sqTail := 2 } }

/-- The command taken from such a span. -/
def cmd2 (d : Desc) (inl : List Byte) : Cmd := { cmd d inl with sqHead := 2 }

/-- Bytes of an operand. -/
def zeros (n : Nat) : List Byte := List.replicate n 0#8

/-- A page with nothing in it. -/
def page0 : Page :=
  { ridge := 1, refs := 1, wgen := 0, pstate := .opened, want := none, raw := true, partl := false, grad := false, pageNo := 0, layer := 0,
    tokens := 0, tpp := 256, homeK := 0, salt := 3, firstPos := 0, fmt := BitVec.ofNat 192 format, encBytes := 0, table := [], sketch := [],
    payload := [], bad := [], injected := [] }

def seqPage : SeqD := { seq5 with layers := [(0, { next := 1, pages := [(0, 40)], grads := [], dirty := false })] }

/-- The full node with a page of sequence 5. -/
def paged : State := { full with seqs := [(5, seqPage)], pages := [(40, page0)] }

/-- A base header (R261) of version 1, its FIRST and LAST bits set, of an operation and connection. -/
def khdr (op conn : Nat) : KHdr :=
  BitVec.ofNat 320 ((16 + op) <<< 312 + 0xC0 <<< 304 + 0x0800 <<< 288 + conn <<< 264)

/-- A packet from node 2's address to ridge 1. -/
def pkt (op conn : Nat) : KPkt :=
  { breakout := 0, srcAddr := 2, srcPort := 2000, dscp := 0,
    outer := { fragment := false, options := false, udpSum := 1, udpOk := true }, ecn := 0, hdr := khdr op conn, ext := none, authOk := true,
    wire := [], icrc := crc32c (khdrBytes (khdr op conn)) }

def record : SetupRec :=
  { versions := 2, label := 4, conn := 1, seg := 1024, e := 1, psn := 0, msn := 0, target := none, reason := 0, keyData := [], body := [] }

/-- A declared connection that accepts. -/
def acceptor : Conn := { conn .declared with p := { connParams with initiate := false } }

/-- The busy node with a link, node 2's address in the ridge's CLS6 table and the connection map. -/
def net : State :=
  let s := busy.modBrk 0 (fun b => { b with link := true })
  { s with
    conns := s.conns ++ [(5, acceptor)]
    loupe := { s.loupe with
      banks := s.loupe.banks.set 0 { owner := 1, width := 2, shadow := [], entries :=
        [(0, { valid := true, crit := false, prio := 0, table := .cls6, key := (clsKey 1 2).2, mask := 2 ^ 160 - 1, result := 65536 })] }
      cmap := [(1, { ridge := 1, peer := 0, cls := 0 })] } }

/-- An Open connection with a command ring and the peer's completion target. -/
def peered : Conn := { conn .opened with target := some (0, 0, 8192), p := { connParams with cmdRing := some 0 } }

/-- The net node with that connection, a composite buffer 9 and a query region 20, and their REG entries. -/
def placing : State :=
  let reg (h : Nat) (k : RegionKind) (i : Nat) : LEntry :=
    { valid := true, crit := false, prio := 0, table := .reg, key := regKey 1 h, mask := 2 ^ 160 - 1, result := i + k.flags }
  { net with
    conns := [(1, peered)]
    regions := [(regionKey 1 9, region (.composite 4 1024 0 none) 9 4096), (regionKey 1 20, region .query 20 4096)]
    loupe := { net.loupe with banks := net.loupe.banks.adjust 0 (fun b => { b with
      entries := b.entries ++ [(1, reg 9 (.composite 4 1024 0 none) 0), (2, reg 20 .query 1)] }) } }

/-- A header of PSN 1 and MSN 1 on connection 1, in map epoch 5, of a region and a PLEN. -/
def dataHdr (op region plen imm : Nat) : KHdr :=
  khdr op 1 ||| BitVec.ofNat 320 (1 <<< 232 + 1 <<< 200 + region <<< 64 + 5 <<< 48 + plen <<< 32 + imm)

/-- A packet of that header with a wire payload, its ICRC right. -/
def dataPkt (op region plen imm : Nat) (wire : List Byte) : KPkt :=
  { pkt op 1 with hdr := dataHdr op region plen imm, wire := wire, icrc := crc32c (khdrBytes (dataHdr op region plen imm) ++ wire) }

theorem dataPkt_icrc (op region plen imm : Nat) (wire : List Byte) : (dataPkt op region plen imm wire).icrc =
    crc32c (khdrBytes (dataPkt op region plen imm wire).hdr ++ (dataPkt op region plen imm wire).wire) := rfl

/-- A packet without an extension, its ICRC right, on a connection within the rack. -/
theorem plain_trailer (c : Conn) (p : KPkt) (now : Nat) (he : p.ext = none) (hi : p.icrc = crc32c (khdrBytes p.hdr ++ p.wire))
    (hs : (p.hdr.sec == c.crossRack) = true) (hc : c.crossRack = false) : c.trailerOk p now = true := by
  unfold Conn.trailerOk
  simp_all

def pWrite : KPkt := dataPkt 0 9 128 0 (List.replicate 1024 0#8)
def pWriteImm : KPkt := dataPkt 1 9 128 0 (List.replicate 1024 0#8)
def pReadReq : KPkt := dataPkt 2 9 16 0 (List.replicate 15 0#8 ++ [1#8])
def pReadResp : KPkt := dataPkt 3 20 128 0 (List.replicate 1024 0#8)
def pCommand : KPkt := dataPkt 4 0 128 0 (List.replicate 1024 0#8)
def pAck : KPkt := dataPkt 5 0 0 0 []
def pSack : KPkt := dataPkt 6 0 1 0 [3#8]
def pNack : KPkt := dataPkt 7 0 0 (1 <<< 24) []

/-- A state 4 s later. -/
def late (s : State) : State := { s with time := { s.time with now := 4000000000 } }

/-- The net node, 4 s on, with one connection changed. -/
def withConn1 (c : Conn) : State := late { net with conns := [(1, c)] }

def notice (op : Nat) : RxMsg :=
  { mark := .complete, op := op, placed := 0, total := some 0, region := 0, addr := 0, imm := 0, bytes := [], notified := false, psn := 0,
    ent := 0 }

def txPkt : TxPkt :=
  { psn := 10, msn := 20, op := 0, offset := 0, first := true, last := true, region := 0, addr := 0, imm := 0, bytes := [], sentAt := 0,
    retx := 0, resentAt := 0, tries := 0, retryAt := none }

def noticed (op : Nat) : Conn := { conn .opened with rxMsgs := [(1, notice op)] }
def parkedConn : Conn := { conn .opened with onDie := false, parked := [(0, pkt 0 1)] }
def dueConn : Conn := { conn .opened with rtoAt := some 4000000000, unacked := [txPkt], oldestUnacked := some 0, closingAt := some 4000000000,
                                           oldKeyAt := some 4000000000 }

def master : Announce :=
  { priority1 := 1, clockClass := 6, accuracy := 0, variance := 0, priority2 := 0, gmIdentity := 1, stepsRemoved := 0 }

def timed (st : TState) (pps : PpsRole) : State :=
  late { link0 with
    time := { link0.time with st := st, heard := [(0, master)], master := some (0, master), ppsPhase := true, holdFrom := 0 }
    fab := { link0.fab with cur := some { fabric with pps := pps } } }

/-- The node in A2. -/
def sleeping : State := { link0 with power := { link0.power with state := 2 } }

def moving (x : Transit) (target : Nat) : State :=
  { link0 with power := { link0.power with transit := x, target := target, fromState := 3, wake := some (1, 0, 0, 0) } }

def wakeFrame : WakeFrame :=
  { breakout := 0, dstMac := 0, len := 64, payload := [0xC4#8, 0x1A#8, 0x6E#8, 0x0B#8, 0x12#8, 0x00#8, 1#8, 0#8] }

/-- A request of a command in a phase. -/
def req (d : Desc) (phase : RPhase) : Request := Request.of (cmd d []) phase 0 0 500000

def item : Item := { req := 0, page := 0, head := 0, block := 0, run := 1, avoid := [] }

/-- The paged node with requests and work in cirque 0. -/
def work (reqs : FMap Request) (f : Cirque → Cirque) : State := State.modCirque { paged with reqs := reqs } 0 f

def inCell (c : Cell) : Cirque → Cirque := fun q => { q with cells := [(3, c)] }

def settled : Sensors :=
  { dieMax := 50, stackTemps := [60], substrate := 40, power := 1000, measMv := 750, avsAcks := [true] }

def inputs : ColdInputs :=
  { straps := 0, blobOk := true, macs := [], scratchAllow := true, injectAllow := true, blobBytes := [], limits := none, imageA := none, imageB := none,
    pufOk := true, floorOk := true, ioBistFail := false, aonLost := false }

/-- A command ends in a next state. -/
def goesOn (o : Host.Outcome State Fault Refusal) : Bool :=
  match o with
  | .next _ => true
  | .fault _ => false
  | .refused _ => false

/-- The node a minute after the last advisories. -/
def minute : State := { live with time := { live.time with now := 60000000000 } }

/-- The busy node as a stand-in. -/
def standing : State := busy.modRidge 1 (fun g => { g with standin := true })

def dOpen : Desc := cmdDesc 0x01 untagged [(0x10, 28, 1), (0x28, 8, 1)]
def dSeal : Desc := cmdDesc 0x03 untagged [(0x10, 0, handle5)]
def dFree : Desc := cmdDesc 0x05 untagged [(0x10, 0, handle5)]
def dFork : Desc := cmdDesc 0x04 untagged [(0x10, 0, handle5), (0x18, 0, 0)]
def dAppend : Desc := cmdDesc 0x02 untagged [(0x10, 0, handle5), (0x14, 8, 1)]
def dRead : Desc := cmdDesc 0x08 untagged [(0x10, 0, handle5), (0x4C, 0, 2)]
def dPrefetch : Desc := cmdDesc 0x10 untagged [(0x10, 0, handle5)]
def dDevelop : Desc := cmdDesc 0x20 0 [(0x10, 0, handle5), (0x30, 14, 2), (0x40, 0, 0x3F800000)]
def dReverse : Desc := cmdDesc 0x21 4 [(0x10, 0, handle5), (0x30, 14, 2), (0x40, 0, 0x3F800000)]
def dComposite : Desc := cmdDesc 0x22 0 [(0x10, 0, 9), (0x14, 12, 2)]
def dGradSend : Desc := cmdDesc 0x24 untagged [(0x10, 0, handle5), (0x4C, 0, 2)]
def dGradClear : Desc := cmdDesc 0x25 untagged [(0x10, 0, handle5)]
def dQuery : Desc := cmdDesc 0x28 0 [(0x10, 0, indexHandle 0 1), (0x14, 10, 3), (0x14, 24, 2)]
def dInsert : Desc := cmdDesc 0x29 untagged [(0x10, 0, indexHandle 0 1)]
def dDelete : Desc := cmdDesc 0x2A untagged [(0x10, 0, indexHandle 0 1)]
def dMerge : Desc := cmdDesc 0x2B untagged [(0x10, 0, indexHandle 0 1)]
def dCairn : Desc := cmdDesc 0x30 0 [(0x10, 0, 11), (0x4C, 0, 2)]
def dEnter : Desc := cmdDesc 0x31 untagged [(0x10, 0, 10)]
def dLeave : Desc := cmdDesc 0x31 untagged [(0x10, 0, 11), (0x14, 0, 1)]
def dPlaced : Desc := cmdDesc 0x20 0 [(0x10, 0, handle5), (0x30, 12, 3), (0x30, 14, 2), (0x40, 0, 0x3F800000)]
def dKalad : Desc := cmdDesc 0x20 0 [(0x10, 0, handle5), (0x30, 14, 1), (0x40, 0, 0x3F800000)]
def dIngest : Desc := cmdDesc 0x06 untagged [(0x10, 0, handle5), (0x14, 15, 3)]
def dWrongRidge : Desc := cmdDesc 0x01 untagged [(0, 9, 1), (0x10, 28, 1), (0x28, 8, 1)]
def dLateTag : Desc := cmdDesc 0x20 5 [(0x10, 0, handle5), (0x30, 14, 2), (0x40, 0, 0x3F800000)]
def dOldTag : Desc := cmdDesc 0x20 0 [(0x10, 0, handle5), (0x30, 14, 2), (0x40, 0, 0x3F800000)]
def dStale : Desc := cmdDesc 0x03 untagged [(0x10, 0, 2 * 262144 + 5)]
def dStaleIndex : Desc := cmdDesc 0x2B untagged [(0x10, 0, indexHandle 1 1)]

-- Well-formed commands: one ill-formed term for each check.

theorem test_wf_message : (Instr.idGet 0 h0).wf = true := by decide
theorem test_wf_function : (Instr.idGet 0 { h0 with fn := .vf 17 }).wf = false := by decide
theorem test_wf_version : (Instr.idGet 0 { h0 with proto := 256 }).wf = false := by decide
theorem test_wf_tag : (Instr.idGet 0 { h0 with tag := 65536 }).wf = false := by decide
theorem test_wf_status : (Instr.idGet 0 { h0 with status := 256 }).wf = false := by decide
theorem test_wf_retry : (Instr.idGet 0 { h0 with retryUs := 16777216 }).wf = false := by decide
theorem test_wf_length : (Instr.idGet 0 { h0 with length := 8192 }).wf = false := by decide
theorem test_wf_overrun : (Instr.mboxOverrun 0 (.vf 0)).wf = false := by decide
theorem test_wf_unsupported : (Instr.mboxUnsupportedOpcode 0 h0 0x0001).wf = false := by decide
theorem test_wf_opcode : (Instr.openSeq 0 source dSeal).wf = false ∧ (Instr.openSeq 0 source dOpen).wf = true := by decide +kernel
theorem test_wf_undefined : (Instr.undefinedCommandOpcode 0 source dOpen).wf = false := by decide +kernel
theorem test_wf_enter : (Instr.cairnHoldEnter 0 source dLeave).wf = false ∧ (Instr.cairnHoldLeave 0 source dEnter).wf = false := by
  decide +kernel
theorem test_wf_bar : (Instr.intEnable 0 .bmc 0#32).wf = false := by decide
theorem test_wf_packet : (Instr.write 0 (pkt 1 1)).wf = false ∧ (Instr.write 0 (pkt 0 1)).wf = true := by decide +kernel
theorem test_wf_wire : (Instr.write 0 { pkt 0 1 with wire := List.replicate 8193 0#8 }).wf = false := by
  simp only [Instr.wf, KPkt.wf, List.length_replicate]
  decide +kernel
theorem test_wf_setup : (Instr.connect 0 (pkt 4 1) record).wf = false := by decide +kernel

-- The spec's worked examples.

/-- KV4I keys and values of dimension 160, six heads: 1,080 bytes a token and 58 tokens a page (the Sundew-44 example of 00_scope.md). -/
theorem test_tokens_per_page :
    (Fmt.parse (BitVec.ofNat 192 0x1000950F)).tokenBytes = 1080 ∧ (Fmt.parse (BitVec.ofNat 192 0x1000950F)).tpp = 58 := by decide +kernel

/-- The KV4I block of the example after R36: a scale of 0.427734375, and codes 7, -2, 1 and 2. -/
theorem test_key_block : quantBlock 3 [0x40400000#32, 0xBF880000#32, 0x3F240000#32, 0x3F260000#32] = some ([7, 14, 1, 2], 0x3EDB, false) := by
  decide +kernel

/-- Proof records of 42 and of 7 pairs with d = 160 in BF16: 14,176 and 2,416 bytes (R117's example, and R381's). -/
theorem test_record_bytes : recordBytes false 160 42 = 14176 ∧ recordBytes false 160 7 = 2416 := by decide

/-- A query of 7 pairs with d = 160 is 2,240 bytes (the example of the host ring). -/
theorem test_query_bytes : (desc [(0x14, 16, 6)]).qBytes 160 = 2240 := by decide +kernel

/-- RING_DB of ring 37 of ridge 5 (the example of the register map). -/
theorem test_doorbell_offset : ringOff .pf 5 37 0 = 0x1080250 ∧ ringOff (.vf 5) 5 37 0 = 0x20250 := by decide

/-- An accumulator of 173.2 scores 827, and one of 551.4 scores 449 (the example of stack 14). -/
theorem test_scores :
    ({ comp := .stack 14, acc := 1732 * 2 ^ 32 / 10, level := .normal, changedAt := 0, worseAt := 0 } : Health).score = 827 ∧
    ({ comp := .stack 14, acc := 5514 * 2 ^ 32 / 10, level := .watch, changedAt := 0, worseAt := 0 } : Health).score = 449 := by
  decide +kernel

/-- An AND of one row over rows 0, 1 and 2 costs three row operations (the example of R202). -/
theorem test_cairn_cost : (desc [(0x14, 9, 3), (0x18, 16, 1), (0x1C, 0, 2), (0x24, 14, 0x7F)]).crnDesc.cost = 3 := by decide +kernel

/-- Ties go to the even neighbour (R25). -/
theorem test_ties_to_even : rneDiv 5 2 = 2 ∧ rneDiv 7 2 = 4 ∧ rneDiv 8 3 = 3 := by decide

/-- The check value of CRC-32C over the digits 1 to 9 (R259 names the code). -/
theorem test_crc32c : crc32c [0x31#8, 0x32#8, 0x33#8, 0x34#8, 0x35#8, 0x36#8, 0x37#8, 0x38#8, 0x39#8] = 0xE3069283#32 := by decide +kernel

-- One step.

/-- A message before HELLO is answered NO_HELLO, and HELLO opens a session of version 1 (R376, R379, R510). -/
theorem test_no_hello : ((after (exec (.idGet 0 h0) State.reset) State.reset).func 0).resp.map (·.status) = some .noHello := by decide +kernel
theorem test_hello : ((after (exec (.hello 0 { h0 with proto := 0 } 2) State.reset) State.reset).func 0).session = some 1 := by decide +kernel

/-- The first OPEN of a descriptor gives it generation 1, and its handle is generation and index (R52, R54). -/
theorem test_open_handle : (after (exec (.openSeq 0 source dOpen) busy) busy).handleAt 0 = 262144 := by decide +kernel

/-- A tag five exposures ahead completes with STATE_CONFLICT, and admits nothing (R143). -/
theorem test_late_tag : (after (exec (.develop 0 source dLateTag []) busy) busy).reqs = [] := by decide +kernel

/-- A DEVELOP that passes its checks takes request slot 0, with the deadline of exposure 0 (R92, R142). -/
theorem test_develop_admitted :
    ((after (exec (.develop 0 source dDevelop (zeros 32)) (wide paged)) paged).reqs.get? 0).map (·.deadline) = some 500000 := by decide +kernel

/-- A doorbell at ENTRIES puts the ring in Error and raises RING_ERROR (R382, R403). -/
theorem test_doorbell_error :
    ((after (exec (.ringDb 0 .pf 1 0 16) idleRings) idleRings).rings.get? (ringKey 1 0)).map (·.state) = some .error := by decide +kernel

/-- An excursion of 20 µs passes and one of 21 µs resets (R503). -/
theorem test_supply :
    (after (exec (.supplyExcursion 0 3 20 inputs) live) live).sns.brownout = false ∧
    (after (exec (.supplyExcursion 0 3 21 inputs) live) live).sns.supply = 3 := by decide +kernel

/-- A gate list is taken over at its instant (R312). -/
theorem test_takeover : (Sched.takeover { run := CycList.openGate, pend := some ([(255, 100)], 5) } 5).run.base = 5 := by decide

/-- Cold reset leaves KLD_CFG at 0x0474_0110 and HLT_CFG at its defaults (R292, R452). -/
theorem test_reset_registers :
    State.reset.kldCfg = 0x04740110#32 ∧ State.reset.health.cfg.watchTh = 800 ∧ State.reset.health.cfg.halfLife = 60 := by decide +kernel

/-- The package has 3,145 VSS balls, 1,852 supply balls and 187 signal balls (R499). -/
theorem test_balls :
    let all := (List.range 72).flatMap (fun y => (List.range 72).map (fun x => ballAt (x + 1) (y + 1)))
    (all.filter (fun b => b == .vss)).length = 3145 ∧
    (all.filter (fun b => Supply.all.any (fun s => b == .supply s))).length = 1852 := by decide +kernel

/-- The balls of the spec's example: PETP of logical lane 11 under STRAP2 is 21-CP, 27-AD is VSS and 28-AD is VDD_SRAM (R497 to R499). -/
theorem test_ball_names :
    rowNo ['C', 'P'] = 71 ∧ ballAt 21 71 = .signal (.pcieTx (strapLane 4#8 11) false) ∧
    rowNo ['A', 'D'] = 23 ∧ ballAt 27 23 = .vss ∧ ballAt 28 23 = .supply .sram := by decide +kernel

-- Witnesses: hypotheses of the statements, met together.

/-- A queue with a command at its front. -/
theorem witness_front_command :
    ({ live with pending := [.pcieReplay 0, .idGet 0 h0] } : State).pending = .pcieReplay 0 :: [.idGet 0 h0] := by
  decide +kernel

/-- An empty queue. -/
theorem witness_empty_queue :
    live.pending = [] := by
  decide +kernel

/-- A node in service takes each message of the session and of the description. -/
theorem witness_sessions_and_fabric :
    (live.msgRuns 0 h0 0x0001 .any = true ∧ (2 : Nat).testBit 1 = true) ∧
    (live.msgRuns 0 h0 0x0002 .any = true) ∧
    (live.msgRuns 0 h0 0x0003 .any = true ∧ (live.atMsg 0 h0 0x0003).boot.identity = true) ∧
    (live.msgRuns 0 h0 0x0004 .any = true ∧ selOk h0.fn 31 = none ∧ ((live.atMsg 0 h0 0x0004).ridge 31).resetAt = none ∧
     (live.atMsg 0 h0 0x0004).boot.identity = true) ∧
    (live.msgRuns 0 h0 0x0010 .ridge0 = true ∧ (fabricMsg { fabric with epoch := 6 }).desc = some { fabric with epoch := 6 } ∧
     ({ fabric with epoch := 6 } : Fabric).validFor (live.atMsg 0 h0 0x0010).fab.cur (live.atMsg 0 h0 0x0010).now = true ∧
     fabric.actTime = 0) ∧
    (live.msgRuns 0 h0 0x0010 .ridge0 = true ∧
     (fabricMsg { fabric with epoch := 6, actTime := 1000000 }).desc = some { fabric with epoch := 6, actTime := 1000000 } ∧
     ({ fabric with epoch := 6, actTime := 1000000 } : Fabric).validFor (live.atMsg 0 h0 0x0010).fab.cur (live.atMsg 0 h0 0x0010).now = true) ∧
    (live.msgRuns 0 h0 0x0011 .ridge0 = true) ∧
    (live.msgRuns 0 h0 0x0067 .ridge0 = true ∧ 100 ≤ 10000000) := by
  and_intros <;> decide +kernel

/-- Ridge 2 is Absent and its resources are free; ridge 1 is Open, and Draining in another state. -/
theorem witness_ridge_messages :
    (live.msgOn 0 h2 0x0018 .ridge0 2 = true ∧ (share 1 1).rangesOk = true ∧ ((live.atMsg 0 h2 0x0018).ridge 2).state = .absent ∧
     (live.atMsg 0 h2 0x0018).boot.scratchAllow = true ∧ (live.atMsg 0 h2 0x0018).roomFor (share 1 1) = true) ∧
    (live.msgOn 0 h1 0x0019 .ridge0 1 = true ∧ ((live.atMsg 0 h1 0x0019).ridge 1).state = .opened ∧
     (live.atMsg 0 h1 0x0019).boot.scratchAllow = true ∧ (live.atMsg 0 h1 0x0019).holdsScratch 1 = false) ∧
    (live.msgOn 0 h1 0x001A .ridge0 1 = true ∧ ((live.atMsg 0 h1 0x001A).ridge 1).state = .opened) ∧
    (draining.msgOn 0 h1 0x001B .ridge0 1 = true ∧ ((draining.atMsg 0 h1 0x001B).ridge 1).state = .draining ∧
     ((draining.atMsg 0 h1 0x001B).ridge 1).refused = false) ∧
    (draining.msgOn 0 h1 0x001C .ridge0 1 = true ∧ ((draining.atMsg 0 h1 0x001C).ridge 1).state = .draining ∧
     live.msgOn 0 h1 0x001C .ridge0 1 = true ∧ ((live.atMsg 0 h1 0x001C).ridge 1).state = .opened) ∧
    (live.msgRuns 0 h1 0x001D .any = true ∧ h1.target = some 1) := by
  and_intros <;> decide +kernel

/-- Ridge 1 has an idle ring, one in Error, and room for another. -/
theorem witness_ring_messages :
    (idleRings.msgOn 0 h1 0x0020 .any 1 = true ∧ ((idleRings.atMsg 0 h1 0x0020).ridge 1).state = .opened ∧
     (idleRings.atMsg 0 h1 0x0020).ringOk 1 .pf (.host 4096 4096 8192 1 255 255) = true ∧
     (idleRings.atMsg 0 h1 0x0020).ringOk 1 .pf (.node 1 0) = true ∧ (idleRings.atMsg 0 h1 0x0020).sliceOk (.node 4096 0) = true ∧
     (idleRings.atMsg 0 h1 0x0020).freeRing 1 0 4 = some 2) ∧
    (idleRings.msgOn 0 h1 0x0021 .any 1 = true ∧
     (idleRings.atMsg 0 h1 0x0021).rings.get? (ringKey 1 0) = some { ring0 with fetched := [] } ∧
     (idleRings.atMsg 0 h1 0x0021).ringBusy 1 0 { ring0 with fetched := [] } = false ∧
     (idleRings.atMsg 0 h1 0x0021).conns.any (fun e => e.2.ridge == 1 && e.2.p.cmdRing == some 0) = false) ∧
    (idleRings.msgOn 0 h1 0x0022 .any 1 = true ∧
     (idleRings.atMsg 0 h1 0x0022).ringBusy 1 1 { ring0 with fetched := [], state := .error } = false ∧
     (idleRings.atMsg 0 h1 0x0022).rings.get? (ringKey 1 1) = some { ring0 with fetched := [], state := .error }) ∧
    (idleRings.msgOn 0 h1 0x0023 .any 1 = true ∧
     (idleRings.atMsg 0 h1 0x0023).rings.get? (ringKey 1 0) = some { ring0 with fetched := [] }) := by
  and_intros <;> decide +kernel

/-- Ridge 1 declares a connection, and has one Open, one Failed and one declared. -/
theorem witness_connection_messages :
    (busy.msgOn 0 h1 0x0028 .any 1 = true ∧ ((busy.atMsg 0 h1 0x0028).ridge 1).state = .opened ∧
     (busy.atMsg 0 h1 0x0028).connParamsOk 1 connParams = true ∧
     (busy.atMsg 0 h1 0x0028).connCount 1 < ((busy.atMsg 0 h1 0x0028).ridge 1).p.connAllow ∧
     (busy.atMsg 0 h1 0x0028).boot.trngBad = false ∧ (busy.atMsg 0 h1 0x0028).conns.fresh 1 131072 = some 5 ∧
     ((busy.atMsg 0 h1 0x0028).peerFor 1 2).isSome = true ∧
     (((busy.atMsg 0 h1 0x0028).peerFor 1 2).bind (fun x => x.1.newRegion 1 (.completion (lowestOf ((busy.atMsg 0 h1 0x0028).ridge 1).p.cirques)) 8192)).isSome = true) ∧
    (busy.msgOn 0 h1 0x0029 .any 1 = true ∧ (busy.atMsg 0 h1 0x0029).conns.get? 2 = some (conn .failed) ∧ (conn .failed).ridge = 1 ∧
     (conn .failed).crossRack = false) ∧
    (busy.msgOn 0 h1 0x002A .any 1 = true ∧ (busy.atMsg 0 h1 0x002A).conns.get? 1 = some (conn .opened) ∧
     (conn .opened).closingAt = none) ∧
    (busy.msgOn 0 h1 0x002B .any 1 = true ∧ (busy.atMsg 0 h1 0x002B).conns.get? 4 = some (conn .declared)) := by
  and_intros <;> decide +kernel

/-- A slot for a program, room for regions, and a composite buffer and a scratch region that nothing uses. -/
theorem witness_buffer_messages :
    (live.msgOn 0 h1 0x0030 .any 1 = true ∧ 15 ≤ 15 ∧ mprogOk [0#32] [] = true ∧ (live.atMsg 0 h1 0x0030).ridgeUp 1 = true) ∧
    (live.msgOn 0 h1 0x0031 .any 1 = true ∧ (live.atMsg 0 h1 0x0031).ridgeUp 1 = true) ∧
    (live.msgOn 0 h1 0x0034 .any 1 = true ∧ 1048576 % 1024 = 0 ∧ 1 * 1048576 ≤ 1048576 ∧
     ((live.atMsg 0 h1 0x0034).ridge 1).p.cirques.contains 0 = true ∧ ((live.atMsg 0 h1 0x0034).ridge 1).state = .opened ∧
     (live.atMsg 0 h1 0x0034).cbufBytes 0 + 1 * 1048576 ≤ 1048576 ∧ (live.atMsg 0 h1 0x0034).cbufCount 1 < 64 ∧
     ((live.atMsg 0 h1 0x0034).newRegion 1 (.composite 1 1048576 0 none) 1048576).isSome = true) ∧
    (stores.msgOn 0 h1 0x0035 .any 1 = true ∧ (stores.atMsg 0 h1 0x0035).isCbuf 1 9 = true ∧
     ((stores.atMsg 0 h1 0x0035).freeBuf 1 9).isSome = true) ∧
    (live.msgOn 0 h1 0x0038 .any 1 = true ∧ ((live.atMsg 0 h1 0x0038).ridge 1).p.cirques.contains 0 = true ∧
     ((live.atMsg 0 h1 0x0038).ridge 1).p.scratch ≠ 0 ∧ ((live.atMsg 0 h1 0x0038).ridge 1).state = .opened ∧
     (live.atMsg 0 h1 0x0038).findGroups 0 2 = some [0, 1] ∧
     ((live.atMsg 0 h1 0x0038).newRegion 1 (.scratch 0 [0, 1] false) (2 * 256 * rowBytes)).isSome = true) ∧
    (stores.msgOn 0 h1 0x0039 .any 1 = true ∧ (stores.atMsg 0 h1 0x0039).scratchOf 1 10 = some (0, 1, false) ∧
     (stores.atMsg 0 h1 0x0039).reqs = []) := by
  and_intros <;> decide +kernel

/-- An index of one stripe fits, index 0 is idle, and the ridge has no sequence. -/
theorem witness_index_messages :
    (live.msgOn 0 h1 0x003C .any 1 = true ∧ indexParams.ok = true ∧
     indexParams.cirques.all (fun c => ((live.atMsg 0 h1 0x003C).ridge 1).p.cirques.contains c) = true ∧
     ((live.atMsg 0 h1 0x003C).ridge 1).state = .opened ∧ (live.atMsg 0 h1 0x003C).health.drain = false ∧
     (List.range 16).find? (fun x => ((live.atMsg 0 h1 0x003C).indexes.get? (indexKey 1 x)).isNone) = some 0 ∧
     (live.atMsg 0 h1 0x003C).boot.trngBad = false) ∧
    (stores.msgOn 0 h1 0x003D .any 1 = true ∧ (stores.atMsg 0 h1 0x003D).indexOf 1 (indexHandle 0 1) = some index0 ∧
     (stores.atMsg 0 h1 0x003D).indexBusy 1 (indexHandle 0 1) = false) ∧
    (live.msgOn 0 h1 0x003E .any 1 = true ∧ ((live.atMsg 0 h1 0x003E).ridge 1).state = .opened ∧
     ((live.atMsg 0 h1 0x003E).ridge 1).pskr = none ∧ (live.atMsg 0 h1 0x003E).seqCount 1 = 0 ∧
     ((live.atMsg 0 h1 0x003E).reserveGroups 1 ((live.atMsg 0 h1 0x003E).ridge 1).p.cirques).isSome = true ∧
     (live.atMsg 0 h1 0x003E).boot.trngBad = false) ∧
    ((live.modRidge 1 (fun g => { g with pskr := some sketches })).msgOn 0 h1 0x003F .any 1 = true ∧
     (((live.modRidge 1 (fun g => { g with pskr := some sketches })).atMsg 0 h1 0x003F).ridge 1).pskr.isSome = true ∧
     ((live.modRidge 1 (fun g => { g with pskr := some sketches })).atMsg 0 h1 0x003F).seqCount 1 = 0) := by
  and_intros <;> decide +kernel

/-- Each filter table has a free place, and the ridge a filter entry at index 3 of bank 0. -/
theorem witness_loupe_messages :
    (live.msgOn 0 h1 0x0040 .any 1 = true ∧ loupeOk body .rfl = true ∧ (live.atMsg 0 h1 0x0040).lFree 1 .rfl = some (0, 0)) ∧
    (live.msgRuns 0 h0 0x0040 .ridge0 = true ∧ loupeOk body .ofl = true ∧ (live.atMsg 0 h0 0x0040).lFree 0 .ofl = some (15, 0)) ∧
    (filters.msgOn 0 h1 0x0040 .any 1 = true ∧ (filters.atMsg 0 h1 0x0040).lNamed 1 .rfl 3 = some (0, 3) ∧ loupeOk body .rfl = true) := by
  and_intros <;> decide +kernel

/-- The port has no connection, time may step, and the lists and shapers are valid. -/
theorem witness_port_and_time_messages :
    (live.msgRuns 0 h0 0x0048 .ridge0 = true ∧ [7].length = 2 ^ 0 ∧ [7].all (fun a => decide (a < 2 ^ 48)) = true ∧
     (live.atMsg 0 h0 0x0048).conns.any (fun e => e.2.p.breakout / 4 == 1) = false ∧ 9000 ≤ 9000 ∧ 1500 ≤ 9000) ∧
    (({ live with time := { live.time with st := .acquiring } } : State).msgRuns 0 h0 0x0049 .ridge0 = true ∧
     (({ live with time := { live.time with st := .acquiring } } : State).atMsg 0 h0 0x0049).time.st = .acquiring) ∧
    (({ State.reset with time := live.time, funcs := live.funcs } : State).msgRuns 0 h0 0x0049 .ridge0 = true ∧
     (({ State.reset with time := live.time, funcs := live.funcs } : State).atMsg 0 h0 0x0049).time.st ≠ .unset ∧
     (({ State.reset with time := live.time, funcs := live.funcs } : State).atMsg 0 h0 0x0049).tenantExists = false) ∧
    (live.msgRuns 0 h1 0x004A .any = true ∧ h1.target = some 1 ∧ (live.atMsg 0 h1 0x004A).brkExists 0 = true ∧
     1 ≤ 800000 ∧ 800000 ≤ (live.atMsg 0 h1 0x004A).rateOf 0 * 1000 ∧
     ((((live.atMsg 0 h1 0x004A).ports.get? (0 / 4)).getD { mode := 0, mtu := 9000 }).mtu + 22) * 8 ≤ 2 ^ 24 ∧
     ((live.atMsg 0 h1 0x004A).brk 0).slopes 1 (classKey 1 7) + 800000 ≤ (live.atMsg 0 h1 0x004A).rateOf 0 * 1000) ∧
    (live.msgRuns 0 h1 0x004B .any = true ∧ (live.atMsg 0 h1 0x004B).brkExists 0 = true ∧ gateOk [(255, 100)] = true ∧
     (live.atMsg 0 h1 0x004B).takeoverOk (((live.atMsg 0 h1 0x004B).brk 0).gate 1).run 1000000 = true) ∧
    (live.msgRuns 0 h0 0x004C .ridge0 = true ∧ (live.atMsg 0 h0 0x004C).brkExists 0 = true ∧ shutterOk [(0, 10000)] = true ∧
     (live.atMsg 0 h0 0x004C).takeoverOk ((live.atMsg 0 h0 0x004C).brk 0).shutter.run 1000000 = true) ∧
    (live.msgRuns 0 h1 0x004D .any = true ∧ (live.atMsg 0 h1 0x004D).brkExists 0 = true) := by
  and_intros <;> decide +kernel

/-- An image that passes, a staged one, a floor at the running version, and an owner record of this node. -/
theorem witness_firmware_messages :
    (live.msgRuns 0 h0 0x0050 .ridge0 = true ∧ (live.atMsg 0 h0 0x0050).boot.activation = none ∧ (live.atMsg 0 h0 0x0050).boot.blobOk = true ∧
     ({ svn := 0, bytes := [], vendorEd := true, vendorMl := true, ownerEd := false, ownerMl := false } : FwImage).passes (live.atMsg 0 h0 0x0050).boot.owner (live.atMsg 0 h0 0x0050).boot.bootFloor = true) ∧
    (({ live with boot := { live.boot with staged := some { svn := 1, meas := 0 } } } : State).msgRuns 0 h0 0x0051 .ridge0 = true ∧
     (({ live with boot := { live.boot with staged := some { svn := 1, meas := 0 } } } : State).atMsg 0 h0 0x0051).now ≤ 1 ∧
     (({ live with boot := { live.boot with staged := some { svn := 1, meas := 0 } } } : State).atMsg 0 h0 0x0051).trace.armed = none ∧
     (({ live with boot := { live.boot with staged := some { svn := 1, meas := 0 } } } : State).atMsg 0 h0 0x0051).trace.held = false ∧
     (({ live with boot := { live.boot with staged := some { svn := 1, meas := 0 } } } : State).atMsg 0 h0 0x0051).boot.activation = none ∧
     (({ live with boot := { live.boot with staged := some { svn := 1, meas := 0 } } } : State).atMsg 0 h0 0x0051).boot.staged.isSome = true) ∧
    (live.msgRuns 0 h0 0x0052 .ridge0 = true ∧ (live.atMsg 0 h0 0x0052).boot.floorBad = false ∧
     (live.atMsg 0 h0 0x0052).boot.floor ≤ 0 ∧ 0 ≤ (live.atMsg 0 h0 0x0052).boot.svn) ∧
    (live.msgRuns 0 h0 0x0053 .ridge0 = true ∧ (live.atMsg 0 h0 0x0053).boot.owner = none ∧
     (live.atMsg 0 h0 0x0053).boot.ownerNext = none) := by
  and_intros <;> decide +kernel

/-- An idle node in A0 and in A1, an Open ridge, a cirque not being zeroed and a target nothing uses. -/
theorem witness_power_and_reset_messages :
    (({ live with power := { live.power with state := 1 } } : State).msgRuns 0 h0 0x0058 .ridge0 = true ∧
     (({ live with power := { live.power with state := 1 } } : State).atMsg 0 h0 0x0058).power.state ≠ 0 ∧
     (({ live with power := { live.power with state := 1 } } : State).atMsg 0 h0 0x0058).boot.activation = none ∧
     (({ live with power := { live.power with state := 1 } } : State).atMsg 0 h0 0x0058).strip.state ≠ 1 ∧
     (({ live with power := { live.power with state := 1 } } : State).atMsg 0 h0 0x0058).trace.armed = none ∧
     (({ live with power := { live.power with state := 1 } } : State).atMsg 0 h0 0x0058).trace.held = false ∧
     (({ live with power := { live.power with state := 1 } } : State).atMsg 0 h0 0x0058).working = false ∧
     (({ live with power := { live.power with state := 1 } } : State).atMsg 0 h0 0x0058).ridges.any (fun e => e.2.state == .opening || e.2.state == .closing) = false ∧
     (({ live with power := { live.power with state := 1 } } : State).atMsg 0 h0 0x0058).power.state = 1) ∧
    (live.msgRuns 0 h0 0x0058 .ridge0 = true ∧ (live.atMsg 0 h0 0x0058).power.state ≠ 1 ∧
     (live.atMsg 0 h0 0x0058).boot.activation = none ∧ (live.atMsg 0 h0 0x0058).strip.state ≠ 1 ∧
     (live.atMsg 0 h0 0x0058).trace.armed = none ∧ (live.atMsg 0 h0 0x0058).trace.held = false ∧
     (live.atMsg 0 h0 0x0058).working = false ∧
     (live.atMsg 0 h0 0x0058).ridges.any (fun e => e.2.state == .opening || e.2.state == .closing) = false) ∧
    (live.msgRuns 0 h0 0x0058 .ridge0 = true ∧ (live.atMsg 0 h0 0x0058).power.state ≠ 3 ∧
     (live.atMsg 0 h0 0x0058).boot.activation = none ∧ (live.atMsg 0 h0 0x0058).strip.state ≠ 1 ∧
     (live.atMsg 0 h0 0x0058).trace.armed = none ∧ (live.atMsg 0 h0 0x0058).trace.held = false ∧
     (live.atMsg 0 h0 0x0058).working = false ∧
     (live.atMsg 0 h0 0x0058).ridges.any (fun e => e.2.state == .opening || e.2.state == .closing) = false) ∧
    (live.msgRuns 0 h0 0x0059 .ridge0 = true) ∧
    (live.msgOn 0 h1 0x005A .ridge0 1 = true ∧ (live.atMsg 0 h1 0x005A).ridgeUp 1 = true ∧
     ((live.atMsg 0 h1 0x005A).ridge 1).resetAt = none) ∧
    (live.msgRuns 0 h0 0x005B .ridge0 = true ∧ (live.atMsg 0 h0 0x005B).zeroing 15 = false) ∧
    (live.msgRuns 0 h0 0x005C .ridge0 = true ∧ stripRun.cirques.all (fun c => decide (c < 16)) = true ∧
     stripRun.banks.all (fun c => decide (c < 16)) = true ∧ stripRun.breakouts.all (fun c => decide (c < 8)) = true ∧
     (live.atMsg 0 h0 0x005C).strip.state ≠ 1 ∧ (live.atMsg 0 h0 0x005C).stripReady stripRun = true ∧
     stripRun.clocksOk = true ∧ stripRun.suppliesOk = true) := by
  and_intros <;> decide +kernel

/-- The senders may read the logs, an injection is allowed, and ridge 1 may take a mirror and a lease. -/
theorem witness_health_and_belay_messages :
    (live.msgRuns 0 h0 0x0060 .any = true ∧ logRights h0.fn (.ridge 16) = none) ∧
    (live.msgRuns 0 h0 0x0060 .any = true ∧ logRights h0.fn .waitFor = none) ∧
    (live.msgRuns 0 h0 0x0061 .any = true ∧ h0.target.getD 0 ≤ 16) ∧
    (live.msgOn 0 h1 0x0062 .ridge0 1 = true ∧ 1024 ≤ 1024) ∧
    (live.msgRuns 0 h0 0x0062 .ridge0 = true ∧ 15 < 16 ∧ 74 < 75) ∧
    (live.msgRuns 0 h0 0x0063 .ridge0 = true ∧ (live.atMsg 0 h0 0x0063).boot.injectAllow = true ∧
     (InjTarget.checkLocal true 15 74 0).ok = true ∧ (live.atMsg 0 h0 0x0063).injTargetOk (.checkLocal true 15 74 0) = true ∧
     (live.atMsg 0 h0 0x0063).now < 1 ∧ (live.atMsg 0 h0 0x0063).health.injs.length < 16) ∧
    (({ live with health := { live.health with check2 := [(4, 5, 8)] } } : State).msgRuns 0 h0 0x0063 .ridge0 = true ∧
     (({ live with health := { live.health with check2 := [(4, 5, 8)] } } : State).atMsg 0 h0 0x0063).boot.injectAllow = true ∧
     (({ live with health := { live.health with check2 := [(4, 5, 8)] } } : State).atMsg 0 h0 0x0063).health.check2.any (fun e => e.1 == 4) = true) ∧
    (live.msgRuns 0 h0 0x0064 .ridge0 = true ∧ (live.atMsg 0 h0 0x0064).health.drain ≠ true) ∧
    (busy.msgOn 0 h1 0x0064 .ridge0 1 = true ∧ (busy.atMsg 0 h1 0x0064).conns.get? 1 = some (conn .opened) ∧ (conn .opened).ridge = 1 ∧
     (conn .opened).state = .opened) ∧
    (live.msgOn 0 h1 0x0064 .ridge0 1 = true ∧ (live.atMsg 0 h1 0x0064).ridgeUp 1 = true) ∧
    (live.msgOn 0 h1 0x0064 .ridge0 1 = true ∧ ((live.atMsg 0 h1 0x0064).ridge 1).state = .opened ∧
     ((live.atMsg 0 h1 0x0064).ridge 1).lease = none ∧ (live.atMsg 0 h1 0x0064).leaseOk 1 lease.p = true ∧
     ((live.atMsg 0 h1 0x0064).newRegion 1 .lease 64).isSome = true) ∧
    ((live.modRidge 1 (fun g => { g with lease := some lease })).msgOn 0 h1 0x0064 .ridge0 1 = true ∧
     (((live.modRidge 1 (fun g => { g with lease := some lease })).atMsg 0 h1 0x0064).ridge 1).lease = some lease ∧
     ((live.modRidge 1 (fun g => { g with lease := some lease })).atMsg 0 h1 0x0064).leaseOk 1 lease.p = true) ∧
    (live.msgOn 0 h1 0x0065 .ridge0 1 = true) ∧
    (live.msgOn 0 h1 0x0066 .any 1 = true) := by
  and_intros <;> decide +kernel

/-- A node that may stop, one that holds a cut, a mailbox in service, and a fetched command of no defined opcode. -/
theorem witness_trace_and_stray_messages :
    (live.msgRuns 0 h0 0x0068 .ridge0 = true ∧ (live.atMsg 0 h0 0x0068).now + 1000000 ≤ 1000000 ∧ 1000000 ≤ ctrMax ∧
     (live.atMsg 0 h0 0x0068).time.st ≠ .unset ∧ (live.atMsg 0 h0 0x0068).time.st ≠ .acquiring ∧
     (live.atMsg 0 h0 0x0068).power.state < 2 ∧ (live.atMsg 0 h0 0x0068).power.transit = .none ∧
     (live.atMsg 0 h0 0x0068).boot.activation = none ∧ (live.atMsg 0 h0 0x0068).trace.held = false) ∧
    (live.msgRuns 0 h0 0x0068 .ridge0 = true) ∧
    (({ live with trace := { live.trace with held := true } } : State).msgRuns 0 h0 0x0068 .ridge0 = true ∧
     (({ live with trace := { live.trace with held := true } } : State).atMsg 0 h0 0x0068).trace.held = true) ∧
    (live.msgRuns 0 h1 0x0069 .ridge0 = true ∧ h1.target = some 1) ∧
    (live.msgRuns 0 h0 0x006A .ridge0 = true ∧
     [({ cirque := some 15, counter := 63, event := 0x16, mode := .count } : EvSel)].all EvSel.ok = true) ∧
    (live.msgRuns 0 h0 0x006A .ridge0 = true ∧ (10 : Nat) ≤ 16) ∧
    (live.msgRuns 0 h0 0x006A .ridge0 = true ∧ (live.atMsg 0 h0 0x006A).trace.held = false ∧
     (live.atMsg 0 h0 0x006A).trace.mode ≠ .stream ∧ 0 + 2 ^ 64 ≤ 2 ^ 64) ∧
    (((live.modFunc 0 (fun f => { f with busy := some (2, 7) })).advance 0).asleep = false ∧
     ((live.modFunc 0 (fun f => { f with busy := some (2, 7) })).advance 0).dead = false ∧
     ((live.modFunc 0 (fun f => { f with busy := some (2, 7) })).advance 0).fnServing .pf = true ∧
     (((live.modFunc 0 (fun f => { f with busy := some (2, 7) })).advance 0).func Fn.pf.key).busy.isSome = true) ∧
    ((live.advance 0).dead = false ∧ (live.advance 0).asleep = false ∧ (live.advance 0).fnServing h0.fn = true ∧
     ((live.advance 0).func h0.fn.key).ready = true ∧ (live.advance 0).boot.recovery = false ∧
     ((live.advance 0).func h0.fn.key).busy = none ∧ h0.framing = true ∧ (live.serving 0 h0 0x7777).switching = false ∧
     (live.advance 0).power.warmAt = none ∧ ((live.serving 0 h0 0x7777).func h0.fn.key).session = some 1 ∧ h0.proto = 1 ∧
     (live.serving 0 h0 0x7777).power.warmAt = none) ∧
    ((busy.advance 0).frozen = false ∧
     (busy.advance 0).take source (cmdDesc 0x7F untagged []) [] = (front busy (cmdDesc 0x7F untagged []) [], some (cmd (cmdDesc 0x7F untagged []) [])) ∧
     firstFail ((front busy (cmdDesc 0x7F untagged []) []).conditions (cmd (cmdDesc 0x7F untagged []) [])) = none) := by
  and_intros <;> decide +kernel

/-- The windows of the PF and of a VF of an Open ridge are served, and a register of each width is there. -/
theorem witness_bar_accesses :
    (live.barRuns 0 .pf = true ∧ vfOn.barRuns 0 (.vf 1) = true) ∧
    ((live.advance 0).asleep = false ∧ (live.advance 0).dead = false ∧ ((live.advance 0).event none 0x0E 1).asleep = false ∧
     ((live.advance 0).event none 0x0E 1).fnServing .pf = true) := by
  and_intros <;> decide +kernel

/-- Commands that ring 0 of ridge 1 has fetched: an OPEN, and each command of the Open sequence 5. -/
theorem witness_sequence_commands :
    ((busy.advance 0).frozen = false ∧ (busy.advance 0).take source dOpen [] = (front busy dOpen [], some (cmd dOpen [])) ∧
     (front busy dOpen []).preCheck (cmd dOpen []) openLayout = none ∧ (front busy dOpen []).health.drain = false ∧
     (front busy dOpen []).seqFree 1 = true ∧ openShape dOpen = true ∧ (front busy dOpen []).tagParams dOpen false = true) ∧
    ((busy.advance 0).frozen = false ∧ (busy.advance 0).take source dSeal [] = (front busy dSeal [], some (cmd dSeal [])) ∧
     (front busy dSeal []).preCheck (cmd dSeal []) handleLayout = none ∧ (front busy dSeal []).handleOk 1 dSeal.handle = true ∧
     (front busy dSeal []).seqIn 1 dSeal.handle [.opened] = true ∧ (front busy dSeal []).tagParams dSeal false = true ∧
     (front busy dSeal []).seqs.get? (handleIdx dSeal.handle) = some seq5) ∧
    ((busy.advance 0).frozen = false ∧ (busy.advance 0).take source dFree [] = (front busy dFree [], some (cmd dFree [])) ∧
     (front busy dFree []).preCheck (cmd dFree []) handleLayout = none ∧ (front busy dFree []).handleOk 1 dFree.handle = true ∧
     (front busy dFree []).seqIn 1 dFree.handle [.opened, .sealed] = true ∧ (front busy dFree []).tagParams dFree false = true) ∧
    ((busy.advance 0).frozen = false ∧ (busy.advance 0).take source dFork [] = (front busy dFork [], some (cmd dFork [])) ∧
     (front busy dFork []).preCheck (cmd dFork []) forkLayout = none ∧ (front busy dFork []).seqOf 1 dFork.handle = some seq5 ∧
     (front busy dFork []).health.drain = false ∧ seq5.state = .opened ∧ seq5.start ≤ dFork.forkPos ∧ dFork.forkPos ≤ seq5.lowestNext ∧
     (front busy dFork []).seqFree 1 = true ∧ (front busy dFork []).forkLimit seq5 dFork.forkPos = false ∧
     (front busy dFork []).tagParams dFork false = true) ∧
    (((wide busy).advance 0).frozen = false ∧
     ((wide busy).advance 0).take source dAppend (inlineOf dAppend (some (zeros 64))) = (front (wide busy) dAppend (inlineOf dAppend (some (zeros 64))), some (cmd2 dAppend (inlineOf dAppend (some (zeros 64))))) ∧
     (front (wide busy) dAppend (inlineOf dAppend (some (zeros 64)))).preCheck (cmd2 dAppend (inlineOf dAppend (some (zeros 64)))) appendLayout = none ∧
     firstFail (appendChecks (front (wide busy) dAppend (inlineOf dAppend (some (zeros 64)))) (cmd2 dAppend (inlineOf dAppend (some (zeros 64))))) = none ∧
     (front (wide busy) dAppend (inlineOf dAppend (some (zeros 64)))).seqOf 1 dAppend.handle = some seq5 ∧
     (front (wide busy) dAppend (inlineOf dAppend (some (zeros 64)))).source (cmd2 dAppend (inlineOf dAppend (some (zeros 64)))) (dAppend.count * seq5.fmt.rowBytes) (some (zeros 64)) = ((front (wide busy) dAppend (inlineOf dAppend (some (zeros 64)))), some (zeros 64))) ∧
    ((paged.advance 0).frozen = false ∧ (paged.advance 0).take source dRead [] = (front paged dRead [], some (cmd dRead [])) ∧
     (front paged dRead []).preCheck (cmd dRead []) readLayout = none ∧ (front paged dRead []).seqOf 1 dRead.handle = some seqPage ∧
     seqPage.state = .opened ∧ seqPage.hasLayer dRead.layer = true ∧ State.readSlots seqPage dRead = some [40] ∧
     (front paged dRead []).tagParams dRead false = true ∧ (front paged dRead []).outParams (cmd dRead []) = true ∧
     ((((front paged dRead []).admitReq (cmd dRead []) .engine id).1.countReads [40]).readImages [40]).isOk = true) ∧
    ((paged.advance 0).frozen = false ∧
     (paged.advance 0).take source dPrefetch [] = (front paged dPrefetch [], some (cmd dPrefetch [])) ∧
     (front paged dPrefetch []).preCheck (cmd dPrefetch []) prefetchLayout = none ∧
     firstFail (prefetchChecks (front paged dPrefetch []) (cmd dPrefetch [])) = none ∧
     (front paged dPrefetch []).seqOf 1 dPrefetch.handle = some seqPage) := by
  and_intros <;> decide +kernel

/-- A DEVELOP and a REVERSE of one pair, a COMPOSITE of a free buffer and the gradient commands. -/
theorem witness_proof_commands :
    (((wide paged).advance 0).frozen = false ∧
     ((wide paged).advance 0).take source dDevelop (zeros 32) = (front (wide paged) dDevelop (zeros 32), some (cmd2 dDevelop (zeros 32))) ∧
     (front (wide paged) dDevelop (zeros 32)).preCheck (cmd2 dDevelop (zeros 32)) developLayout = none ∧
     firstFail (attendChecks (front (wide paged) dDevelop (zeros 32)) (cmd2 dDevelop (zeros 32))) = none ∧
     (front (wide paged) dDevelop (zeros 32)).seqOf 1 dDevelop.handle = some seqPage) ∧
    (((wide paged).advance 0).frozen = false ∧
     ((wide paged).advance 0).take source dReverse (zeros 72) = (front (wide paged) dReverse (zeros 72), some (cmd2 dReverse (zeros 72))) ∧
     (front (wide paged) dReverse (zeros 72)).preCheck (cmd2 dReverse (zeros 72)) developLayout = none ∧
     firstFail (attendChecks (front (wide paged) dReverse (zeros 72)) (cmd2 dReverse (zeros 72))) = none ∧
     (front (wide paged) dReverse (zeros 72)).seqOf 1 dReverse.handle = some seqPage ∧ dReverse.lateDiscard = false ∧
     (((front (wide paged) dReverse (zeros 72)).admitReq (cmd2 dReverse (zeros 72)) .waiting ((front (wide paged) dReverse (zeros 72)).fixAttend (cmd2 dReverse (zeros 72)) seqPage)).1.allocGrads (handleIdx dReverse.handle) dReverse.layer (seqPage.gradsNeeded dReverse)).isOk = true) ∧
    ((full.advance 0).frozen = false ∧
     (full.advance 0).take source dComposite [] = (front full dComposite [], some (cmd dComposite [])) ∧
     (front full dComposite []).preCheck (cmd dComposite []) compositeLayout = none ∧
     firstFail (compositeChecks (front full dComposite []) (cmd dComposite [])) = none) ∧
    ((full.advance 0).frozen = false ∧ (full.advance 0).take source dGradSend [] = (front full dGradSend [], some (cmd dGradSend [])) ∧
     (front full dGradSend []).preCheck (cmd dGradSend []) gradSendLayout = none ∧
     firstFail ((gradChecks true) (front full dGradSend []) (cmd dGradSend [])) = none ∧
     (front full dGradSend []).seqOf 1 dGradSend.handle = some seq5 ∧
     (((front full dGradSend []).admitReq (cmd dGradSend []) .engine id).1.gradRecords seq5 dGradSend.layer dGradSend.rangeLo (dGradSend.rangeHi + 1 - dGradSend.rangeLo)).isOk = true) ∧
    ((full.advance 0).frozen = false ∧
     (full.advance 0).take source dGradClear [] = (front full dGradClear [], some (cmd dGradClear [])) ∧
     (front full dGradClear []).preCheck (cmd dGradClear []) gradClearLayout = none ∧
     firstFail ((gradChecks false) (front full dGradClear []) (cmd dGradClear [])) = none ∧
     (front full dGradClear []).seqOf 1 dGradClear.handle = some seq5) := by
  and_intros <;> decide +kernel

/-- Each command of index 0, and a CAIRN and the two CAIRN_HOLDs of the scratch regions. -/
theorem witness_index_and_cairn_commands :
    (((wide full).advance 0).frozen = false ∧
     ((wide full).advance 0).take source dQuery (zeros 32) = (front (wide full) dQuery (zeros 32), some (cmd2 dQuery (zeros 32))) ∧
     (front (wide full) dQuery (zeros 32)).preCheck (cmd2 dQuery (zeros 32)) queryLayout = none ∧
     firstFail (queryChecks (front (wide full) dQuery (zeros 32)) (cmd2 dQuery (zeros 32))) = none ∧
     (front (wide full) dQuery (zeros 32)).indexOf 1 dQuery.index = some index0) ∧
    (((wide full).advance 0).frozen = false ∧
     ((wide full).advance 0).take source dInsert (inlineOf dInsert (some (zeros 48))) = (front (wide full) dInsert (inlineOf dInsert (some (zeros 48))), some (cmd2 dInsert (inlineOf dInsert (some (zeros 48))))) ∧
     (front (wide full) dInsert (inlineOf dInsert (some (zeros 48)))).preCheck (cmd2 dInsert (inlineOf dInsert (some (zeros 48)))) insertLayout = none ∧
     firstFail (indexChecks (front (wide full) dInsert (inlineOf dInsert (some (zeros 48)))) (cmd2 dInsert (inlineOf dInsert (some (zeros 48))))) = none ∧
     (front (wide full) dInsert (inlineOf dInsert (some (zeros 48)))).indexOf 1 dInsert.index = some index0 ∧
     (front (wide full) dInsert (inlineOf dInsert (some (zeros 48)))).source (cmd2 dInsert (inlineOf dInsert (some (zeros 48)))) (dInsert.itemBytes index0.p) (some (zeros 48)) = ((front (wide full) dInsert (inlineOf dInsert (some (zeros 48)))), some (zeros 48))) ∧
    (((wide full).advance 0).frozen = false ∧
     ((wide full).advance 0).take source dDelete (inlineOf dDelete (some (zeros 8))) = (front (wide full) dDelete (inlineOf dDelete (some (zeros 8))), some (cmd2 dDelete (inlineOf dDelete (some (zeros 8))))) ∧
     (front (wide full) dDelete (inlineOf dDelete (some (zeros 8)))).preCheck (cmd2 dDelete (inlineOf dDelete (some (zeros 8)))) insertLayout = none ∧
     firstFail (indexChecks (front (wide full) dDelete (inlineOf dDelete (some (zeros 8)))) (cmd2 dDelete (inlineOf dDelete (some (zeros 8))))) = none ∧
     (front (wide full) dDelete (inlineOf dDelete (some (zeros 8)))).indexOf 1 dDelete.index = some index0 ∧
     (front (wide full) dDelete (inlineOf dDelete (some (zeros 8)))).source (cmd2 dDelete (inlineOf dDelete (some (zeros 8)))) (dDelete.itemBytes index0.p) (some (zeros 8)) = ((front (wide full) dDelete (inlineOf dDelete (some (zeros 8)))), some (zeros 8))) ∧
    ((full.advance 0).frozen = false ∧ (full.advance 0).take source dMerge [] = (front full dMerge [], some (cmd dMerge [])) ∧
     (front full dMerge []).preCheck (cmd dMerge []) handleLayout = none ∧
     (front full dMerge []).indexOf 1 dMerge.index = some index0 ∧ (front full dMerge []).tagParams dMerge false = true) ∧
    ((full.advance 0).frozen = false ∧ (full.advance 0).take source dCairn [] = (front full dCairn [], some (cmd dCairn [])) ∧
     (front full dCairn []).preCheck (cmd dCairn []) cairnLayout = none ∧
     firstFail (cairnChecks (front full dCairn []) (cmd dCairn [])) = none ∧
     (front full dCairn []).scratchOf 1 dCairn.handle = some (0, 1, true)) ∧
    ((full.advance 0).frozen = false ∧ (full.advance 0).take source dEnter [] = (front full dEnter [], some (cmd dEnter [])) ∧
     (front full dEnter []).preCheck (cmd dEnter []) holdLayout = none ∧
     firstFail (holdEnterChecks (front full dEnter []) (cmd dEnter [])) = none ∧
     (front full dEnter []).scratchOf 1 dEnter.handle = some (0, 1, false)) ∧
    ((full.advance 0).frozen = false ∧ (full.advance 0).take source dLeave [] = (front full dLeave [], some (cmd dLeave [])) ∧
     (front full dLeave []).preCheck (cmd dLeave []) holdLayout = none ∧
     firstFail (holdLeaveChecks (front full dLeave []) (cmd dLeave [])) = none) := by
  and_intros <;> decide +kernel

/-- A WRITE of the Open connection, and setup records for a declared and a connecting one. -/
theorem witness_packets :
    ((net.advance 0).kGate (pkt 0 1) = none ∧ ((net.advance 0).kFront (pkt 0 1)).2 = true ∧ (pkt 0 1).hdr.conn ≠ 0 ∧
     (((net.advance 0).kFront (pkt 0 1)).1.classify (pkt 0 1)).2 = true) ∧
    (((net.advance 0).setupFront (pkt 4 0)).2 = true ∧
     ((net.advance 0).setupFront (pkt 4 0)).1.acceptDecl (pkt 4 0) record = some (5, acceptor) ∧ acceptor.state ≠ .opened ∧
     record.versions.testBit 1 = true ∧ record.paramsOk (if acceptor.crossRack then 1216 else 0) = true) ∧
    (((net.advance 0).setupFront (pkt 4 0)).2 = true ∧
     ((net.advance 0).setupFront (pkt 4 0)).1.connectingTo (pkt 4 0) = some (3, conn .connecting) ∧
     ({ record with versions := 1 } : SetupRec).paramsOk 0 = true ∧ (conn .connecting).crossRack = false ∧
     record.seg ≤ (conn .connecting).p.seg) ∧
    (((net.advance 0).setupFront (pkt 4 0)).2 = true ∧
     ((net.advance 0).setupFront (pkt 4 0)).1.connectingTo (pkt 4 0) = some (3, conn .connecting) ∧
     ({ record with reason := 3 } : SetupRec).reason ≤ 3) := by
  and_intros <;> decide +kernel

/-- A packet of each operation that the Open connection accepts. -/
theorem witness_accepted_packets :
    ((placing.advance 0).kPasses peered pWrite ∧ pWrite.hdr.op = 0 ∧
     (((placing.advance 0).kVerified peered pWrite).ceMarked pWrite.hdr.conn pWrite).kAccepted (peered.verified pWrite ((placing.advance 0).kVerified peered pWrite).now) pWrite) ∧
    ((placing.advance 0).kPasses peered pWriteImm ∧ pWriteImm.hdr.op = 1 ∧
     (((placing.advance 0).kVerified peered pWriteImm).ceMarked pWriteImm.hdr.conn pWriteImm).kAccepted (peered.verified pWriteImm ((placing.advance 0).kVerified peered pWriteImm).now) pWriteImm) ∧
    ((placing.advance 0).kPasses peered pReadReq ∧ pReadReq.hdr.op = 2 ∧
     (((placing.advance 0).kVerified peered pReadReq).ceMarked pReadReq.hdr.conn pReadReq).kAccepted (peered.verified pReadReq ((placing.advance 0).kVerified peered pReadReq).now) pReadReq) ∧
    ((placing.advance 0).kPasses peered pReadResp ∧ pReadResp.hdr.op = 3 ∧
     (((placing.advance 0).kVerified peered pReadResp).ceMarked pReadResp.hdr.conn pReadResp).kAccepted (peered.verified pReadResp ((placing.advance 0).kVerified peered pReadResp).now) pReadResp) ∧
    ((placing.advance 0).kPasses peered pCommand ∧ pCommand.hdr.op = 4 ∧
     (((placing.advance 0).kVerified peered pCommand).ceMarked pCommand.hdr.conn pCommand).kAccepted (peered.verified pCommand ((placing.advance 0).kVerified peered pCommand).now) pCommand) ∧
    ((placing.advance 0).kPasses peered pAck ∧ pAck.hdr.op = 5 ∧ serLt pAck.hdr.psn peered.txPsn = true) ∧
    ((placing.advance 0).kPasses peered pSack ∧ pSack.hdr.op = 6 ∧ serLt pSack.hdr.psn peered.txPsn = true ∧
     (sackPsns pSack.hdr.psn pSack.wire).all (fun k => serLt k peered.txPsn) = true) ∧
    ((placing.advance 0).kPasses peered pNack ∧ pNack.hdr.op = 7 ∧ (NackCode.ofCode (pNack.hdr.imm >>> 24)).isSome = true) := by
  and_intros <;> first
    | (with_reducible refine plain_trailer _ _ _ ?_ ?_ ?_ ?_); (· rfl); (· exact dataPkt_icrc _ _ _ _ _); (· decide +kernel); (· rfl)
    | decide +kernel

/-- An Open connection with a message to notify, one with parked packets, one whose timers are due, and one connecting. -/
theorem witness_connection_events :
    (((withConn1 (noticed 1)).advance 0).conns.get? 1 = some (noticed 1) ∧ ((withConn1 (noticed 1)).advance 0).frozen = false ∧
     (noticed 1).state = .opened ∧ (noticed 1).nextNotice = some (1, notice 1)) ∧
    (((withConn1 (noticed 4)).advance 0).conns.get? 1 = some (noticed 4) ∧ ((withConn1 (noticed 4)).advance 0).frozen = false ∧
     (noticed 4).nextNotice = some (1, notice 4)) ∧
    (((withConn1 parkedConn).advance 0).conns.get? 1 = some parkedConn ∧ ((withConn1 parkedConn).advance 0).frozen = false ∧
     parkedConn.onDie = false ∧ parkedConn.parked.isEmpty = false) ∧
    (((withConn1 dueConn).advance 0).conns.get? 1 = some dueConn ∧ ((withConn1 dueConn).advance 0).frozen = false ∧
     dueConn.rtoAt = some 4000000000 ∧ dueConn.state = .opened ∧ 4000000000 ≤ ((withConn1 dueConn).advance 0).now ∧
     dueConn.unacked.isEmpty = false) ∧
    (((withConn1 dueConn).advance 0).conns.get? 1 = some dueConn ∧ ((withConn1 dueConn).advance 0).frozen = false ∧
     dueConn.oldestUnacked = some 0 ∧ 0 + ((withConn1 dueConn).advance 0).ackDelay * 1000 ≤ ((withConn1 dueConn).advance 0).now) ∧
    (((withConn1 (conn .connecting)).advance 0).conns.get? 1 = some (conn .connecting) ∧
     ((withConn1 (conn .connecting)).advance 0).frozen = false ∧ (conn .connecting).state = .connecting ∧
     (conn .connecting).connectAt + 100000 ≤ ((withConn1 (conn .connecting)).advance 0).now) ∧
    (((withConn1 dueConn).advance 0).conns.get? 1 = some dueConn ∧ ((withConn1 dueConn).advance 0).frozen = false ∧
     dueConn.closingAt = some 4000000000 ∧ 4000000000 ≤ ((withConn1 dueConn).advance 0).now) ∧
    (((withConn1 dueConn).advance 0).conns.get? 1 = some dueConn ∧ ((withConn1 dueConn).advance 0).frozen = false ∧
     dueConn.oldKeyAt = some 4000000000 ∧ 4000000000 ≤ ((withConn1 dueConn).advance 0).now) := by
  and_intros <;> decide +kernel

/-- A node with a master, in each time state and 1PPS role the events ask for, 4 s on. -/
theorem witness_time_events :
    (((timed .locked .none).advance 0).ptpOn = true ∧ (((timed .locked .none).advance 0).ptpFront 0 0).2 = true ∧
     ((((timed .locked .none).advance 0).ptpFront 0 0).1.bumpN 9).time.master = some (0, master)) ∧
    ((((timed .locked .none).advance 0).ptpFront 0 0).1.time.master = some (0, master)) ∧
    (((timed .locked .input).advance 0).ppsRole = .input ∧ ((timed .locked .input).advance 0).ptpOn = true ∧
     ((timed .locked .input).advance 0).time.st ≠ .unset) ∧
    (((timed .locked .none).advance 0).time.lastSync + 4 * ((timed .locked .none).advance 0).time.syncInt ≤ ((timed .locked .none).advance 0).now) ∧
    (((timed .holdover .none).advance 0).time.st = .holdover ∧
     ((timed .holdover .none).advance 0).time.holdFrom + (((timed .holdover .none).advance 0).time.holdRecs + 1) * 1000000000 ≤ ((timed .holdover .none).advance 0).now) ∧
    (((timed .locked .none).advance 0).time.ppsPhase = true ∧
     ((timed .locked .none).advance 0).time.lastPps + 3000000000 ≤ ((timed .locked .none).advance 0).now) ∧
    (((timed .locked .output).advance 0).ppsRole = .output ∧ ((timed .locked .output).advance 0).now % 1000000000 = 0 ∧
     ((timed .locked .output).advance 0).time.st ≠ .unset ∧ ((timed .locked .output).advance 0).time.st ≠ .acquiring ∧
     ((timed .locked .output).advance 0).ptpOn = true ∧
     ((timed .locked .output).advance 0).time.lastPpsOut ≠ ((timed .locked .output).advance 0).now) := by
  and_intros <;> decide +kernel

/-- A breakout with link, one without, a wake frame in A2, and a shutter schedule whose instant has come. -/
theorem witness_frame_and_port_events :
    ((link0.advance 0).ptpOn = true ∧ ((link0.advance 0).brk 0).link = true ∧ (link0.advance 0).trace.held = false ∧
     (link0.advance 0).fab.cur = some fabric ∧
     fabric.portAddrs.any (fun p => p.breakout == 0 && (p.ipv6 == 1 || p.ipv4 == some 1)) = true) ∧
    ((sleeping.advance 0).dead = false ∧ (sleeping.advance 0).isWake wakeFrame = true ∧ (sleeping.advance 0).trace.held = false ∧
     (sleeping.advance 0).asleep = true ∧ (sleeping.advance 0).wakes 4 = true) ∧
    (((link0.advance 0).brk 0).busyTo ≤ (link0.advance 0).now ∧ (link0.advance 0).brkExists 0 = true ∧
     (link0.advance 0).trace.held = false ∧
     (((((link0.advance 0).accountIdle 0 (link0.advance 0).now).modBrk 0 (fun b => { b with sending := none, shapers := b.shapers.mapVals (fun k h => b.credit k ((link0.advance 0).accountIdle 0 (link0.advance 0).now).now h) })).modBrk 0 (fun b => { b with decidedAt := (((link0.advance 0).accountIdle 0 (link0.advance 0).now).modBrk 0 (fun b => { b with sending := none, shapers := b.shapers.mapVals (fun k h => b.credit k ((link0.advance 0).accountIdle 0 (link0.advance 0).now).now h) })).now })).brk 0).link = true ∧
     ((((link0.advance 0).accountIdle 0 (link0.advance 0).now).modBrk 0 (fun b => { b with sending := none, shapers := b.shapers.mapVals (fun k h => b.credit k ((link0.advance 0).accountIdle 0 (link0.advance 0).now).now h) })).modBrk 0 (fun b => { b with decidedAt := (((link0.advance 0).accountIdle 0 (link0.advance 0).now).modBrk 0 (fun b => { b with sending := none, shapers := b.shapers.mapVals (fun k h => b.credit k ((link0.advance 0).accountIdle 0 (link0.advance 0).now).now h) })).now })).dead = false ∧
     ((((link0.advance 0).accountIdle 0 (link0.advance 0).now).modBrk 0 (fun b => { b with sending := none, shapers := b.shapers.mapVals (fun k h => b.credit k ((link0.advance 0).accountIdle 0 (link0.advance 0).now).now h) })).modBrk 0 (fun b => { b with decidedAt := (((link0.advance 0).accountIdle 0 (link0.advance 0).now).modBrk 0 (fun b => { b with sending := none, shapers := b.shapers.mapVals (fun k h => b.credit k ((link0.advance 0).accountIdle 0 (link0.advance 0).now).now h) })).now })).asleep = false) ∧
    (((link0.advance 0).brk 4).link = false ∧ (link0.advance 0).brkExists 4 = true ∧ (link0.advance 0).power.state ≠ 3 ∧
     (link0.advance 0).dead = false ∧ (link0.advance 0).sns.lost.contains (.eth (4 / 4)) = false) ∧
    ((((link0.modBrk 0 (fun b => { b with shutter := { b.shutter with pend := some ([(0, 10000)], 0) } })).advance 0).brk 0).shutter.pend = some ([(0, 10000)], 0) ∧
     0 ≤ ((link0.modBrk 0 (fun b => { b with shutter := { b.shutter with pend := some ([(0, 10000)], 0) } })).advance 0).now) := by
  and_intros <;> decide +kernel

/-- A pending description whose time has come, a drain that is over, and the instant of exposure 0. -/
theorem witness_fabric_instants :
    ((({ live with fab := { live.fab with pend := some fabric } } : State).advance 0).fab.pend = some fabric ∧
     fabric.actTime ≤ (({ live with fab := { live.fab with pend := some fabric } } : State).advance 0).now) ∧
    ((live.advance 0).fab.drainAt ≤ (live.advance 0).now) ∧
    ((live.advance 0).fab.cur = some fabric ∧ openingOf fabric 0 ≤ (live.advance 0).now ∧
     (live.advance 0).now < openingOf fabric (0 + 1) ∧ (live.advance 0).asleep = false ∧ (live.advance 0).dead = false) := by
  and_intros <;> decide +kernel

/-- A request in each phase, and a cell, a fill and a ready item of cirque 0. -/
theorem witness_request_and_cell_events :
    (((work [(0, req dPlaced .fetching)] id).advance 0).frozen = false ∧
     ((work [(0, req dPlaced .fetching)] id).advance 0).reqs.get? 0 = some (req dPlaced .fetching) ∧
     ((work [(0, req dPlaced .fetching)] id).advance 0).placedBytes (req dPlaced .fetching) (some (zeros 32)) = some (zeros 32) ∧
     ((work [(0, req dPlaced .fetching)] id).advance 0).operandBytes (req dPlaced .fetching) ≤ (zeros 32).length ∧
     ((work [(0, req dPlaced .fetching)] id).advance 0).now ≤ (req dPlaced .fetching).deadline ∧
     (req dPlaced .fetching).phase = .fetching) ∧
    (((work [(0, req dDevelop .thin)] id).advance 0).frozen = false ∧
     ((work [(0, req dDevelop .thin)] id).advance 0).reqs.get? 0 = some (req dDevelop .thin) ∧ (req dDevelop .thin).phase = .thin ∧
     ((work [(0, req dDevelop .thin)] id).advance 0).segsOf 0 = 0) ∧
    (((work [(0, req dDevelop .dense)] id).advance 0).frozen = false ∧
     ((work [(0, req dDevelop .dense)] id).advance 0).reqs.get? 0 = some (req dDevelop .dense) ∧
     ((work [(0, req dDevelop .dense)] id).advance 0).denseDone 0 (req dDevelop .dense) = true) ∧
    (((work [(0, req dDevelop .output)] id).advance 0).frozen = false ∧
     ((work [(0, req dDevelop .output)] id).advance 0).reqs.get? 0 = some (req dDevelop .output) ∧
     (req dDevelop .output).phase = .output ∧ (req dDevelop .output).desc.outOf.out = 2) ∧
    (((work [(0, { req dKalad .output with outDone := some true })] id).advance 0).frozen = false ∧
     ((work [(0, { req dKalad .output with outDone := some true })] id).advance 0).reqs.get? 0 = some { req dKalad .output with outDone := some true } ∧
     dKalad.outOf.out ≠ 2) ∧
    (((work [] (fun q => { q with ready := [item] })).advance 0).frozen = false ∧
     (((work [] (fun q => { q with ready := [item] })).advance 0).cirque 0).ready.isEmpty = false) ∧
    (((((work [(0, { req dDevelop .dense with pages := [(0, 40)] })] (inCell { Cell.idle with item := some item, fed := true })).advance 0).cirque 0).cell 3).item = some item ∧
     ((work [(0, { req dDevelop .dense with pages := [(0, 40)] })] (inCell { Cell.idle with item := some item, fed := true })).advance 0).frozen = false ∧
     ((((work [(0, { req dDevelop .dense with pages := [(0, 40)] })] (inCell { Cell.idle with item := some item, fed := true })).advance 0).cirque 0).cell 3).fed = true ∧
     ((((work [(0, { req dDevelop .dense with pages := [(0, 40)] })] (inCell { Cell.idle with item := some item, fed := true })).advance 0).cirque 0).cell 3).stallTo ≤ ((work [(0, { req dDevelop .dense with pages := [(0, 40)] })] (inCell { Cell.idle with item := some item, fed := true })).advance 0).now ∧
     ((((work [(0, { req dDevelop .dense with pages := [(0, 40)] })] (inCell { Cell.idle with item := some item, fed := true })).advance 0).cirque 0).cell 3).bad = false ∧
     (((work [(0, { req dDevelop .dense with pages := [(0, 40)] })] (inCell { Cell.idle with item := some item, fed := true })).advance 0).onCell 0 3 (fun x => { x with item := none, fed := false, bad := false, buffer := none })).reqs.get? item.req = some { req dDevelop .dense with pages := [(0, 40)] } ∧
     (req dDevelop .dense).opcode ≠ 0x28 ∧
     (((((work [(0, { req dDevelop .dense with pages := [(0, 40)] })] (inCell { Cell.idle with item := some item, fed := true })).advance 0).reqs.get? item.req).bind (fun r => ((work [(0, { req dDevelop .dense with pages := [(0, 40)] })] (inCell { Cell.idle with item := some item, fed := true })).advance 0).workOf 0 3 r item)).isSome) = true) ∧
    (((work [(0, { req dDevelop .dense with pages := [(0, 40)] })] (inCell { Cell.idle with mark := some item, spilling := true })).advance 0).frozen = false ∧
     ((((work [(0, { req dDevelop .dense with pages := [(0, 40)] })] (inCell { Cell.idle with mark := some item, spilling := true })).advance 0).cirque 0).cell 3).spilling = true) ∧
    (((work [] (fun q => { q with fills := [(40, .frame, 0)] })).advance 0).frozen = false ∧
     (((work [] (fun q => { q with fills := [(40, .frame, 0)] })).advance 0).cirque 0).fills.find? (fun f => f.1 == 40 && f.2.1 == .frame) = some (40, .frame, 0) ∧
     ((work [] (fun q => { q with fills := [(40, .frame, 0)] })).advance 0).pages.get? 40 = some page0) := by
  and_intros <;> decide +kernel

/-- A page in the seal queue, an APPEND and an INGEST held, and a FORK that waits for nothing. -/
theorem witness_page_events :
    (((work [] (fun q => { q with sealQ := [40] })).advance 0).trace.held = false ∧
     ((work [] (fun q => { q with sealQ := [40] })).advance 0).dead = false ∧
     ((work [] (fun q => { q with sealQ := [40] })).advance 0).asleep = false ∧
     (((work [] (fun q => { q with sealQ := [40] })).advance 0).cirque 0).sealQ = [40] ∧
     (((work [] (fun q => { q with sealQ := [40] })).advance 0).modCirque 0 (fun k => { k with sealQ := [] })).pages.get? 40 = some page0 ∧
     page0.bad = []) ∧
    (((work [(0, req dAppend .held)] id).advance 0).frozen = false ∧
     ((work [(0, req dAppend .held)] id).advance 0).isHeld 0 0x02 = true) ∧
    (((work [(0, req dIngest .held)] id).advance 0).frozen = false ∧
     ((work [(0, req dIngest .held)] id).advance 0).isHeld 0 0x02 = false ∧
     ((work [(0, req dIngest .held)] id).advance 0).isHeld 0 0x06 = true) ∧
    (((work [(0, req dFork .forkWait)] id).advance 0).frozen = false ∧
     ((work [(0, req dFork .forkWait)] id).advance 0).reqs.get? 0 = some (req dFork .forkWait) ∧
     ((work [(0, req dFork .forkWait)] id).advance 0).seqOf 1 dFork.handle = some seqPage ∧
     (((work [(0, req dFork .forkWait)] id).advance 0).forkWaits seqPage dFork.forkPos).isEmpty = true) := by
  and_intros <;> decide +kernel

/-- A ring in each condition that an event of R381 to R383 asks for, and a query fetched from the host. -/
theorem witness_ring_and_pcie_events :
    ((({ live with rings := [(ringKey 1 0, { ring0 with fetched := [], slotWait := true })] } : State).advance 0).rings.get? (ringKey 1 0) = some { ring0 with fetched := [], slotWait := true } ∧
     (({ live with rings := [(ringKey 1 0, { ring0 with fetched := [], slotWait := true })] } : State).advance 0).frozen = false ∧
     ({ ring0 with fetched := [], slotWait := true } : Ring).slotWait = true ∧
     (({ live with rings := [(ringKey 1 0, { ring0 with fetched := [], slotWait := true })] } : State).advance 0).slotFree 1 = true) ∧
    ((({ live with rings := [(ringKey 1 0, { ring0 with coalSince := some 0 })] } : State).advance 0).rings.get? (ringKey 1 0) = some { ring0 with coalSince := some 0 } ∧
     (({ live with rings := [(ringKey 1 0, { ring0 with coalSince := some 0 })] } : State).advance 0).frozen = false ∧
     ({ ring0 with coalSince := some 0 } : Ring).coalSince = some 0 ∧
     0 + 1000 * ({ ring0 with coalSince := some 0 } : Ring).coalUs ≤ (({ live with rings := [(ringKey 1 0, { ring0 with coalSince := some 0 })] } : State).advance 0).now ∧
     ({ ring0 with coalSince := some 0 } : Ring).state ≠ .stopped) ∧
    ((({ live with rings := [(ringKey 1 0, { ring0 with fetched := [], sqTail := 15 })] } : State).advance 0).rings.get? (ringKey 1 0) = some { ring0 with fetched := [], sqTail := 15 } ∧
     (({ live with rings := [(ringKey 1 0, { ring0 with fetched := [], sqTail := 15 })] } : State).advance 0).frozen = false ∧
     ({ ring0 with fetched := [], sqTail := 15 } : Ring).host = true ∧
     ({ ring0 with fetched := [], sqTail := 15 } : Ring).state = .active ∧
     (({ live with rings := [(ringKey 1 0, { ring0 with fetched := [], sqTail := 15 })] } : State).advance 0).ridgeUp 1 = true ∧
     ({ ring0 with fetched := [], sqTail := 15 } : Ring).slotWait = false ∧
     15 < ({ ring0 with fetched := [], sqTail := 15 } : Ring).entries ∧ 15 ≤ ({ ring0 with fetched := [], sqTail := 15 } : Ring).waiting ∧
     ({ ring0 with fetched := [], sqTail := 15 } : Ring).outstanding + ({ ring0 with fetched := [], sqTail := 15 } : Ring).fetched.length + ({ ring0 with fetched := [], sqTail := 15 } : Ring).unread < ({ ring0 with fetched := [], sqTail := 15 } : Ring).entries) ∧
    ((({ live with rings := [(ringKey 1 0, { ring0 with fetched := [], sqTail := 15 })] } : State).advance 0).rings.get? (ringKey 1 0) = some { ring0 with fetched := [], sqTail := 15 } ∧
     (({ live with rings := [(ringKey 1 0, { ring0 with fetched := [], sqTail := 15 })] } : State).advance 0).frozen = false ∧
     ({ ring0 with fetched := [], sqTail := 15 } : Ring).host = true ∧
     ({ ring0 with fetched := [], sqTail := 15 } : Ring).state = .active) ∧
    (((work [(0, req dPlaced .fetching)] id).advance 0).frozen = false ∧
     ((work [(0, req dPlaced .fetching)] id).advance 0).reqs.get? 0 = some (req dPlaced .fetching) ∧
     (req dPlaced .fetching).desc.srcOf.qsrc = 3) := by
  and_intros <;> decide +kernel

/-- A merge, a running segment, a group that enters the mode, one that lingers, and a stack whose tick is due. -/
theorem witness_cairn_events :
    ((({ full with indexes := [(indexKey 1 0, { index0 with parts := [(0, { IndexPart.empty 1 with merge := some (0, 0) })] })] } : State).advance 0).indexes.get? (indexKey 1 0) = some { index0 with parts := [(0, { IndexPart.empty 1 with merge := some (0, 0) })] } ∧
     (({ index0 with parts := [(0, { IndexPart.empty 1 with merge := some (0, 0) })] } : Index).part 0).merge = some (0, 0) ∧
     (({ full with indexes := [(indexKey 1 0, { index0 with parts := [(0, { IndexPart.empty 1 with merge := some (0, 0) })] })] } : State).advance 0).frozen = false ∧
     (({ index0 with parts := [(0, { IndexPart.empty 1 with merge := some (0, 0) })] } : Index).part 0).retired.any (fun e => (({ full with indexes := [(indexKey 1 0, { index0 with parts := [(0, { IndexPart.empty 1 with merge := some (0, 0) })] })] } : State).advance 0).queryBefore 1 (indexHandle 0 1) e.2) = false) ∧
    ((({ full with reqs := [(0, req dCairn .engine)], banks := [(bankKey 0 7, { Bank.idle with running := some { req := 0, ops := [], latch := none, ridge := 1, issued := 0 } })] } : State).advance 0).frozen = false ∧
     ((({ full with reqs := [(0, req dCairn .engine)], banks := [(bankKey 0 7, { Bank.idle with running := some { req := 0, ops := [], latch := none, ridge := 1, issued := 0 } })] } : State).advance 0).bank (bankKey 0 7)).running = some { req := 0, ops := [], latch := none, ridge := 1, issued := 0 }) ∧
    ((({ live with groups := [(groupKey 0 5, { Group.out with entering := some 0 })] } : State).advance 0).frozen = false ∧
     ((({ live with groups := [(groupKey 0 5, { Group.out with entering := some 0 })] } : State).advance 0).group (groupKey 0 5)).entering.isSome = true ∧
     ((((({ live with groups := [(groupKey 0 5, { Group.out with entering := some 0 })] } : State).advance 0).modGroup (groupKey 0 5) (fun g => { g with mode := true, entering := none })).resetUnits 0 5 0).kickCirque 0).allInMode 0 = false) ∧
    (((late live).advance 0).frozen = false ∧ (((late live).advance 0).stack 31).lastTick < ((late live).advance 0).now / 1000) ∧
    ((live.advance 0).frozen = false ∧ ((live.advance 0).bank (bankKey 15 255)).refDue ≤ 32 * (live.advance 0).now) ∧
    ((({ live with groups := [(groupKey 0 5, { Group.out with mode := true, lingerAt := some 0 })] } : State).advance 0).frozen = false ∧
     ((({ live with groups := [(groupKey 0 5, { Group.out with mode := true, lingerAt := some 0 })] } : State).advance 0).group (groupKey 0 5)).holders.isEmpty = true ∧
     (({ live with groups := [(groupKey 0 5, { Group.out with mode := true, lingerAt := some 0 })] } : State).advance 0).groupBusy 0 5 = false ∧
     ((({ live with groups := [(groupKey 0 5, { Group.out with mode := true, lingerAt := some 0 })] } : State).advance 0).group (groupKey 0 5)).lingerAt = some 0 ∧
     0 ≤ (({ live with groups := [(groupKey 0 5, { Group.out with mode := true, lingerAt := some 0 })] } : State).advance 0).now) := by
  and_intros <;> decide +kernel

/-- The instants of the patrol, the scrub, decay and advisories, and leases whose records and times are due. -/
theorem witness_health_and_lease_events :
    ((live.advance 0).frozen = false ∧ (live.advance 0).zeroing (0 / 2) = false ∧ (live.advance 0).pages = [] ∧
     ((live.advance 0).modStack 0 (fun x => { x with patrolRow := (((live.advance 0).stack 0).patrolRow + 1) % 8388608 })).zeroing (0 / 2) = false ∧
     (((live.advance 0).modStack 0 (fun x => { x with patrolRow := (((live.advance 0).stack 0).patrolRow + 1) % 8388608 })).bumpN 2054).pages = []) ∧
    ((live.advance 0).frozen = false ∧ (live.advance 0).now % 2000000 = 0) ∧
    ((({ live with loupe := { live.loupe with banks := live.loupe.banks.set 0 { owner := 1, width := 2, entries := [(3, loupeEntry body .rfl)], shadow := [(3, loupeEntry body .rfl)] } } } : State).advance 0).frozen = false ∧
     (({ live with loupe := { live.loupe with banks := live.loupe.banks.set 0 { owner := 1, width := 2, entries := [(3, loupeEntry body .rfl)], shadow := [(3, loupeEntry body .rfl)] } } } : State).advance 0).now % 2000000 = 0 ∧
     (((((({ live with loupe := { live.loupe with banks := live.loupe.banks.set 0 { owner := 1, width := 2, entries := [(3, loupeEntry body .rfl)], shadow := [(3, loupeEntry body .rfl)] } } } : State).advance 0).loupe.banks.map (·.1)).foldl State.scrubBank (({ live with loupe := { live.loupe with banks := live.loupe.banks.set 0 { owner := 1, width := 2, entries := [(3, loupeEntry body .rfl)], shadow := [(3, loupeEntry body .rfl)] } } } : State).advance 0)).lBank 0).shadow.get? 3) = some (loupeEntry body .rfl)) ∧
    (((late live).advance 0).asleep = false ∧ ((late live).advance 0).dead = false ∧
     ((late live).advance 0).health.lastDecay + 1000000000 ≤ ((late live).advance 0).now) ∧
    ((minute.advance 0).asleep = false ∧ (minute.advance 0).dead = false ∧
     (minute.advance 0).health.advMinuteFrom + 60000000000 ≤ (minute.advance 0).now) ∧
    ((((late (live.modRidge 1 (fun g => { g with lease := some { lease with p := { lease.p with peer := some (2, 1) } } }))).advance 0).ridge 1).lease = some { lease with p := { lease.p with peer := some (2, 1) } } ∧
     ((late (live.modRidge 1 (fun g => { g with lease := some { lease with p := { lease.p with peer := some (2, 1) } } }))).advance 0).frozen = false ∧
     ({ lease with p := { lease.p with peer := some (2, 1) } } : Lease).lastSend + ({ lease with p := { lease.p with peer := some (2, 1) } } : Lease).p.period * 1000 ≤ ((late (live.modRidge 1 (fun g => { g with lease := some { lease with p := { lease.p with peer := some (2, 1) } } }))).advance 0).now ∧
     ({ lease with p := { lease.p with peer := some (2, 1) } } : Lease).p.peer = some (2, 1)) ∧
    ((((late (live.modRidge 1 (fun g => { g with lease := some { lease with holding := false, p := { lease.p with orphanS := some 1 } } }))).advance 0).ridge 1).lease = some { lease with holding := false, p := { lease.p with orphanS := some 1 } } ∧
     ((late (live.modRidge 1 (fun g => { g with lease := some { lease with holding := false, p := { lease.p with orphanS := some 1 } } }))).advance 0).frozen = false ∧
     ({ lease with holding := false, p := { lease.p with orphanS := some 1 } } : Lease).reclaimed = false ∧
     ({ lease with holding := false, p := { lease.p with orphanS := some 1 } } : Lease).p.orphan ≠ 0 ∧
     ({ lease with holding := false, p := { lease.p with orphanS := some 1 } } : Lease).lostAt + ({ lease with holding := false, p := { lease.p with orphanS := some 1 } } : Lease).p.orphan * 1000000000 ≤ ((late (live.modRidge 1 (fun g => { g with lease := some { lease with holding := false, p := { lease.p with orphanS := some 1 } } }))).advance 0).now) := by
  and_intros <;> decide +kernel

/-- A request beyond its watchdog, and the instants of SYNC and of a stop. -/
theorem witness_trace_events :
    (((late (work [(0, req dDevelop .dense)] id)).advance 0).reqs.get? 0 = some (req dDevelop .dense) ∧
     ((late (work [(0, req dDevelop .dense)] id)).advance 0).frozen = false ∧ (req dDevelop .dense).watchFired = false ∧
     (req dDevelop .dense).phase ≠ .posted ∧ (req dDevelop .dense).phase ≠ .waiting ∧
     (((late (work [(0, req dDevelop .dense)] id)).advance 0).ridge (req dDevelop .dense).ridge).watchdogMs ≠ 0 ∧
     (req dDevelop .dense).startedAt.getD (req dDevelop .dense).admittedAt + (req dDevelop .dense).heldNs + (((late (work [(0, req dDevelop .dense)] id)).advance 0).ridge (req dDevelop .dense).ridge).watchdogMs * 1000000 ≤ ((late (work [(0, req dDevelop .dense)] id)).advance 0).now) ∧
    (((late live).advance 0).asleep = false ∧ ((late live).advance 0).dead = false ∧
     ((late live).advance 0).trace.lastSync / 1000000 < ((late live).advance 0).now / 1000000) ∧
    ((({ late live with trace := { live.trace with armed := some (4000000000, 1) } } : State).advance 0).trace.armed = some (4000000000, 1) ∧
     4000000000 ≤ (({ late live with trace := { live.trace with armed := some (4000000000, 1) } } : State).advance 0).now ∧
     (({ late live with trace := { live.trace with armed := some (4000000000, 1) } } : State).advance 0).asleep = false ∧
     (({ late live with trace := { live.trace with armed := some (4000000000, 1) } } : State).advance 0).dead = false) ∧
    ((({ late live with trace := { live.trace with held := true } } : State).advance 0).trace.held = true ∧
     (({ late live with trace := { live.trace with held := true } } : State).advance 0).trace.written = false ∧
     (({ late live with trace := { live.trace with held := true } } : State).advance 0).dead = false) ∧
    ((({ late live with trace := { live.trace with held := true, holdMaxS := 1 } } : State).advance 0).trace.held = true ∧
     (({ late live with trace := { live.trace with held := true, holdMaxS := 1 } } : State).advance 0).trace.cutAt + (({ late live with trace := { live.trace with held := true, holdMaxS := 1 } } : State).advance 0).trace.holdMaxS * 1000000000 ≤ (({ late live with trace := { live.trace with held := true, holdMaxS := 1 } } : State).advance 0).now ∧
     (({ late live with trace := { live.trace with held := true, holdMaxS := 1 } } : State).advance 0).dead = false) := by
  and_intros <;> decide +kernel

/-- The node in service, in A2, entering A3, leaving it, in A1, and without SYS_REFCLK. -/
theorem witness_power_and_reset_events :
    ((live.advance 0).frozen = false ∧ 4 ≠ (live.advance 0).sns.issueK ∧ ¬ (live.advance 0).sns.issueK < 4) ∧
    ((live.advance 0).asleep = false ∧ (live.advance 0).dead = false) ∧
    (((moving .entering 3).advance 0).power.transit = .entering ∧ ((moving .entering 3).advance 0).dead = false ∧
     ((moving .entering 3).advance 0).cirques.any (fun e => !e.2.sealQ.isEmpty) = false) ∧
    ((sleeping.advance 0).dead = false ∧ (sleeping.advance 0).asleep = true ∧ (sleeping.advance 0).wakes 1 = true ∧
     (sleeping.advance 0).wakes 4 = true) ∧
    (((late (moving .exiting 0)).advance 0).power.transit = .exiting ∧ ((late (moving .exiting 0)).advance 0).dead = false ∧
     ((late (moving .exiting 0)).advance 0).power.exitAt + (if ((late (moving .exiting 0)).advance 0).power.fromState = 3 && !false then 300000000 else 0) ≤ ((late (moving .exiting 0)).advance 0).now) ∧
    (((late { live with power := { live.power with state := 1 } }).advance 0).frozen = false ∧
     ((late { live with power := { live.power with state := 1 } }).advance 0).power.state = 1 ∧
     (((late { live with power := { live.power with state := 1 } }).advance 0).cirque 15).gated = false ∧
     (((late { live with power := { live.power with state := 1 } }).advance 0).cirque 15).idle? = true ∧
     (((late { live with power := { live.power with state := 1 } }).advance 0).cirque 15).idleSince + 50000 ≤ ((late { live with power := { live.power with state := 1 } }).advance 0).now) ∧
    (20 < 21) ∧
    ((live.advance 0).asleep = false ∧ (({ sleeping with sns := { live.sns with tripped := true } } : State).advance 0).dead = true) ∧
    ((live.advance 0).sns.lost.contains .sys = false) ∧
    ((({ live with sns := { live.sns with lost := [.sys] } } : State).advance 0).sns.lost.contains .sys = true) ∧
    ((if false then 105 else 110) ≤ 110 ∧ (live.advance 0).sns.tripped = false) := by
  and_intros <;> decide +kernel

/-- A warm and a ridge reset, a strip run and a firmware switch under way, and a report whose time is over. -/
theorem witness_completion_events :
    ((({ live with power := { live.power with warmAt := some 0 } } : State).advance 0).power.warmAt.isSome = true ∧
     (({ live with power := { live.power with warmAt := some 0 } } : State).advance 0).dead = false) ∧
    (((live.modRidge 1 (fun g => { g with resetAt := some 0 })).advance 0).frozen = false ∧
     (((live.modRidge 1 (fun g => { g with resetAt := some 0 })).advance 0).ridge 1).resetAt.isSome = true) ∧
    ((({ live with strip := { live.strip with state := 1, run := some stripRun } } : State).advance 0).strip.run = some stripRun ∧
     (({ live with strip := { live.strip with state := 1, run := some stripRun } } : State).advance 0).frozen = false ∧
     (({ live with strip := { live.strip with state := 1, run := some stripRun } } : State).advance 0).strip.state = 1) ∧
    ((({ live with boot := { live.boot with activation := some (0, .pf), staged := some { svn := 1, meas := 0 } } } : State).advance 0).boot.activation = some (0, .pf) ∧
     (({ live with boot := { live.boot with activation := some (0, .pf), staged := some { svn := 1, meas := 0 } } } : State).advance 0).boot.staged = some { svn := 1, meas := 0 } ∧
     0 ≤ (({ live with boot := { live.boot with activation := some (0, .pf), staged := some { svn := 1, meas := 0 } } } : State).advance 0).now ∧
     (({ live with boot := { live.boot with activation := some (0, .pf), staged := some { svn := 1, meas := 0 } } } : State).advance 0).dead = false) ∧
    ((((live.modFunc 0 (fun f => { f with report := some { tag := 7, bytes := [], until_ := 0 } })).advance 0).func Fn.pf.key).report = some { tag := 7, bytes := [], until_ := 0 } ∧
     0 ≤ ((live.modFunc 0 (fun f => { f with report := some { tag := 7, bytes := [], until_ := 0 } })).advance 0).now) := by
  and_intros <;> decide +kernel

/-- A ridge that opens, one that closes with its key, and one without. -/
theorem witness_ridge_events :
    (((live.modRidge 1 (fun g => { g with state := .opening })).advance 0).frozen = false ∧
     (((live.modRidge 1 (fun g => { g with state := .opening })).advance 0).ridge 1).state = .opening ∧
     ((live.modRidge 1 (fun g => { g with state := .opening })).advance 0).boot.trngBad = false) ∧
    (((live.modRidge 1 (fun g => { g with state := .closing, key := some 5, force := true })).advance 0).frozen = false ∧
     (((live.modRidge 1 (fun g => { g with state := .closing, key := some 5, force := true })).advance 0).ridge 1).state = .closing ∧
     (((live.modRidge 1 (fun g => { g with state := .closing, key := some 5, force := true })).advance 0).ridge 1).key.isSome = true ∧
     (((live.modRidge 1 (fun g => { g with state := .closing, key := some 5, force := true })).advance 0).ridge 1).halted = false ∧
     (((live.modRidge 1 (fun g => { g with state := .closing, key := some 5, force := true })).advance 0).ridge 1).force = true ∧
     ([false, false, true].take 3).contains true = true ∧ ([false, false, false, true].take 3).contains true = false) ∧
    (((live.modRidge 1 (fun g => { g with state := .closing })).advance 0).frozen = false ∧
     (((live.modRidge 1 (fun g => { g with state := .closing })).advance 0).ridge 1).state = .closing ∧
     (((live.modRidge 1 (fun g => { g with state := .closing })).advance 0).ridge 1).key = none ∧
     (((live.modRidge 1 (fun g => { g with state := .closing })).advance 0).ridge 1).rowsLeft.all (fun e => e.2 == 0) = true) := by
  and_intros <;> decide +kernel

/-- Settings in range, and a step from them. -/
theorem witness_settings_in_range :
    live.settings.ok = true ∧ goesOn (step ({ live with pending := [.epochDrain 0 h0 10000000] } : State)) = true := by
  and_intros <;> decide +kernel

/-- A command that may change no setting, and its next state. -/
theorem witness_settings_stay :
    (Instr.idGet 0 h0).mayChangeSettings = false ∧ goesOn (exec (.idGet 0 h0) live) = true := by
  and_intros <;> decide +kernel

/-- A command and its next state. -/
theorem witness_queue_stays :
    goesOn (exec (.fabricGet 0 h0) live) = true := by
  decide +kernel

/-- A command at a held cut, asleep, and without clocks. -/
theorem witness_stopped_node :
    (Instr.openSeq 0 source dOpen).dataPath = some (0, source, dOpen, [], openLayout) ∧
    (({ live with trace := { live.trace with held := true } } : State).advance 0).frozen = true ∧ (sleeping.advance 0).frozen = true ∧
    (({ live with sns := { live.sns with tripped := true } } : State).advance 0).frozen = true := by
  and_intros <;> first | decide +kernel | rfl

/-- A fetched OPEN that names another ridge. -/
theorem witness_refused_commands :
    (Instr.openSeq 0 source dWrongRidge).dataPath = some (0, source, dWrongRidge, [], openLayout) ∧ (busy.advance 0).frozen = false ∧
    (busy.advance 0).take source dWrongRidge [] = (front busy dWrongRidge [], some (cmd dWrongRidge [])) ∧
    (front busy dWrongRidge []).preCheck (cmd dWrongRidge []) openLayout = some .ridgeMismatch := by
  and_intros <;> first | decide +kernel | rfl

/-- A schedule, an instant before T0, and a tagged command under a description. -/
theorem witness_exposures_and_deadlines :
    0 < fabric.period ∧ 0 < ({ fabric with t0 := 1 } : Fabric).t0 ∧ live.fab.cur = some fabric ∧ dDevelop.tagged = true ∧
    dDevelop.deadlineUs = 0 ∧ exposureAt fabric 999999 = 0 ∧ exposureAt fabric 1000000 = 1 := by
  and_intros <;> decide +kernel

/-- A tag one beyond the window, and one 17 exposures old. -/
theorem witness_tags_outside :
    ((Instr.develop 0 source dLateTag []).dataPath = some (0, source, dLateTag, [], developLayout) ∧ (busy.advance 0).frozen = false ∧
     (busy.advance 0).take source dLateTag [] = (front busy dLateTag [], some (cmd dLateTag [])) ∧
     (front busy dLateTag []).fab.cur = some fabric ∧ dLateTag.tagged = true ∧
     exposureAt fabric (front busy dLateTag []).now + 4 < (dLateTag.exposure : Int)) ∧
    ((({ busy with time := { busy.time with now := 17000000 } } : State).advance 0).frozen = false ∧
     (({ busy with time := { busy.time with now := 17000000 } } : State).advance 0).take source dOldTag [] = (front ({ busy with time := { busy.time with now := 17000000 } } : State) dOldTag [], some (cmd dOldTag [])) ∧
     dOldTag.tagged = true ∧
     (dOldTag.exposure : Int) < exposureAt fabric (front ({ busy with time := { busy.time with now := 17000000 } } : State) dOldTag []).now - 16) := by
  and_intros <;> first | decide +kernel | rfl

/-- A SEAL by the handle of another generation, and a CTR_MERGE of an index that is not there. -/
theorem witness_stale_handles :
    ((Instr.sealSeq 0 source dStale).dataPath = some (0, source, dStale, [], handleLayout) ∧
     (Instr.sealSeq 0 source dStale).namesSeq = true ∧ (busy.advance 0).frozen = false ∧
     (busy.advance 0).take source dStale [] = (front busy dStale [], some (cmd dStale [])) ∧
     (front busy dStale []).preCheck (cmd dStale []) handleLayout = none ∧ (front busy dStale []).seqOf 1 dStale.handle = none) ∧
    ((Instr.ctrMerge 0 source dStaleIndex).dataPath = some (0, source, dStaleIndex, [], handleLayout) ∧
     (Instr.ctrMerge 0 source dStaleIndex).namesIndex = true ∧ (full.advance 0).frozen = false ∧
     (full.advance 0).take source dStaleIndex [] = (front full dStaleIndex [], some (cmd dStaleIndex [])) ∧
     (front full dStaleIndex []).preCheck (cmd dStaleIndex []) handleLayout = none ∧
     (front full dStaleIndex []).indexOf 1 dStaleIndex.index = none) := by
  and_intros <;> first | decide +kernel | rfl

/-- A free descriptor under its first generation, and under its last. -/
theorem witness_handles :
    busy.seqs.fresh 0 262144 = some 0 ∧ (busy.gens.get? 0).getD 1 = 1 ∧
    ({ busy with gens := [(0, 16383)] } : State).seqs.fresh 0 262144 = some 0 ∧
    (({ busy with gens := [(0, 16383)] } : State).gens.get? 0).getD 1 = 16383 := by
  and_intros <;> decide +kernel

/-- A closing sequence that holds nothing. -/
theorem witness_release :
    (({ busy with seqs := [(5, { seq5 with state := .closing, layers := [] })] } : State).advance 0).frozen = false ∧
    (({ busy with seqs := [(5, { seq5 with state := .closing, layers := [] })] } : State).advance 0).seqs.get? 5 = some { seq5 with state := .closing, layers := [] } ∧
    (({ busy with seqs := [(5, { seq5 with state := .closing, layers := [] })] } : State).advance 0).reqs.any (fun e => e.2.usesSeq (handleOf 5 seq5.gen)) = false := by
  and_intros <;> decide +kernel

/-- Headers and mailboxes that fail each check of R510 alone. -/
theorem witness_mailbox_checks :
    (({ h0 with length := 4081 } : MbxHdr).framing = false ∧ h0.framing = true) ∧
    ((State.reset.func h0.fn.key).session = none) ∧
    ((live.func h0.fn.key).session ≠ none ∧ ((live.func h0.fn.key).session == some ({ h0 with proto := 2 } : MbxHdr).proto) = false) ∧
    (((live.func h0.fn.key).session == some h0.proto) = true ∧
     ({ live with boot := { live.boot with activation := some (0, .pf), staged := some { svn := 1, meas := 0 } } } : State).switching = true) ∧
    (live.switching = false ∧ live.power.warmAt = none ∧ ({ h0 with fn := .vf 1 } : MbxHdr).fn.isVf = true) ∧
    (({ h0 with framed := false } : MbxHdr).framed = false ∧ h0.framed = true ∧ h0.fn.isVf = false) := by
  and_intros <;> decide +kernel

/-- The node asleep in A2, its posted queue not full. -/
theorem witness_waking_messages :
    (sleeping.advance 0).dead = false ∧ (sleeping.advance 0).asleep = true ∧ (sleeping.advance 0).writeQFull = false ∧
    ({ h0 with fn := .bmc } : MbxHdr).fn = .bmc := by
  and_intros <;> decide +kernel

/-- A function with one cause set, and the PF's last cause bit clear. -/
theorem witness_causes :
    ((live.modFunc 0 (fun f => { f with cause := 1, enable := 0x1FFF })).funcs.get? 0).isSome = true ∧
    (causeMask 0).testBit 12 = true ∧ (live.modFunc 0 (fun f => { f with cause := 1, enable := 0x1FFF })).trace.held = false ∧
    (((live.modFunc 0 (fun f => { f with cause := 1, enable := 0x1FFF })).func 0).cause.toNat.testBit 0) = true ∧
    (((live.modFunc 0 (fun f => { f with cause := 1, enable := 0x1FFF })).func 0).cause.toNat.testBit 12) = false := by
  and_intros <;> decide +kernel

/-- A reading message and its next state. -/
theorem witness_reading_messages :
    (live.advance 0).asleep = false ∧ goesOn (exec (.ridgeGet 0 h1) live) = true ∧ goesOn (exec (.errRead 0 h0 .waitFor 0) live) = true := by
  and_intros <;> decide +kernel

/-- A message about one setting of a ridge, and its next state. -/
theorem witness_ridge_settings :
    (live.advance 0).asleep = false ∧ goesOn (exec (.shadowSet 0 h1 1024) live) = true ∧ h1.target ≠ some 2 := by
  and_intros <;> decide +kernel

/-- A message about one unit of each kind, and its next state. -/
theorem witness_one_unit_messages :
    (live.advance 0).asleep = false ∧ goesOn (exec (.ringCreate 0 h1 (.node 1 0)) live) = true ∧
    goesOn (exec (.shtSet 0 h0 0 [(0, 10000)] 1000000) live) = true ∧ goesOn (exec (.stopAtCancel 0 h0) live) = true ∧
    goesOn (exec (.fwFloor 0 h0 0) live) = true ∧ goesOn (exec (.epochDrain 0 h0 100) live) = true := by
  and_intros <;> decide +kernel

/-- An Active host ring of 16 entries, and tails on both sides of its end. -/
theorem witness_doorbells :
    idleRings.rings.get? (ringKey 1 0) = some { ring0 with fetched := [] } ∧ ({ ring0 with fetched := [] } : Ring).host = true ∧
    ({ ring0 with fetched := [] } : Ring).state = .active ∧ 15 < ({ ring0 with fetched := [] } : Ring).entries ∧
    ({ ring0 with fetched := [] } : Ring).entries ≤ 16 := by
  and_intros <;> decide +kernel

/-- A function. -/
theorem witness_interrupt_registers :
    live.funcs.get? 17 = some (Func.fresh true) := by
  decide +kernel

/-- The first and the last bank group. -/
theorem witness_cairn_mode :
    7 < 8 ∧ 1 < 2 ∧ 3 < 4 ∧ 8 * 7 + 4 * 1 + 3 = 63 := by
  decide +kernel

/-- A division by 1. -/
theorem witness_divisions :
    0 < 1 := by
  decide +kernel

/-- A subnormal operand, a normal one and an infinity. -/
theorem witness_bf16_operands :
    0x007F < 65536 ∧ 0x007F / 128 % 256 = 0 ∧ 0x3F80 < 65536 ∧ 0x3F80 / 128 % 256 ≠ 0 ∧
    0xFF80 < 65536 ∧ 0xFF80 / 128 % 256 ≠ 0 ∧ ¬ (0xFF80 / 128 % 256 = 255 ∧ 0xFF80 % 128 ≠ 0) := by
  and_intros <;> decide +kernel

/-- A valid entry. -/
theorem witness_loupe_entries :
    (loupeEntry body .rfl).valid = true := by
  decide +kernel

/-- A breakout whose gate list and shutter schedule are due at one instant. -/
theorem witness_takeovers :
    ({ live with brks := [(0, { Breakout.reset 0 with gates := [(1, { run := CycList.openGate, pend := some ([(255, 100)], 0) })], shutter := { run := CycList.ridge0, pend := some ([(0, 10000)], 0) } })] } : State).brks.get? 0 = some { Breakout.reset 0 with gates := [(1, { run := CycList.openGate, pend := some ([(255, 100)], 0) })], shutter := { run := CycList.ridge0, pend := some ([(0, 10000)], 0) } } ∧
    ({ Breakout.reset 0 with gates := [(1, { run := CycList.openGate, pend := some ([(255, 100)], 0) })], shutter := { run := CycList.ridge0, pend := some ([(0, 10000)], 0) } } : Breakout).gates.get? 1 = some { run := CycList.openGate, pend := some ([(255, 100)], 0) } ∧
    ({ Breakout.reset 0 with gates := [(1, { run := CycList.openGate, pend := some ([(255, 100)], 0) })], shutter := { run := CycList.ridge0, pend := some ([(0, 10000)], 0) } } : Breakout).shutter.pend = some ([(0, 10000)], 0) ∧
    0 ≤ (live.advance 0).now := by
  and_intros <;> decide +kernel

/-- An entry with no event latched, and one with an event. -/
theorem witness_wake_events :
    (({ moving .entering 3 with power := { (moving .entering 3).power with wake := none } } : State).power.transit = .entering ∧
     ({ moving .entering 3 with power := { (moving .entering 3).power with wake := none } } : State).power.wake = none) ∧
    ((moving .entering 3).power.transit = .entering ∧ (moving .entering 3).power.wake.isSome = true ∧
     (moving .entering 3).dead = false ∧ ((moving .entering 3).advance 0).cirques.any (fun e => !e.2.sealQ.isEmpty) = false) := by
  and_intros <;> decide +kernel

/-- Excursions on both sides of 20 µs. -/
theorem witness_supply_excursions :
    20 ≤ 20 ∧ 20 < 21 ∧ 1 ≤ 9 ∧ 9 ≤ 9 ∧ inputs.aonLost = false ∧ ({ inputs with aonLost := true } : ColdInputs).aonLost = true := by
  and_intros <;> decide +kernel

/-- An empty memory, and addresses beside the bytes written. -/
theorem witness_region_writes :
    memWf [] = true ∧ 3 < 4 ∧ 4 + 2 ≤ 6 := by
  and_intros <;> decide +kernel

-- Witnesses that need more than evaluation.

/-- What an event of a fold keeps, the fold keeps. -/
theorem foldl_keeps {α β : Type} (g : State → β) (f : State → α → State) (h : ∀ s a, g (f s a) = g s) (l : List α) (s : State) :
    g (l.foldl f s) = g s := by
  induction l generalizing s with
  | nil => rfl
  | cons a l ih => rw [List.foldl_cons, ih, h]

/-- Power and sensors: what decides whether the node is awake. -/
def vital (s : State) : PowerSt × SensorSt := (s.power, s.sns)

theorem of_vital {a b : State} (h : vital a = vital b) : a.power = b.power ∧ a.sns = b.sns := by simpa [vital] using h

theorem bumpBy_vital (s : State) (c : Ctr) (n : Nat) : vital (s.bumpBy c n) = vital s := by
  unfold State.bumpBy
  split <;> rfl

theorem bumpOpen_vital (s : State) (c : Ctr) (n : Nat) : vital (s.bumpOpen c n) = vital s := by
  unfold State.bumpOpen
  split <;> rfl

theorem chargeOpen_vital (s : State) (c e n t : Nat) (f g : Bool) : vital (s.chargeOpen c e n t f g) = vital s := by
  unfold State.chargeOpen
  dsimp only
  repeat' split
  all_goals simp only [bumpOpen_vital]

theorem chargeCycles_vital (s : State) (c e n : Nat) (x : Cell) (g : Bool) : vital (s.chargeCycles c e n x g) = vital s := by
  unfold State.chargeCycles
  dsimp only
  repeat' split
  all_goals simp only [bumpBy_vital, chargeOpen_vital]

theorem charge_vital (s : State) (c e : Nat) (g : Bool) : vital (s.charge c e g) = vital s := by
  unfold State.charge
  dsimp only
  repeat' split
  all_goals exact chargeCycles_vital _ _ _ _ _ _

theorem chargeAll_vital (s : State) (g : Bool) : vital (s.chargeAll g) = vital s := by
  unfold State.chargeAll
  exact foldl_keeps vital _ (fun s c => foldl_keeps vital _ (fun s e => charge_vital s c e _) _ s) _ s

theorem event_vital (s : State) (c : Option Nat) (e n : Nat) : vital (s.event c e n) = vital s := by
  unfold State.event
  exact foldl_keeps vital _ (fun s a => by split <;> simp [bumpBy_vital]) _ s

/-- The node as a BAR read finds it. -/
def readState : State := ((live.advance 0).chargeAll false).event none 0x0E 1

theorem readState_vital : vital readState = vital live := by
  have h : live.advance 0 = live := by
    unfold State.advance
    dsimp only
    exact if_pos (Nat.zero_le _)
  unfold readState
  rw [event_vital, chargeAll_vital, h]

theorem readState_awake : readState.asleep = false ∧ readState.dead = false := by
  obtain ⟨p, q⟩ := of_vital readState_vital
  simp only [State.asleep, State.dead, p, q]
  decide +kernel

/-- NT_TIME_L of the PF is a 64-bit register, its other half follows it, and NT_OFFSET is one of 32 bits. -/
theorem witness_register_reads :
    (live.advance 0).frozen = false ∧ readState.dead = false ∧
    (readState.reg64Now .pf 0x21008).isSome = true ∧
    readState.reg64Now .pf 0x2100C = none ∧ readState.reg32Now .pf 0x2100C = none ∧ 0x2100C % 8 = 4 ∧ 0x2100C - 4 = 0x21008 ∧
    readState.reg64Now .pf 0x21010 = none ∧ (readState.reg32Now .pf 0x21010).isSome = true ∧
    readState.reg64Now .pf 0x29000 = none ∧ readState.reg32Now .pf 0x29000 = none ∧ 0x29000 % 8 ≠ 4 ∧
    (sizeOk 0x29000 4 && assigned .pf 0x29000) = false := by
  refine ⟨by decide +kernel, readState_awake.2, ?_, ?_, ?_, by decide, by decide, ?_, ?_, ?_, ?_, by decide, by decide⟩ <;>
    simp [State.reg64Now, State.reg32Now, readState_awake.1, State.reg64, State.reg32, State.pf64, State.pf32, State.fnServing]

/-- An INGEST of one image from host memory into a stand-in's sequence. -/
theorem witness_ingest : ∃ (x y : State) (c : Cmd) (q : SeqD) (bs : List Byte),
    standing.taken 0 source dIngest (inlineOf dIngest (some (zeros 65536))) ingestLayout x c ∧ x.seqOf c.ridge c.d.handle = some q ∧
    (x.ridge c.ridge).standin = true ∧ q.state = .opened ∧ q.hasLayer c.d.layer = true ∧
    q.pageOf (x.nextPos q c.d.handle c.d.layer) + c.d.imagesM1 ≤ pageMax ∧ x.tagParams c.d false = true ∧ x.srcParams c = true ∧
    c.d.srcOf.qsrc ≠ 0 ∧ x.source c ((c.d.imagesM1 + 1) * 65536) (some (zeros 65536)) = (y, some bs) := by
  have h : dIngest.srcOf.qsrc = 3 := by decide +kernel
  have hl : inlineOf dIngest (some (zeros 65536)) = [] := by simp [inlineOf, h]
  have hm : (dIngest.imagesM1 + 1) * 65536 = 65536 := by decide +kernel
  refine ⟨front standing dIngest [], (((front standing dIngest []).readHost source dIngest.srcOf.addr 65536).event none 0x0D 65536),
    cmd dIngest [], seq5, zeros 65536, ⟨by decide +kernel, ?_, by decide +kernel⟩, by decide +kernel, by decide +kernel, rfl,
    by decide +kernel, by decide +kernel, by decide +kernel, by decide +kernel, by decide +kernel, ?_⟩
  · rw [hl]; decide +kernel
  · have hc : (cmd dIngest []).d = dIngest := rfl
    have hs : (cmd dIngest []).src = source := rfl
    have hz : (zeros 65536).length = 65536 := List.length_replicate
    have ht : (zeros 65536).take 65536 = zeros 65536 := List.take_of_length_le (Nat.le_of_eq hz)
    simp only [State.source, hc, hs, h, hm, hz, ht, Nat.lt_irrefl, reduceCtorEq, if_false, if_true]

/-- A clock that ranks above the master heard on the same breakout. -/
theorem witness_announce :
    (timed .locked .none).ptpOn = true ∧ ((timed .locked .none).ptpFront 0 0).2 = true ∧
    ∀ e ∈ ((timed .locked .none).ptpFront 0 0).1.time.heard,
      (e.1 = 0 ∧ e.2.gmIdentity = 2) ∨ lexLess (announceKey { master with priority1 := 0, gmIdentity := 2 } 0) (announceKey e.2 e.1) = true := by
  decide +kernel

/-- Of two clocks on one breakout the better one is the master (R301). -/
theorem test_best_master :
    (((timed .locked .none).hear 0 { master with priority1 := 2, gmIdentity := 2 }).time.master = some (0, master)) ∧
    (((timed .locked .none).hear 0 { master with priority1 := 0, gmIdentity := 2 }).time.master =
      some (0, { master with priority1 := 0, gmIdentity := 2 })) := by
  decide +kernel

/-- Slots beyond a bound that are all free suffice for what is still wanted. -/
theorem slotsFrom_isSome (s : State) (c : Nat) (gs ex : List Nat) (b : Nat) (h : ∀ x, b ≤ x → s.slotIsFree c x gs ex = true)
    (fuel x n : Nat) (hn : n + (b - x) ≤ fuel) : (s.slotsFrom c gs ex x fuel n).isSome = true := by
  induction fuel generalizing x n with
  | zero => obtain rfl : n = 0 := by omega
            rfl
  | succ k ih =>
    unfold State.slotsFrom
    split
    · rfl
    · split
      · simp only [Option.isSome_map]
        exact ih _ _ (by omega)
      · next hf =>
        have hx : x < b := by
          rcases Nat.lt_or_ge x b with g | g
          · exact g
          · exact absurd (h x g) hf
        exact ih _ _ (by omega)

/-- The node as CTR_CREATE finds it. -/
def indexState : State := live.atMsg 0 h1 0x003C

theorem indexState_free (c i : Nat) : indexState.groupIsFree c i [] [] = true := by
  have hp : indexState.pages = [] := by decide +kernel
  simp [State.groupIsFree, State.slotIsFree, hp, FMap.get?]

/-- Row groups that are all free are taken in order. -/
theorem groupsFrom_free (s : State) (c : Nat) (h : ∀ i, s.groupIsFree c i [] [] = true) (fuel i n : Nat) (hn : n ≤ fuel) :
    s.groupsFrom c [] [] i fuel n = some (List.range' i n) := by
  induction fuel generalizing i n with
  | zero => obtain rfl : n = 0 := by omega
            rfl
  | succ k ih =>
    cases n with
    | zero => simp [State.groupsFrom]
    | succ n => simp [State.groupsFrom, h, ih (i + 1) n (by omega), List.range'_succ]

theorem indexState_empty : indexState.groupsTaken 0 = [] ∧ indexState.extraTaken 0 = [] ∧ indexState.pages = [] := by
  and_intros <;> decide +kernel

theorem indexState_groups : indexState.findGroups 0 160 = some (List.range' 0 160) := by
  unfold State.findGroups
  rw [indexState_empty.1, indexState_empty.2.1]
  exact groupsFrom_free _ _ (indexState_free 0) _ _ _ (by decide)

theorem indexParams_sizes : (indexParams.stripes + 1) * indexParams.stripeRows = 160 ∧ indexParams.extraSlots + (1125 - 0) ≤ slotsPerCirque := by
  and_intros <;> decide +kernel

theorem indexState_slots : (indexState.findSlots 0 indexParams.extraSlots (List.range' 0 160)).isSome = true := by
  unfold State.findSlots
  rw [indexState_empty.1, indexState_empty.2.1]
  refine slotsFrom_isSome _ _ _ _ 1125 (fun x hx => ?_) _ _ _ indexParams_sizes.2
  have hx : 160 ≤ (x - 5) / 7 := by omega
  simp [State.slotIsFree, indexState_empty.2.2, FMap.get?]
  omega

theorem reserveIndex_isSome (s : State) (p : IndexParams) (c : Nat) (gs ex : List Nat)
    (hg : s.findGroups c ((p.stripes + 1) * p.stripeRows) = some gs) (hs : s.findSlots c p.extraSlots gs = some ex) :
    (s.reserveIndex p [c]).isSome = true := by
  have h : s.reserveIn p c = some (gs, ex) := by
    unfold State.reserveIn
    rw [hg]
    dsimp only
    rw [hs]
    rfl
  simp [State.reserveIndex, h]

/-- The smallest index fits a cirque that holds nothing. -/
theorem witness_index_fits : (indexState.reserveIndex indexParams [0]).isSome = true := by
  obtain ⟨v, hv⟩ := Option.isSome_iff_exists.mp indexState_slots
  exact reserveIndex_isSome _ _ _ _ _ (by rw [indexParams_sizes.1]; exact indexState_groups) hv

end Sys2Proof.Tests
end

section
/-! SUPPORT. Stale handles (R53): when a handle names no sequence, what the checks of a command that reads it then answer, and what is
left of the stored content when a taken command is turned away. -/

namespace Sys2Proof.Machine

open Sys2Proof

/-- A handle names no sequence of a ridge exactly when it is stale for it. -/
theorem State.seqOf_eq_none_iff (s : State) (r h : Nat) :
    s.seqOf r h = none ↔
      (handleGen h = 0 ∨ s.seqs.get? (handleIdx h) = none ∨
        ∃ q, s.seqs.get? (handleIdx h) = some q ∧ (q.gen ≠ handleGen h ∨ q.ridge ≠ r)) := by
  unfold State.seqOf
  cases s.seqs.get? (handleIdx h) with
  | none => simp
  | some q =>
    simp only [ite_eq_right_iff, reduceCtorEq, imp_false, Option.some.injEq, exists_eq_left', false_or]
    tauto

/-- Check 4 answers BAD_HANDLE for a stale handle, whatever checks follow it. -/
theorem firstFail_handleOk_of_stale {x : State} {r h : Nat} {rest : List (Bool × Status)} (hs : x.seqOf r h = none) :
    firstFail ((x.handleOk r h, .badHandle) :: rest) = some .badHandle := by
  simp [firstFail, State.handleOk, hs]

theorem appendChecks_of_stale {x : State} {c : Cmd} (hs : x.seqOf c.ridge c.d.handle = none) :
    firstFail (appendChecks x c) = some .badHandle := by
  unfold appendChecks
  simp only [hs]
  rfl

theorem attendChecks_of_stale {x : State} {c : Cmd} (hs : x.seqOf c.ridge c.d.handle = none) :
    firstFail (attendChecks x c) = some .badHandle := by
  unfold attendChecks
  simp only [hs]
  rfl

theorem gradChecks_of_stale {send : Bool} {x : State} {c : Cmd} (hs : x.seqOf c.ridge c.d.handle = none) :
    firstFail (gradChecks send x c) = some .badHandle := by
  unfold gradChecks
  simp only [hs]
  rfl

theorem prefetchChecks_of_stale {x : State} {c : Cmd} (hs : x.seqOf c.ridge c.d.handle = none) :
    firstFail (prefetchChecks x c) = some .badHandle :=
  firstFail_handleOk_of_stale hs

/-- A taken data-path command that fails a check of its opcode is turned away with that check's status. -/
theorem State.taken_rejected {s : State} {t : Nat} {src : Src} {d : Desc} {inl : List Byte} {layout : List (Nat × Nat × Nat)}
    {checks : State → Cmd → List (Bool × Status)} {run : State → Cmd → State} {x : State} {c : Cmd} {st : Status}
    (h : s.taken t src d inl layout x c) (hc : firstFail (checks x c) = some st) :
    s.command t src d inl layout checks run = .next (x.reject c st 0 0) := by
  obtain ⟨hfrozen, htake, hpre⟩ := h
  unfold State.command
  simp only [hfrozen, htake, hpre, hc, Bool.false_eq_true, if_false]

/-- Taking a command leaves the stored content as it was. -/
theorem State.taken_store {s : State} {t : Nat} {src : Src} {d : Desc} {inl : List Byte} {layout : List (Nat × Nat × Nat)}
    {x : State} {c : Cmd} (h : s.taken t src d inl layout x c) : x.store = s.store := by
  obtain ⟨-, htake, -⟩ := h
  calc x.store = ((s.advance t).take src d inl).1.store := by rw [htake]
    _ = s.store := by rw [State.take_store, State.advance_store]

/-- Every command whose check 4 reads a sequence handle is turned away with BAD_HANDLE when that handle is stale. -/
theorem exec_of_stale_handle {i : Instr} {s : State} {t : Nat} {src : Src} {d : Desc} {inl : List Byte}
    {layout : List (Nat × Nat × Nat)} {x : State} {c : Cmd} (hd : i.dataPath = some (t, src, d, inl, layout))
    (hn : i.namesSeq = true) (ht : s.taken t src d inl layout x c) (hs : x.seqOf c.ridge c.d.handle = none) :
    exec i s = .next (x.reject c .badHandle 0 0) := by
  cases i with
  | append =>
    cases hd
    exact State.taken_rejected ht (appendChecks_of_stale hs)
  | sealSeq =>
    cases hd
    exact State.taken_rejected ht (firstFail_handleOk_of_stale hs)
  | fork =>
    cases hd
    exact State.taken_rejected ht (by simp only [hs]; rfl)
  | free =>
    cases hd
    exact State.taken_rejected ht (firstFail_handleOk_of_stale hs)
  | ingest =>
    cases hd
    exact State.taken_rejected ht (by simp only [hs]; rfl)
  | read =>
    cases hd
    exact State.taken_rejected ht (by simp only [hs]; rfl)
  | prefetch =>
    cases hd
    exact State.taken_rejected ht (prefetchChecks_of_stale hs)
  | develop =>
    cases hd
    exact State.taken_rejected ht (attendChecks_of_stale hs)
  | reverse =>
    cases hd
    exact State.taken_rejected ht (attendChecks_of_stale hs)
  | gradSend =>
    cases hd
    exact State.taken_rejected ht (gradChecks_of_stale hs)
  | gradClear =>
    cases hd
    exact State.taken_rejected ht (gradChecks_of_stale hs)
  | _ => cases hn

/-- Settles O40: check 4 answers BAD_HANDLE in each command that reads a sequence handle, and neither taking a command nor turning it
away touches the stored content. -/
theorem staleHandlesAreRefused : Obligations.StaleHandlesAreRefused := by
  refine ⟨State.seqOf_eq_none_iff, fun i s t src d inl layout x c hd hn ht hs => ⟨?_, ?_⟩⟩
  · exact exec_of_stale_handle hd hn ht hs
  · rw [State.reject_store, State.taken_store ht]

end Sys2Proof.Machine
end

section
/-! SUPPORT. Exposures (R142) and the window of tags (R143): when an instant lies in an exposure, and what condition 3 of R390 asks of a
tag. -/

namespace Sys2Proof.Machine

open Sys2Proof

/-- An instant lies in the exposure that has opened by then and whose successor has not, negative exposures included. -/
theorem exposureAt_eq_iff {f : Fabric} (hp : 0 < f.period) (now : Nat) (k : Int) :
    exposureAt f now = k ↔ (f.t0 : Int) + k * f.period ≤ now ∧ (now : Int) < f.t0 + (k + 1) * f.period := by
  have hp' : (0 : Int) < f.period := by exact_mod_cast hp
  have lower : k ≤ exposureAt f now ↔ k * f.period ≤ (now : Int) - f.t0 := Int.le_ediv_iff_mul_le hp'
  have upper : exposureAt f now < k + 1 ↔ (now : Int) - f.t0 < (k + 1) * f.period := Int.ediv_lt_iff_lt_mul hp'
  omega

theorem exposureAt_neg_of_lt {f : Fabric} {now : Nat} (hp : 0 < f.period) (h : now < f.t0) : exposureAt f now < 0 :=
  Int.ediv_neg_of_neg_of_pos (by omega) (by exact_mod_cast hp)

/-- From T0 on, the current exposure is the one between whose opening and the next opening the instant lies. -/
theorem exposureAt_eq_natCast_iff {f : Fabric} (hp : 0 < f.period) (now n : Nat) :
    exposureAt f now = n ↔ openingOf f n ≤ now ∧ now < openingOf f (n + 1) := by
  rw [exposureAt_eq_iff hp, openingOf, openingOf]
  norm_cast

/-- Condition 3 of R390 keeps a tag in the window of R143. -/
theorem State.tagOk_window {s : State} {f : Fabric} {n : Nat} (h : s.tagOk f n = true) :
    exposureAt f s.now - 16 ≤ (n : Int) ∧ (n : Int) ≤ exposureAt f s.now + 4 := by
  simp only [State.tagOk, Bool.and_eq_true, decide_eq_true_eq] at h
  obtain ⟨⟨⟨-, hlow⟩, hhigh⟩, -⟩ := h
  exact ⟨hlow, hhigh⟩

theorem State.tagOk_of_outside_window {s : State} {f : Fabric} {n : Nat}
    (h : (n : Int) < exposureAt f s.now - 16 ∨ exposureAt f s.now + 4 < (n : Int)) : s.tagOk f n = false := by
  refine Bool.eq_false_iff.mpr fun hok => ?_
  have hwindow := State.tagOk_window hok
  omega

/-- An EXPOSURE field has 44 bits and no sign. -/
theorem Desc.exposure_lt (d : Desc) : d.exposure < 2 ^ 44 := Nat.mod_lt _ (Nat.two_pow_pos 44)

theorem State.deadlineFor_of_tagged {s : State} {f : Fabric} {d : Desc} (hf : s.fab.cur = some f) (ht : d.tagged = true) :
    s.deadlineFor d = deadlineOf f d.exposure d.deadlineUs := by
  simp only [State.deadlineFor, hf, ht, if_true]

/-- Settles O38: the floor and the window of R142 by the bounds of an integer quotient, the rest as the model defines it. -/
theorem exposuresAndDeadlines : Obligations.ExposuresAndDeadlines :=
  ⟨fun _ _ => rfl,
    fun _ now k hp => exposureAt_eq_iff hp now k,
    fun _ _ => exposureAt_neg_of_lt,
    fun _ now n hp => exposureAt_eq_natCast_iff hp now n,
    fun _ _ _ => State.tagOk_window,
    Desc.exposure_lt,
    fun _ _ _ => State.deadlineFor_of_tagged⟩

end Sys2Proof.Machine
end

section
/-! SUPPORT. The conditions of R390: they decide before every check of R92, and a data-path command that fails one of them is turned away
with its status, whatever its opcode. -/

namespace Sys2Proof.Machine

open Sys2Proof

/-- The first failing check stays the first when further checks follow. -/
theorem firstFail_append_of_some {l rest : List (Bool × Status)} {st : Status} (h : firstFail l = some st) :
    firstFail (l ++ rest) = some st := by
  induction l with
  | nil => cases h
  | cons head tail ih =>
    obtain ⟨ok, st'⟩ := head
    cases ok with
    | true => exact ih h
    | false => exact h

/-- A failed condition of R390 decides before every check of R92. -/
theorem State.preCheck_of_conditions {x : State} {c : Cmd} {st : Status} (layout : List (Nat × Nat × Nat))
    (h : firstFail (x.conditions c) = some st) : x.preCheck c layout = some st :=
  firstFail_append_of_some h

/-- Under a description, a tag that fails condition 3 of R390 ends in STATE_CONFLICT: condition 2, where it fails too, has the same
status. -/
theorem State.conditions_of_not_tagOk {x : State} {c : Cmd} {f : Fabric} (hf : x.fab.cur = some f) (ht : c.d.tagged = true)
    (hn : x.tagOk f c.d.exposure = false) : firstFail (x.conditions c) = some .stateConflict := by
  simp only [State.conditions, hf, ht, hn, firstFail, Option.isSome_some, Bool.not_true, Bool.or_self, Bool.false_eq_true, if_false,
    ite_self]

/-- A data-path command that is taken and fails a condition of R390 or a check from 1 to 3 of R92 is turned away with that status. -/
theorem State.command_of_preCheck {s : State} {t : Nat} {src : Src} {d : Desc} {inl : List Byte} {layout : List (Nat × Nat × Nat)}
    (checks : State → Cmd → List (Bool × Status)) (run : State → Cmd → State) {x : State} {c : Cmd} {st : Status}
    (hfrozen : (s.advance t).frozen = false) (htake : (s.advance t).take src d inl = (x, some c))
    (hpre : x.preCheck c layout = some st) :
    s.command t src d inl layout checks run = .next ((x.reject c st 0 0).noteDrained c) := by
  unfold State.command
  simp only [hfrozen, htake, hpre, Bool.false_eq_true, if_false]

/-- Every command of the data path is `State.command` with the checks and the meaning of its opcode. -/
theorem exec_of_dataPath {i : Instr} {t : Nat} {src : Src} {d : Desc} {inl : List Byte} {layout : List (Nat × Nat × Nat)}
    (hd : i.dataPath = some (t, src, d, inl, layout)) (s : State) :
    ∃ checks run, exec i s = s.command t src d inl layout checks run := by
  cases i with
  | openSeq | append | sealSeq | fork | free | ingest | read | prefetch | develop | reverse | composite | gradSend | gradClear | query
  | insert | delete | ctrMerge | cairn | cairnHoldEnter | cairnHoldLeave =>
    cases hd
    exact ⟨_, _, rfl⟩
  | _ => cases hd

/-- A command of an undefined opcode is turned away with the condition of R390 that it fails (R389). -/
theorem exec_undefinedCommandOpcode_of_conditions {s : State} {t : Nat} {src : Src} {d : Desc} {x : State} {c : Cmd} {st : Status}
    (hfrozen : (s.advance t).frozen = false) (htake : (s.advance t).take src d [] = (x, some c))
    (hc : firstFail (x.conditions c) = some st) :
    exec (.undefinedCommandOpcode t src d) s = .next ((x.reject c st 0 0).noteDrained c) := by
  change execUndefinedCommandOpcode t src d s = _
  unfold execUndefinedCommandOpcode
  simp only [hfrozen, htake, hc, Option.getD_some, Bool.false_eq_true, if_false]

/-- Settles O39: a tag outside the window fails condition 3 of R390, which stands before every check of R92 in the commands of the data
path and before MALFORMED in an undefined opcode. -/
theorem tagsOutsideTheWindowConflict : Obligations.TagsOutsideTheWindowConflict := by
  intro i s t src d inl layout x c f hi hfrozen htake hf htag hout
  have hc : firstFail (x.conditions c) = some .stateConflict :=
    State.conditions_of_not_tagOk hf htag (State.tagOk_of_outside_window hout)
  rcases hi with hd | ⟨rfl, rfl⟩
  · obtain ⟨checks, run, hexec⟩ := exec_of_dataPath hd s
    rw [hexec]
    exact State.command_of_preCheck checks run hfrozen htake (State.preCheck_of_conditions layout hc)
  · exact exec_undefinedCommandOpcode_of_conditions hfrozen htake hc

end Sys2Proof.Machine
end

section
/-! SUPPORT. Takeovers (R312, R313): what the passing of time and the accounting of idle slots leave of a breakout, and what a gate takeover
and a shutter takeover each make of it. -/

namespace Sys2Proof.Machine

open Sys2Proof

-- A list that takes over.

theorem Sched.takeover_of_due {g : Sched} {entries : List (Nat × Nat)} {at_ now : Nat} (hp : g.pend = some (entries, at_))
    (hdue : at_ ≤ now) : g.takeover now = { run := { entries := entries, base := at_ }, pend := none } := by
  simp only [Sched.takeover, hp, if_pos hdue]

theorem Sched.takeover_of_pend_none {g : Sched} (hp : g.pend = none) (now : Nat) : g.takeover now = g := by
  simp only [Sched.takeover, hp]

theorem Sched.takeover_of_early {g : Sched} {entries : List (Nat × Nat)} {at_ now : Nat} (hp : g.pend = some (entries, at_))
    (hearly : now < at_) : g.takeover now = g := by
  simp only [Sched.takeover, hp, if_neg (Nat.not_le.mpr hearly)]

-- Breakouts while time passes and idle slots are counted.

/-- What serves a mailbox, or only counts, leaves the breakouts. -/
theorem State.mailStep_brks {k : Nat} {s x : State} (h : State.mailStep k s x) : x.brks = s.brks := by
  obtain ⟨hmail, -, -⟩ := h
  exact (congrArg State.brks hmail : x.sansMail.brks = s.sansMail.brks)

@[simp] theorem State.advance_brks (s : State) (t : Nat) : (s.advance t).brks = s.brks :=
  State.mailStep_brks (State.advance_mail 0 s t)

@[simp] theorem State.bumpBy_brks (s : State) (c : Ctr) (n : Nat) : (s.bumpBy c n).brks = s.brks :=
  State.mailStep_brks (State.bumpBy_mail 0 s c n)

@[simp] theorem State.foldl_bumpBy_brks (l : List Nat) (c : Nat → Ctr) (n : Nat → Nat) (s : State) :
    (l.foldl (fun s r => s.bumpBy (c r) (n r)) s).brks = s.brks :=
  foldl_keeps _ _ State.brks (fun s _ => State.bumpBy_brks s _ _) s

@[simp] theorem State.foldl_bumpBy_time (l : List Nat) (c : Nat → Ctr) (n : Nat → Nat) (s : State) :
    (l.foldl (fun s r => s.bumpBy (c r) (n r)) s).time = s.time :=
  foldl_keeps _ _ State.time (fun s _ => State.bumpBy_time s _ _) s

@[simp] theorem State.event_brks (s : State) (c : Option Nat) (ev qty : Nat) : (s.event c ev qty).brks = s.brks :=
  State.mailStep_brks (State.event_mail 0 s c ev qty)

@[simp] theorem State.modBrk_now (s : State) (x : Nat) (f : Breakout → Breakout) : (s.modBrk x f).now = s.now := rfl

theorem State.brk_of_get? {s : State} {x : Nat} {b : Breakout} (h : s.brks.get? x = some b) : s.brk x = b := by
  simp only [State.brk, h, Option.getD_some]

theorem State.modBrk_get? {s : State} {x : Nat} {b : Breakout} (h : s.brks.get? x = some b) (f : Breakout → Breakout) :
    (s.modBrk x f).brks.get? x = some (f b) := by
  rw [State.modBrk_brks, FMap.get?_adjust, h, Option.map_some]

/-- Time has passed up to the command's instant. -/
theorem State.le_advance_now (s : State) (t : Nat) : t % 2 ^ 64 ≤ (s.advance t).now := by
  simp only [State.advance, State.now]
  split
  · assumption
  · exact le_rfl

theorem State.advance_of_le_now {s : State} {t : Nat} (h : t % 2 ^ 64 ≤ s.now) : s.advance t = s :=
  if_pos h

@[simp] theorem State.accountIdle_now (s : State) (x now : Nat) : (s.accountIdle x now).now = s.now := by
  unfold State.accountIdle
  dsimp only
  split
  · rfl
  · split <;> simp [State.now]

/-- Accounting idle slots moves the breakout's accounting instant and nothing else of it. -/
theorem State.accountIdle_get? {s : State} {x : Nat} {b : Breakout} (h : s.brks.get? x = some b) (now : Nat) :
    (s.accountIdle x now).brks.get? x = some { b with idleAt := max b.idleAt now } := by
  unfold State.accountIdle
  simp only [State.brk_of_get? h]
  split
  next hle => rw [h, max_eq_left hle]
  next hlt =>
    rw [max_eq_right (Nat.le_of_not_le hlt)]
    refine State.modBrk_get? ?_ _
    split <;> simp [h]

-- The two takeovers.

/-- A gate takeover brings the ridge's gate list to the one that governs at the instant, and changes nothing else of the breakout. -/
theorem exec_gateTakeover_get? {s : State} {x : Nat} {b : Breakout} (h : s.brks.get? x = some b) (t r : Nat) :
    (after (exec (.gateTakeover t r x) s) s).brks.get? x =
      some { b with gates := b.gates.adjust r (·.takeover (s.advance t).now) } :=
  State.modBrk_get? ((s.advance_brks t).symm ▸ h) _

theorem exec_gateTakeover_now (t r x : Nat) (s : State) : (after (exec (.gateTakeover t r x) s) s).now = (s.advance t).now := rfl

theorem exec_shutterTakeover_of_pend_none {s : State} {t x : Nat} {b : Breakout} (h : s.brks.get? x = some b)
    (hp : b.shutter.pend = none) : exec (.shutterTakeover t x) s = .next (s.advance t) := by
  have hb : (s.advance t).brk x = b := State.brk_of_get? ((s.advance_brks t).symm ▸ h)
  change execShutterTakeover t x s = _
  simp only [execShutterTakeover, hb, hp]

theorem exec_shutterTakeover_of_pend {s : State} {t x : Nat} {b : Breakout} {slots : List (Nat × Nat)} {at_ : Nat}
    (h : s.brks.get? x = some b) (hp : b.shutter.pend = some (slots, at_)) :
    exec (.shutterTakeover t x) s =
      if (s.advance t).now < at_ then .next (s.advance t)
      else .next (((s.advance t).accountIdle x at_).modBrk x (fun b => { b with shutter := b.shutter.takeover (s.advance t).now })) := by
  have hb : (s.advance t).brk x = b := State.brk_of_get? ((s.advance_brks t).symm ▸ h)
  change execShutterTakeover t x s = _
  simp only [execShutterTakeover, hb, hp, State.accountIdle_now]

/-- A shutter takeover leaves a breakout's gates, and its shutter is the one that governs at the instant. -/
theorem exec_shutterTakeover_brk {s : State} {x : Nat} {b : Breakout} (h : s.brks.get? x = some b) (t : Nat) :
    let v := after (exec (.shutterTakeover t x) s) s
    (v.brk x).gates = b.gates ∧ (v.brk x).shutter = b.shutter.takeover (s.advance t).now := by
  have ha : (s.advance t).brks.get? x = some b := (s.advance_brks t).symm ▸ h
  dsimp only
  cases hp : b.shutter.pend with
  | none =>
    rw [exec_shutterTakeover_of_pend_none h hp, after, State.brk_of_get? ha, Sched.takeover_of_pend_none hp]
    exact ⟨rfl, rfl⟩
  | some p =>
    obtain ⟨slots, at_⟩ := p
    rw [exec_shutterTakeover_of_pend h hp]
    split
    next hearly =>
      rw [after, State.brk_of_get? ha, Sched.takeover_of_early hp hearly]
      exact ⟨rfl, rfl⟩
    next =>
      rw [after, State.brk_of_get? (State.modBrk_get? (State.accountIdle_get? ha at_) _)]
      exact ⟨rfl, rfl⟩

/-- Settles O56: the gate takeover rewrites one gate list, the shutter takeover at the same instant rewrites the shutter, and network time
is the same at both. -/
theorem takeoversAreIndependent : Obligations.TakeoversAreIndependent := by
  intro s t r x b hb u v
  have hu : u.brks.get? x = some { b with gates := b.gates.adjust r (·.takeover (s.advance t).now) } := exec_gateTakeover_get? hb t r
  have hub := State.brk_of_get? hu
  have hunow : u.now = (s.advance t).now := exec_gateTakeover_now t r x s
  have hnow : (u.advance t).now = (s.advance t).now := by
    rw [State.advance_of_le_now (hunow ▸ s.le_advance_now t), hunow]
  obtain ⟨hgates, hshutter⟩ := exec_shutterTakeover_brk hu t
  refine ⟨by rw [hub], hgates.trans (by rw [hub]), fun g entries at_ hg hp hdue => ?_, fun slots at_ hp hdue => ?_⟩
  · rw [hgates, FMap.get?_adjust, hg, Option.map_some, Sched.takeover_of_due hp hdue]
  · rw [hshutter, hnow, Sched.takeover_of_due hp hdue]

end Sys2Proof.Machine
end

section
/-! SUPPORT. The whole node: a step runs the front command, every command ends in a next state, and what a command leaves of the settings
and of the queue. -/

namespace Sys2Proof.Machine

open Sys2Proof

-- The step.

theorem step_eq_exec {s : State} {c : Instr} {rest : List Instr} (h : s.pending = c :: rest) :
    step s = exec c { s with pending := rest } := by
  simp only [step, h]

theorem step_of_pending_nil {s : State} (h : s.pending = []) : step s = .next s := by
  simp only [step, h]

theorem after_of_next {o : Host.Outcome State Fault Refusal} {s x : State} (h : o = .next x) : after o s = x := by rw [h, after]

/-- Settles O1. -/
theorem stepRunsFrontCommand : Obligations.StepRunsFrontCommand := fun _ _ _ => step_eq_exec

/-- Settles O2. -/
theorem emptyQueueIdles : Obligations.EmptyQueueIdles := fun _ => step_of_pending_nil

/-- Messages, data-path commands and BAR writes go on by the lemma of their shared operation; every branch of an event's meaning is a next
state. -/
theorem exec_next (c : Instr) (s : State) : ∃ x, exec c s = .next x := by
  cases c with
  | hello | idGet | certGet | attest | fabricSet | fabricGet | ridgeOpen | ridgeModify | ridgeDrain | ridgeOpenAgain | ridgeClose |
  ridgeGet | ringCreate | ringDestroy | ringReset | ringGet | connCreate | connReset | connClose | connGet | mprogLoad | mprogClear |
  cbufCreate | cbufDestroy | cscrCreate | cscrDestroy | ctrCreate | ctrDestroy | pskrCreate | pskrDestroy | loupeSetAdd | loupeSetDelete |
  loupeSetReplace | portSet | ntStep | cbsSet | gateSet | shtSet | shtGet | fwStage | fwActivate | fwFloor | ownerEnrol | pwrEnter |
  resetWarm | ridgeReset | cirqueReset | stripRun | errRead | healthGet | shadowSet | shadowSetRelease | inject | injectClear |
  belaySetDrain | belaySetMirror | belaySetStandin | belaySetLease | leaseGet | meterRead | epochDrain | epochDrainEndNow | stopAt |
  stopAtCancel | stopAtRelease | watchdogSet | traceSetEvsel | traceSetRecords | traceSetMode | traceSetDump | mboxUnsupportedOpcode =>
    exact State.message_next _ _ _ _ _ _ _ _
  | openSeq | append | sealSeq | fork | free | ingest | read | prefetch | develop | reverse | composite | gradSend | gradClear | query |
  insert | delete | ctrMerge | cairn | cairnHoldEnter | cairnHoldLeave =>
    exact State.command_next _ _ _ _ _ _ _ _
  | ringDb | cqHead | intCauseClear | intEnable | flmMark | registerWrite =>
    dsimp only [exec, execRingDb, execCqHead, execIntCauseClear, execIntEnable, execFlmMark, execRegisterWrite]
    exact State.arrive_next _ _ _ _ _ _ _
  | barBadAccess =>
    dsimp only [exec, execBarBadAccess]
    split
    · exact State.arrive_next _ _ _ _ _ _ _
    · split <;> exact ⟨_, rfl⟩
  | wakeEvent =>
    dsimp only [exec, execWakeEvent]
    split
    · exact State.arrive_next _ _ _ _ _ _ _
    · split <;> exact ⟨_, rfl⟩
  | _ =>
    dsimp only [exec, execMboxOverrun, execLowWordRead, execWrite, execWriteImm, execReadReq, execReadResp, execCommand, execAck,
    execSack, execNack, execConnect, execAccept, execRefuse, execMessageNotify, execContextFetchDone, execRtoExpiry, execAckDelayExpiry,
    execConnectResend, execRetryAfterExpiry, execConnCloseTimeout, execOldKeyExpiry, execPtpSync, execPtpAnnounce, execPtpDelayResp,
    execSyncTimeout, execHoldoverSecond, execPpsInEdge, execPpsLoss, execPpsOutEdge, execArpRx, execEthFrameDrop, execWakeFrame,
    execEgressDecision, execLinkDown, execLinkUp, execGateTakeover, execShutterTakeover, execFabricActivation, execDrainDeadline,
    execExposureBoundary, execDeadlineInstant, execQueryPlaced, execThinPhaseDone, execItemDispatch, execItemComplete, execMergeAccept,
    execSpillComplete, execFillComplete, execRequestFinish, execOutputDelivered, execPageSeal, execRingReuseResume, execForkResume,
    execSequenceRelease, execRingSpanFetch, execCoalTimeout, execStripeSwitch, execSegmentComplete, execModeEntryComplete, execCairnTick,
    execRefreshDue, execLingerExpiry, execPatrolRead, execScrubPass, execHealthDecay, execAdvisoryMinute, execLeaseRecordSend,
    execLeaseExpiry, execOrphanReclaim, execInjectExpiry, execWatchdogFire, execFilmstripSync, execStopCut, execCutWritten,
    execHoldMaxExpiry, execThrottleStep, execSensorUpdate, execFwSwitch, execRidgeOpened, execRidgeCloseComplete, execRidgeZeroed,
    execPwrEntryComplete, execA0Reported, execCellRegate, execStripComplete, execColdReset, execPerstReset, execFunctionLevelReset,
    execSupplyExcursion, execClockLoss, execThermtrip, execClockReturn, execTrngHealthFailure, execWarmResetComplete,
    execRidgeResetComplete, execAttestReportHoldExpiry, execSubmissionFetchComplete, execPcieReadFailed, execUndefinedCommandOpcode,
    execPcieReplay, execSriovVfEnable]
    (repeat' split) <;> exact ⟨_, rfl⟩

/-- Settles O3, by the shared operation of each family of commands. -/
theorem everyCommandGoesOn : Obligations.EveryCommandGoesOn := exec_next

-- The settings.

/-- Only the listed commands change a setting: a VF's message that needs the rights of ridge 0 is denied, and every other command leaves
them as its own lemma says. -/
theorem exec_settings (c : Instr) (s : State) (hc : c.mayChangeSettings = false) :
    (after (exec c s) s).settings = s.settings := by
  cases c with
  | fabricSet | portSet | fwStage | fwActivate | fwFloor | ownerEnrol | resetWarm | stripRun | epochDrain | epochDrainEndNow =>
    exact State.mbox_denied _ _ _ _ _ _ (by simpa [Instr.mayChangeSettings] using hc)
  | fabricActivation | drainDeadline | exposureBoundary | throttleStep | fwSwitch | a0Reported | stripComplete | coldReset
  | perstReset | supplyExcursion | clockLoss | thermtrip | clockReturn | trngHealthFailure | warmResetComplete | sriovVfEnable =>
    cases hc
  | _ => simp [exec]

/-- A command that changes settings leaves them in their ranges. -/
theorem exec_settings_ok (c : Instr) (s : State) (hs : s.settings.ok = true) : (after (exec c s) s).settings.ok = true := by
  by_cases hc : c.mayChangeSettings = false
  · exact settings_ok_of_eq (exec_settings c s hc) hs
  cases c with
  | fabricSet => exact execFabricSet_ok _ _ _ _ hs
  | portSet => exact execPortSet_ok _ _ _ _ _ _ _ hs
  | fwStage => exact execFwStage_ok _ _ _ _ hs
  | fwActivate => exact execFwActivate_ok _ _ _ _ hs
  | fwFloor => exact execFwFloor_ok _ _ _ _ hs
  | ownerEnrol => exact execOwnerEnrol_ok _ _ _ _ _ hs
  | resetWarm => exact execResetWarm_ok _ _ _ hs
  | stripRun => exact execStripRun_ok _ _ _ _ hs
  | epochDrain => exact execEpochDrain_ok _ _ _ _ hs
  | epochDrainEndNow => exact execEpochDrainEndNow_ok _ _ _ hs
  | perstReset => exact execPerstReset_ok _ _ hs
  | a0Reported => exact execA0Reported_ok _ _ _ hs
  | fabricActivation => exact execFabricActivation_ok _ _ hs
  | drainDeadline => exact execDrainDeadline_ok _ _ hs
  | exposureBoundary => exact execExposureBoundary_ok _ _ _ hs
  | throttleStep => exact execThrottleStep_ok _ _ _ hs
  | fwSwitch => exact execFwSwitch_ok _ _ _ hs
  | stripComplete => exact execStripComplete_ok _ _ _ hs
  | clockLoss => exact execClockLoss_ok _ _ _ hs
  | clockReturn => exact execClockReturn_ok _ _ _ _ hs
  | warmResetComplete => exact execWarmResetComplete_ok _ _ _ hs
  | coldReset => exact execColdReset_ok _ _ _
  | supplyExcursion => exact execSupplyExcursion_ok _ _ _ _ _ hs
  | sriovVfEnable => exact execSriovVfEnable_ok _ _ _ _ hs
  | trngHealthFailure => exact execTrngHealthFailure_ok _ _ hs
  | thermtrip => exact execThermtrip_ok _ _ _ _ hs
  | _ => exact absurd rfl hc

/-- Settles O34. -/
theorem settingsChangeOnlyByTheirCommands : Obligations.SettingsChangeOnlyByTheirCommands := by
  intro c s x hc hx
  rw [← after_of_next (s := s) hx]
  exact exec_settings c s hc

/-- Settles O33: taking the front command off the queue leaves the ranges, and so does running it. -/
theorem stepsKeepSettingsInRange : Obligations.StepsKeepSettingsInRange := by
  intro s x hs hx
  cases hp : s.pending with
  | nil =>
    rw [step_of_pending_nil hp] at hx
    cases hx
    exact hs
  | cons c rest =>
    rw [step_eq_exec hp] at hx
    rw [← after_of_next (s := { s with pending := rest }) hx]
    exact exec_settings_ok c _ ((settings_ok_iff _).mpr ((settings_ok_iff s).mp hs))

/-- Settles O32. -/
theorem settingsInRangeAtReset : Obligations.SettingsInRangeAtReset := by
  unfold Obligations.SettingsInRangeAtReset
  decide

end Sys2Proof.Machine
end

section
/-! SUPPORT. The queue: no command touches it, those that change settings included. -/

namespace Sys2Proof.Machine

open Sys2Proof

/-- What leaves the settings leaves the queue. -/
theorem pending_of_settings {a b : State} (h : a.settings = b.settings) : a.pending = b.pending := congrArg Settings.pending h

@[simp] theorem State.advance_pending (s : State) (t : Nat) : (s.advance t).pending = s.pending := pending_of_settings (by simp)

@[simp] theorem State.chargeAll_pending (s : State) (f : Bool) : (s.chargeAll f).pending = s.pending := pending_of_settings (by simp)

@[simp] theorem State.film_pending (s : State) (type : Nat) (src : Comp) (ridge : Nat) (body : List Nat) :
    (s.film type src ridge body).pending = s.pending := pending_of_settings (by simp)

@[simp] theorem State.report_pending (s : State) (e : ErrRec) : (s.report e).pending = s.pending := pending_of_settings (by simp)

@[simp] theorem State.bumpN_pending (s : State) (i : Nat) : (s.bumpN i).pending = s.pending := pending_of_settings (by simp)

@[simp] theorem State.raiseCause_pending (s : State) (k bit : Nat) : (s.raiseCause k bit).pending = s.pending :=
  pending_of_settings (by simp)

@[simp] theorem State.answerBusy_pending (s : State) (fn : Option Fn) (st : MStatus) (retry : Nat) (vals : List Nat) :
    (s.answerBusy fn st retry vals).pending = s.pending := pending_of_settings (by simp)

@[simp] theorem State.wakeUp_pending (s : State) (source breakout fn : Nat) : (s.wakeUp source breakout fn).pending = s.pending :=
  pending_of_settings (by simp)

@[simp] theorem foldl_linkLost_pending (l : List Nat) (x : Nat → Nat) (s : State) :
    (l.foldl (fun s b => s.linkLost (x b) false) s).pending = s.pending := pending_of_settings (by simp)

@[simp] theorem MRes.ok_pending (s : State) (vals : List Nat) : (MRes.ok s vals).st.pending = s.pending := rfl
@[simp] theorem MRes.no_pending (s : State) (st : MStatus) : (MRes.no s st).st.pending = s.pending := rfl

/-- A message leaves the queue when its own part does. -/
theorem State.message_pending (s : State) (t : Nat) (i : Instr) (h : MbxHdr) (op : Nat) (defined : Bool) (who : Rights)
    (body : State → MRes) (hb : ∀ s, (body s).st.pending = s.pending) :
    (after (s.message t i h op defined who body) s).pending = s.pending := by
  have hf : ∀ k tag (r : MRes), (State.finishMsg k tag op r).pending = r.st.pending := fun k tag r => pending_of_settings (by simp)
  have ha : ∀ (s : State) k tag st retry vals, (s.answer k tag op st retry vals).pending = s.pending := fun s k tag st retry vals =>
    pending_of_settings (by simp)
  have he : ∀ s : State, (s.event none 0x0F 1).pending = s.pending := fun s => pending_of_settings (by simp)
  have hr : ∀ s : State, (s.fillRequest h op).pending = s.pending := fun s => rfl
  unfold State.message State.serve
  dsimp only
  (repeat' split) <;> simp [hf, ha, he, hr, hb]

theorem State.becomeCurrent_pending (s : State) (f : Fabric) : (s.becomeCurrent f).pending = s.pending :=
  congrArg Settings.pending (s.becomeCurrent_settings f)

theorem State.warmReset_pending (s : State) : s.warmReset.pending = s.pending := by
  have hw : ((List.range 17).foldl State.warmClose s.dropCut).settings = s.settings := by simp
  unfold State.warmReset
  dsimp only
  exact pending_of_settings hw

theorem State.tempo_pending (s : State) (n : Nat) : (s.tempo n).pending = s.pending := by
  unfold State.tempo
  dsimp only
  split
  · rfl
  · refine pending_of_settings (b := { s with sns := { s.sns with lowK := s.sns.issueK } }) (foldl_settings _ _ (fun s r => ?_) _)
    (repeat' split) <;> simp

-- Messages that change settings.

theorem execFabricSet_pending (t : Nat) (h : MbxHdr) (d : FabricMsg) (s : State) :
    (after (execFabricSet t h d s) s).pending = s.pending := by
  refine State.message_pending _ _ _ _ _ _ _ _ fun s => ?_
  split
  · rfl
  · split
    · rfl
    · split
      · exact s.becomeCurrent_pending _
      · rw [MRes.ok_pending, pending_of_settings (State.conflictPending_settings _ _), pending_of_settings (State.raiseAll_settings _ _)]

theorem execPortSet_pending (t : Nat) (h : MbxHdr) (port mode mtu : Nat) (macs : List Nat) (s : State) :
    (after (execPortSet t h port mode mtu macs s) s).pending = s.pending := by
  refine State.message_pending _ _ _ _ _ _ _ _ fun s => ?_
  dsimp only
  split
  · rfl
  · split
    · rfl
    · exact (pending_of_settings (foldl_settings _ _ (by simp) _)).trans (foldl_linkLost_pending _ _ s)

theorem execFwStage_pending (t : Nat) (h : MbxHdr) (img : FwImage) (s : State) :
    (after (execFwStage t h img s) s).pending = s.pending := by
  refine State.message_pending _ _ _ _ _ _ _ _ fun s => ?_
  (repeat' split) <;> rfl

theorem execFwActivate_pending (t : Nat) (h : MbxHdr) (at_ : Nat) (s : State) :
    (after (execFwActivate t h at_ s) s).pending = s.pending := by
  refine State.message_pending _ _ _ _ _ _ _ _ fun s => ?_
  (repeat' split) <;> rfl

theorem execFwFloor_pending (t : Nat) (h : MbxHdr) (value : Nat) (s : State) :
    (after (execFwFloor t h value s) s).pending = s.pending := by
  refine State.message_pending _ _ _ _ _ _ _ _ fun s => ?_
  (repeat' split) <;> rfl

theorem execOwnerEnrol_pending (t : Nat) (h : MbxHdr) (rec : OwnerRec) (release : Option ReleaseRec) (s : State) :
    (after (execOwnerEnrol t h rec release s) s).pending = s.pending := by
  refine State.message_pending _ _ _ _ _ _ _ _ fun s => ?_
  (repeat' split) <;> rfl

theorem execResetWarm_pending (t : Nat) (h : MbxHdr) (s : State) : (after (execResetWarm t h s) s).pending = s.pending := by
  refine State.message_pending _ _ _ _ _ _ _ _ fun s => ?_
  rw [MRes.ok_pending, State.bumpN_pending, State.warmReset_pending]

theorem execStripRun_pending (t : Nat) (h : MbxHdr) (run : StripRun) (s : State) :
    (after (execStripRun t h run s) s).pending = s.pending := by
  refine State.message_pending _ _ _ _ _ _ _ _ fun s => ?_
  split
  · rfl
  · split
    · rfl
    · split
      · rfl
      · split
        · exact (State.bumpN_pending _ _).trans (State.bumpN_pending _ _)
        · exact State.bumpN_pending _ _

theorem execEpochDrain_pending (t : Nat) (h : MbxHdr) (us : Nat) (s : State) :
    (after (execEpochDrain t h us s) s).pending = s.pending := by
  refine State.message_pending _ _ _ _ _ _ _ _ fun s => ?_
  split <;> rfl

theorem execEpochDrainEndNow_pending (t : Nat) (h : MbxHdr) (s : State) :
    (after (execEpochDrainEndNow t h s) s).pending = s.pending :=
  State.message_pending _ _ _ _ _ _ _ _ fun _ => rfl

-- Resets, clocks, supplies and the node's own instants.

theorem State.perst_pending (s : State) : s.perst.pending = s.pending :=
  show ((s.stopRings (fun _ => true)).bumpN 2346).pending = s.pending from pending_of_settings (by simp)

theorem execPerstReset_pending (t : Nat) (s : State) : (after (execPerstReset t s) s).pending = s.pending := by
  unfold execPerstReset
  dsimp only
  split <;> simp [State.perst_pending]

/-- A message that waited through a sleep leaves the queue when it is served. -/
theorem replayRow_pending (i : Instr) (s : State) : (goesOn s (replayRow i s)).pending = s.pending := by
  rw [goesOn_after]
  cases i with
  | fabricSet => exact execFabricSet_pending _ _ _ _
  | portSet => exact execPortSet_pending _ _ _ _ _ _ _
  | fwStage => exact execFwStage_pending _ _ _ _
  | fwActivate => exact execFwActivate_pending _ _ _ _
  | fwFloor => exact execFwFloor_pending _ _ _ _
  | ownerEnrol => exact execOwnerEnrol_pending _ _ _ _ _
  | resetWarm => exact execResetWarm_pending _ _ _
  | stripRun => exact execStripRun_pending _ _ _ _
  | epochDrain => exact execEpochDrain_pending _ _ _ _
  | epochDrainEndNow => exact execEpochDrainEndNow_pending _ _ _
  | perstReset => exact execPerstReset_pending _ _
  | _ => exact pending_of_settings (by simp [replayRow])

theorem State.drainQueued_pending (s : State) : s.drainQueued.pending = s.pending := by
  unfold State.drainQueued
  dsimp only
  rw [pending_of_settings (State.pumpAll_settings _), 
    foldl_keeps (α := Fn × Instr) _ (fun s m => goesOn s (replayRow m.2 s)) State.pending (fun s m => replayRow_pending m.2 s)]
  exact pending_of_settings (foldl_settings _ _ (by simp) _)

theorem execA0Reported_pending (t : Nat) (ok : Bool) (s : State) : (after (execA0Reported t ok s) s).pending = s.pending := by
  have hr : ∀ (s : State) (bad : Bool), (s.reachA0 bad).pending = s.pending := fun s bad => pending_of_settings (by simp)
  unfold execA0Reported
  simp only [ite_after, after_next, apply_ite State.pending, State.drainQueued_pending, hr, State.advance_pending, ite_self]

theorem execFabricActivation_pending (t : Nat) (s : State) : (after (execFabricActivation t s) s).pending = s.pending := by
  unfold execFabricActivation
  dsimp only
  (repeat' split) <;> simp [State.becomeCurrent_pending]

theorem execExposureBoundary_pending (t n : Nat) (s : State) : (after (execExposureBoundary t n s) s).pending = s.pending := by
  have hd : ∀ s : State, s.startDue.pending = s.pending := fun s => pending_of_settings (by simp)
  unfold execExposureBoundary
  dsimp only
  (repeat' split) <;> simp [State.tempo_pending, hd]

theorem execThrottleStep_pending (t k : Nat) (s : State) : (after (execThrottleStep t k s) s).pending = s.pending := by
  simp only [execThrottleStep, ite_after, after_next, State.film_pending, apply_ite State.pending, State.chargeAll_pending,
    State.advance_pending, ite_self]

theorem execFwSwitch_pending (t : Nat) (ok : Bool) (s : State) : (after (execFwSwitch t ok s) s).pending = s.pending := by
  unfold execFwSwitch
  dsimp only
  (repeat' split) <;> simp

theorem execStripComplete_pending (t : Nat) (r : StripResult) (s : State) :
    (after (execStripComplete t r s) s).pending = s.pending := by
  unfold execStripComplete
  dsimp only
  (repeat' split) <;> simp

theorem execClockLoss_pending (t : Nat) (c : Clock) (s : State) : (after (execClockLoss t c s) s).pending = s.pending := by
  unfold execClockLoss
  cases c <;>
    simp only [ite_after, after_next, State.report_pending, foldl_linkLost_pending, apply_ite State.pending, State.chargeAll_pending,
      State.advance_pending, ite_self]

theorem execClockReturn_pending (t : Nat) (clk : Clock) (c : ColdInputs) (s : State) :
    (after (execClockReturn t clk c s) s).pending = s.pending := by
  have hd : ∀ s : State, s.drainBuf.pending = s.pending := fun s => pending_of_settings (by simp)
  unfold execClockReturn
  dsimp only
  (repeat' split) <;> simp [hd, State.cold]

theorem execWarmResetComplete_pending (t : Nat) (c : ColdInputs) (s : State) :
    (after (execWarmResetComplete t c s) s).pending = s.pending := by
  have hw : ((List.range 17).foldl State.warmAbsent (s.advance t)).pending = (s.advance t).pending := pending_of_settings (by simp)
  unfold execWarmResetComplete
  dsimp only
  split <;> simp [hw]

/-- No command changes the queue. -/
theorem exec_pending (c : Instr) (s : State) : (after (exec c s) s).pending = s.pending := by
  by_cases hc : c.mayChangeSettings = false
  · exact pending_of_settings (exec_settings c s hc)
  cases c with
  | fabricSet => exact execFabricSet_pending _ _ _ _
  | portSet => exact execPortSet_pending _ _ _ _ _ _ _
  | fwStage => exact execFwStage_pending _ _ _ _
  | fwActivate => exact execFwActivate_pending _ _ _ _
  | fwFloor => exact execFwFloor_pending _ _ _ _
  | ownerEnrol => exact execOwnerEnrol_pending _ _ _ _ _
  | resetWarm => exact execResetWarm_pending _ _ _
  | stripRun => exact execStripRun_pending _ _ _ _
  | epochDrain => exact execEpochDrain_pending _ _ _ _
  | epochDrainEndNow => exact execEpochDrainEndNow_pending _ _ _
  | perstReset => exact execPerstReset_pending _ _
  | a0Reported => exact execA0Reported_pending _ _ _
  | fabricActivation => exact execFabricActivation_pending _ _
  | exposureBoundary => exact execExposureBoundary_pending _ _ _
  | throttleStep => exact execThrottleStep_pending _ _ _
  | fwSwitch => exact execFwSwitch_pending _ _ _
  | stripComplete => exact execStripComplete_pending _ _ _
  | clockLoss => exact execClockLoss_pending _ _ _
  | clockReturn => exact execClockReturn_pending _ _ _ _
  | warmResetComplete => exact execWarmResetComplete_pending _ _ _
  | drainDeadline | supplyExcursion =>
    dsimp only [exec, execDrainDeadline, execSupplyExcursion]
    split <;> simp [State.cold]
  | coldReset | sriovVfEnable | trngHealthFailure | thermtrip =>
    simp [exec, execColdReset, execSriovVfEnable, execTrngHealthFailure, execThermtrip, State.cold, apply_ite State.pending]
  | _ => exact absurd rfl hc

/-- Settles O35. -/
theorem commandsLeaveTheQueue : Obligations.CommandsLeaveTheQueue := by
  intro c s x hx
  rw [← after_of_next (s := s) hx]
  exact exec_pending c s

end Sys2Proof.Machine
end

section
/-! SUPPORT. The data path's shared rules: commands that are not taken or are turned away (R390 to R393, R468, R504), index handles that
name no index (R216, R225), and the handles of new and released sequences (R52). -/

namespace Sys2Proof.Machine

open Sys2Proof

-- Commands that are not taken, or turned away.

/-- Nothing is taken while the node sleeps, holds a cut or has no clocks. -/
theorem State.command_of_frozen {s : State} {t : Nat} (hfrozen : (s.advance t).frozen = true) (src : Src) (d : Desc) (inl : List Byte)
    (layout : List (Nat × Nat × Nat)) (checks : State → Cmd → List (Bool × Status)) (run : State → Cmd → State) :
    s.command t src d inl layout checks run = .next (s.advance t) := by
  unfold State.command
  simp only [hfrozen, if_true]

/-- Settles O36: every data-path command is the shared operation, which takes nothing then. -/
theorem stoppedNodeTakesNoCommand : Obligations.StoppedNodeTakesNoCommand := by
  intro i s t src d inl layout hd hfrozen
  obtain ⟨checks, run, hexec⟩ := exec_of_dataPath hd s
  rw [hexec, State.command_of_frozen hfrozen]

/-- Taking a command leaves the stored content as it was, whatever its checks say. -/
theorem State.store_of_take {s : State} {t : Nat} {src : Src} {d : Desc} {inl : List Byte} {x : State} {c : Option Cmd}
    (htake : (s.advance t).take src d inl = (x, c)) : x.store = s.store := by
  calc x.store = ((s.advance t).take src d inl).1.store := by rw [htake]
    _ = s.store := by rw [State.take_store, State.advance_store]

/-- Settles O37: the checks before those of the opcode decide, and turning a command away leaves the stored content. -/
theorem refusedCommandsChangeNoContent : Obligations.RefusedCommandsChangeNoContent := by
  intro i s t src d inl layout x c st hd hfrozen htake hpre
  obtain ⟨checks, run, hexec⟩ := exec_of_dataPath hd s
  refine ⟨?_, ?_⟩
  · rw [hexec, State.command_of_preCheck checks run hfrozen htake hpre]
  · rw [State.noteDrained_store, State.reject_store, State.store_of_take htake]

-- Index handles that name no index.

theorem queryChecks_of_stale {x : State} {c : Cmd} (hs : x.indexOf c.ridge c.d.index = none) :
    firstFail (queryChecks x c) = some .badHandle := by
  simp only [queryChecks, hs]
  rfl

theorem indexChecks_of_stale {x : State} {c : Cmd} (hs : x.indexOf c.ridge c.d.index = none) :
    firstFail (indexChecks x c) = some .badHandle := by
  simp only [indexChecks, hs]
  rfl

/-- Every command whose check 4 reads an index handle is turned away with BAD_HANDLE when that handle names no index. -/
theorem exec_of_stale_index {i : Instr} {s : State} {t : Nat} {src : Src} {d : Desc} {inl : List Byte}
    {layout : List (Nat × Nat × Nat)} {x : State} {c : Cmd} (hd : i.dataPath = some (t, src, d, inl, layout))
    (hn : i.namesIndex = true) (ht : s.taken t src d inl layout x c) (hs : x.indexOf c.ridge c.d.index = none) :
    exec i s = .next (x.reject c .badHandle 0 0) := by
  cases i with
  | query =>
    cases hd
    exact State.taken_rejected ht (queryChecks_of_stale hs)
  | insert | delete =>
    cases hd
    exact State.taken_rejected ht (indexChecks_of_stale hs)
  | ctrMerge =>
    cases hd
    exact State.taken_rejected ht (by simp only [hs]; rfl)
  | _ => cases hn

/-- Settles O41. -/
theorem staleIndexHandlesAreRefused : Obligations.StaleIndexHandlesAreRefused :=
  fun _ _ _ _ _ _ _ _ _ hd hn ht hs => ⟨exec_of_stale_index hd hn ht hs, by rw [State.reject_store, State.taken_store ht]⟩

-- New and released sequences.

/-- What is found fresh is the lowest number in the range that is no key. -/
theorem FMap.fresh_spec {α : Type} {m : FMap α} {lo n i : Nat} (h : m.fresh lo n = some i) :
    lo ≤ i ∧ i < lo + n ∧ m.get? i = none ∧ ∀ j, lo ≤ j → j < i → m.get? j ≠ none := by
  induction n generalizing lo with
  | zero => cases h
  | succ n ih =>
    simp only [FMap.fresh] at h
    split at h
    next hfree =>
      cases h
      exact ⟨le_rfl, by omega, Option.isNone_iff_eq_none.mp hfree, fun j h1 h2 => by omega⟩
    next hused =>
      obtain ⟨hlo, hhi, hnone, hbelow⟩ := ih h
      refine ⟨by omega, by omega, hnone, fun j h1 h2 => ?_⟩
      rcases Nat.eq_or_lt_of_le h1 with rfl | h1
      · exact fun hn => hused (Option.isNone_iff_eq_none.mpr hn)
      · exact hbelow j h1 h2

theorem handleIdx_handleOf {i : Nat} (hi : i < 262144) (g : Nat) : handleIdx (handleOf i g) = i := by
  unfold handleIdx handleOf
  omega

theorem handleGen_handleOf {i : Nat} (hi : i < 262144) (g : Nat) : handleGen (handleOf i g) = g := by
  unfold handleGen handleOf
  omega

theorem State.handleAt_of_get? {s : State} {i : Nat} {q : SeqD} (h : s.seqs.get? i = some q) : s.handleAt i = handleOf i q.gen := by
  simp only [State.handleAt, h]

/-- A handle with its sequence's index and generation names the sequence for its own ridge. -/
theorem State.seqOf_handleOf {s : State} {i : Nat} {q : SeqD} (hi : i < 262144) (hg : q.gen ≠ 0) (h : s.seqs.get? i = some q) :
    s.seqOf q.ridge (handleOf i q.gen) = some q := by
  simp [State.seqOf, handleIdx_handleOf hi, handleGen_handleOf hi, h, hg]

theorem nextGen_range {g : Nat} (h1 : 1 ≤ g) (h2 : g ≤ 16383) : 1 ≤ nextGen g ∧ nextGen g ≤ 16383 := by
  unfold nextGen
  split <;> omega

/-- Settles O42: the descriptor is the lowest free one, and the handle's two parts read back. -/
theorem handlesHoldIndexAndGeneration : Obligations.HandlesHoldIndexAndGeneration := by
  refine ⟨?_, fun g => nextGen_range, rfl⟩
  intro s q i hfresh
  dsimp only
  generalize hg : (s.gens.get? i).getD 1 = g
  generalize hp : s.putSeq q = p
  intro hg1 hg2
  obtain ⟨-, hi, -, hbelow⟩ := FMap.fresh_spec hfresh
  rw [Nat.zero_add] at hi
  have hp1 : p.1 = i := by simp only [← hp, State.putSeq, hfresh, Option.getD_some]
  have hget : p.2.seqs.get? i = some { q with gen := g } := by
    simp only [← hp, State.putSeq, hfresh, Option.getD_some, FMap.get?_set, hg]
  have hhandle : p.2.handleAt i = handleOf i g := by rw [State.handleAt_of_get? hget]
  have hgen : g ≠ 0 := by omega
  have hseq := State.seqOf_handleOf hi (q := { q with gen := g }) hgen hget
  rw [hhandle]
  exact ⟨hp1, hi, fun j => hbelow j j.zero_le, by rw [handleOf], by unfold handleOf; omega, handleIdx_handleOf hi g,
    handleGen_handleOf hi g, hseq⟩

/-- Settles O43: with no layer left, nothing to mirror and no request in its way the descriptor goes at once. -/
theorem releaseAdvancesTheGeneration : Obligations.ReleaseAdvancesTheGeneration := by
  intro s t idx q a hfrozen hget hclosing hlayers hmirror hreqs
  change execSequenceRelease t idx s = _
  have hrelease : a.releaseSeq idx = { a with seqs := a.seqs.erase idx, gens := a.gens.set idx (nextGen q.gen) } := by
    unfold State.releaseSeq
    simp [hget, hclosing, hlayers, hmirror, hreqs]
  rw [← hrelease]
  exact if_neg (by rw [hfrozen]; exact Bool.false_ne_true)

end Sys2Proof.Machine
end

section
/-! SUPPORT. The mailbox's checks (R510), interrupt causes (R403) and doorbells (R382). -/

namespace Sys2Proof.Machine

open Sys2Proof

-- The checks of R510.

/-- The status of the first check of R510 that fails. -/
theorem State.mboxCheck_status (s : State) (h : MbxHdr) (op : Nat) (defined : Bool) (who : Rights) {session : Option Nat}
    {hello version : Bool} (hsession : (s.func h.fn.key).session = session) (hhello : (defined && op == 0x0001) = hello)
    (hversion : ((hello && h.proto == 0) || session == some h.proto) = version) :
    (s.mboxCheck h op defined who).map (·.1) =
      if h.framing = false then some .malformed
      else if session = none ∧ hello = false then some .noHello
      else if version = false then some .malformed
      else if s.switching = true ∨ s.power.warmAt ≠ none then some .busy
      else if defined = false then some .unsupported
      else if who = .ridge0 ∧ h.fn.isVf = true then some .accessDenied
      else if h.framed = false ∨ h.fn.isVf = true ∧ h.ridge ≠ none then some .malformed
      else none := by
  unfold State.mboxCheck
  simp only [hsession, hhello, hversion]
  cases s.power.warmAt <;> cases s.switching <;> simp [apply_ite (Option.map Prod.fst), Option.isSome_iff_ne_none]

/-- Settles O44: each clause names the first check that fails and those before it, which pass. -/
theorem mailboxChecksInOrder : Obligations.MailboxChecksInOrder := by
  intro s h op defined who f hello version res
  have hres : res = _ := s.mboxCheck_status h op defined who (session := f.session) (hello := hello) (version := version) rfl rfl rfl
  rw [hres]
  have opened : (f.session ≠ none ∨ hello = true) → ¬ (f.session = none ∧ hello = false) := by
    rintro (hs | hh) ⟨hn, hf⟩
    · exact hs hn
    · exact absurd hf (by rw [hh]; decide)
  have ready : s.switching = false → s.power.warmAt = none → ¬ (s.switching = true ∨ s.power.warmAt ≠ none) := by
    rintro hs hw (hs' | hw')
    · exact absurd hs (by rw [hs']; decide)
    · exact hw' hw
  have passes : ∀ {b : Bool}, b = true → ¬ b = false := fun hb => by rw [hb]; decide
  clear_value version hello f
  refine ⟨fun hf => ?_, fun hf hs hh => ?_, fun hf hs hv => ?_, fun hf hs hv hb => ?_, fun hf hs hv hw hr =>
    ⟨fun hd => ?_, fun hd hwho hvf => ?_, fun hd hwho hbad => ?_, fun hd hwho hfr hvf => ?_⟩⟩
  · rw [if_pos hf]
  · rw [if_neg (passes hf), if_pos ⟨hs, hh⟩]
  · rw [if_neg (passes hf), if_neg (opened hs), if_pos hv]
  · rw [if_neg (passes hf), if_neg (opened hs), if_neg (passes hv), if_pos hb]
  all_goals rw [if_neg (passes hf), if_neg (opened hs), if_neg (passes hv), if_neg (ready hw hr)]
  · rw [if_pos hd]
  · rw [if_neg (passes hd), if_pos ⟨hwho, hvf⟩]
  · rw [if_neg (passes hd), if_neg (by rcases hwho with h | h <;> simp [h]), if_pos hbad]
  · rw [if_neg (passes hd), if_neg (by rcases hwho with h | h <;> simp [h]), if_neg (by rcases hvf with h | h <;> simp [h, hfr])]

-- Interrupt causes.

theorem fnCause_testBit_raised (c : W32) {bit : Nat} (hb : bit < 32) :
    (BitVec.ofNat 32 (c.toNat ||| 2 ^ bit)).toNat.testBit bit = true := by
  rw [BitVec.toNat_ofNat, Nat.testBit_mod_two_pow]
  simp [hb]

/-- A cause that a function has and that rises is set, and the message goes when its enable bit is 1. -/
theorem State.raiseCause_of_rising {s : State} {k bit : Nat} (hk : k < 17) (hbit : (causeMask k).testBit bit = true)
    (hlow : (s.func k).cause.toNat.testBit bit = false) :
    s.raiseCause k bit =
      let x := s.modFunc k (fun f => { f with cause := BitVec.ofNat 32 (f.cause.toNat ||| 2 ^ bit) })
      if (s.func k).enable.toNat.testBit bit then x.msix k 0 else x := by
  unfold State.raiseCause
  simp [hk, hbit, hlow]

theorem State.raiseCause_of_raised {s : State} {k bit : Nat} (hhigh : (s.func k).cause.toNat.testBit bit = true) :
    s.raiseCause k bit = s := by
  unfold State.raiseCause
  simp [hhigh]

theorem State.func_of_get? {s : State} {k : Nat} {f : Func} (h : s.funcs.get? k = some f) : s.func k = f := by
  simp only [State.func, h, Option.getD_some]

theorem State.func_modFunc {s : State} {k : Nat} {f : Func} (h : s.funcs.get? k = some f) (g : Func → Func) :
    (s.modFunc k g).func k = g f := by
  refine State.func_of_get? ?_
  rw [State.modFunc_funcs, FMap.get?_adjust, h, Option.map_some]

theorem State.msix_funcs (s : State) (k v : Nat) : (s.msix k v).funcs = s.funcs := by
  unfold State.msix
  split <;> rfl

theorem State.msix_out {s : State} (hheld : s.trace.held = false) (k v : Nat) : (s.msix k v).out = s.out ++ [.msix (fnOfKey k) v] := by
  unfold State.msix
  rw [hheld]
  rfl

/-- Settles O46. -/
theorem causesRaiseTheirInterrupt : Obligations.CausesRaiseTheirInterrupt := by
  intro s k bit f hget hk hb hmask hheld x
  have hf := State.func_of_get? hget
  cases hc : f.cause.toNat.testBit bit with
  | true =>
    have hx : x = s := State.raiseCause_of_raised (hf ▸ hc)
    exact ⟨by rw [hx, hf, hc], fun _ => hx, fun h => by simp at h⟩
  | false =>
    have hx := State.raiseCause_of_rising hk hmask (s := s) (hf ▸ hc)
    rw [hf] at hx
    change x = _ at hx
    refine ⟨?_, fun h => by simp at h, fun _ => ?_⟩
    · have hfunc : x.func k = { f with cause := BitVec.ofNat 32 (f.cause.toNat ||| 2 ^ bit) } := by
        rw [hx]
        dsimp only
        split
        · simp only [State.func, State.msix_funcs]
          exact State.func_modFunc hget _
        · exact State.func_modFunc hget _
      rw [hfunc]
      exact fnCause_testBit_raised _ hb
    · rw [hx]
      dsimp only
      split
      · exact State.msix_out (s := s.modFunc k _) hheld k 0
      · rfl

-- Doorbells.

theorem State.mailStep_rings {k : Nat} {s x : State} (h : State.mailStep k s x) : x.rings = s.rings := by
  obtain ⟨hmail, -, -⟩ := h
  exact (congrArg State.rings hmail : x.sansMail.rings = s.sansMail.rings)

@[simp] theorem State.bumpN_rings (s : State) (i : Nat) : (s.bumpN i).rings = s.rings :=
  State.mailStep_rings (State.bumpBy_mail 0 s _ 1)

@[simp] theorem State.event_rings (s : State) (c : Option Nat) (ev qty : Nat) : (s.event c ev qty).rings = s.rings :=
  State.mailStep_rings (State.event_mail 0 s c ev qty)

@[simp] theorem State.raiseCause_rings (s : State) (k bit : Nat) : (s.raiseCause k bit).rings = s.rings :=
  State.mailStep_rings (State.raiseCause_mail k s bit)

@[simp] theorem State.film_rings (s : State) (type : Nat) (src : Comp) (ridge : Nat) (body : List Nat) :
    (s.film type src ridge body).rings = s.rings := by
  unfold State.film State.flmPut State.flmSend
  dsimp only
  (repeat' split) <;> simp

@[simp] theorem State.logTo_rings (s : State) (r : Nat) (e : ErrRec) : (s.logTo r e).1.rings = s.rings := by
  unfold State.logTo
  dsimp only
  split <;> simp

@[simp] theorem State.report_rings (s : State) (e : ErrRec) : (s.report e).rings = s.rings := by
  unfold State.report State.logErr
  dsimp only
  split <;> simp

@[simp] theorem State.noteRing_rings (s : State) (k r i : Nat) : (s.noteRing k r i).rings = s.rings := by
  simp [State.noteRing]

/-- An error of a ring changes no ring but it. -/
theorem State.ringError_rings (s : State) (r i : Nat) : (s.ringError r i).rings =
    s.rings.adjust (ringKey r i) (fun g => { g with state := .error, fetched := [], slotWait := false }) := by
  simp [State.ringError]

/-- Settles O50. -/
theorem doorbellsMoveTheTail : Obligations.DoorbellsMoveTheTail := by
  intro s r i tail g hget hhost hactive
  have hdb : s.ringDbW r i tail =
      if g.entries ≤ tail then s.ringError r i else s.modRing (ringKey r i) (fun g => { g with sqTail := tail }) := by
    simp [State.ringDbW, hget, hhost, hactive]
  rw [hdb]
  refine ⟨fun hlt => if_neg (Nat.not_le.mpr hlt), fun hle => ?_, fun k hk => ?_⟩
  · rw [if_pos hle, State.ringError_rings, FMap.get?_adjust, hget]
    exact ⟨_, rfl, rfl⟩
  · split
    · rw [State.ringError_rings, FMap.get?_adjust_ne _ _ _ _ hk]
    · rw [State.modRing_rings, FMap.get?_adjust_ne _ _ _ _ hk]

end Sys2Proof.Machine
end

section
/-! SUPPORT. Numbers and bits: rounding to nearest even (R25), BF16 operands (R25, R26), the bits of CAIRN_MODE (R206), masks (R322) and
the bytes of a region (R267, R271). -/

namespace Sys2Proof.Machine

open Sys2Proof

-- Division (R25).

/-- Settles O53: the quotient goes up when the remainder lies beyond the middle, or on it and the quotient is odd. -/
theorem divisionsRoundToNearestEven : Obligations.DivisionsRoundToNearestEven := by
  intro n d hd
  have hdiv := Nat.div_add_mod n d
  have hlt := Nat.mod_lt n hd
  rw [mul_comm] at hdiv
  have hsucc : (n / d + 1) * d = n / d * d + d := Nat.succ_mul _ _
  unfold rneDiv
  dsimp only
  split
  · omega
  · split
    · rw [hsucc]
      omega
    · split
      · omega
      · rw [hsucc]
        omega

/-- An exact quotient is not rounded. -/
theorem rneDiv_mul_self (m : Nat) {d : Nat} (hd : 0 < d) : rneDiv (m * d) d = m := by
  unfold rneDiv
  simp [Nat.mul_div_cancel m hd, hd]

-- BF16 operands (R25, R26).

theorem scale2_two_pow (m p q : Nat) (k : Int) :
    scale2 (m * 2 ^ p) (2 ^ q) k = (m * 2 ^ (p + k.toNat), 2 ^ (q + (-k).toNat)) := by
  unfold scale2
  split
  next h => rw [Nat.shiftLeft_eq, mul_assoc, ← pow_add, Int.toNat_eq_zero.mpr (by omega : -k ≤ 0), Nat.add_zero]
  next h => rw [Nat.shiftLeft_eq, ← pow_add, Int.toNat_eq_zero.mpr (by omega : k ≤ 0), Nat.add_zero]

theorem log2_mul_two_pow {m : Nat} (h1 : 128 ≤ m) (h2 : m < 256) (p : Nat) : Nat.log2 (m * 2 ^ p) = 7 + p := by
  have hpos : 0 < 2 ^ p := Nat.two_pow_pos p
  rw [Nat.log2_eq_iff (by positivity)]
  constructor
  · rw [pow_add]
    exact Nat.mul_le_mul_right _ h1
  · rw [show 7 + p + 1 = 8 + p by omega, pow_add]
    exact Nat.mul_lt_mul_of_pos_right h2 hpos

theorem expoOf_two_pow {m : Nat} (h1 : 128 ≤ m) (h2 : m < 256) (p q : Nat) : expoOf (m * 2 ^ p) (2 ^ q) = 7 + p - q := by
  have hn : (Nat.log2 (m * 2 ^ p) : Int) = 7 + p := by exact_mod_cast log2_mul_two_pow h1 h2 p
  have hd : (Nat.log2 (2 ^ q) : Int) = q := by rw [Nat.log2_two_pow]
  unfold expoOf
  simp only [hn, hd, scale2_two_pow]
  have hexp : q + (- -(7 + (p : Int) - q)).toNat = 7 + (p + (-(7 + (p : Int) - q)).toNat) := by omega
  rw [hexp, pow_add 2 7]
  exact if_neg (Nat.not_lt.mpr (Nat.mul_le_mul_right _ h1))

/-- A value of eight significant bits is not rounded to eight. -/
theorem roundSig_two_pow {m : Nat} (h1 : 128 ≤ m) (h2 : m < 256) (p q : Nat) :
    roundSig 8 (m * 2 ^ p) (2 ^ q) = (m, (7 + p - q : Int)) := by
  unfold roundSig
  simp only [expoOf_two_pow h1 h2, scale2_two_pow]
  have hexp : q + (-(((8 : Nat) : Int) - 1 - (7 + p - q))).toNat = p + (((8 : Nat) : Int) - 1 - (7 + p - q)).toNat := by omega
  rw [hexp, rneDiv_mul_self _ (Nat.two_pow_pos _)]
  exact if_neg (by omega)

/-- The FP32 pattern of a BF16 operand that is no zero is the operand with sixteen zeros behind it. -/
theorem fOfBf_toNat {b : Nat} (hb : b < 65536) (he : b / 128 % 256 ≠ 0) : (fOfBf b).toNat = b * 65536 := by
  unfold fOfBf
  rw [if_neg (by simpa [Nat.shiftRight_eq_div_pow] using he), BitVec.toNat_ofNat, Nat.shiftLeft_eq, Nat.mod_eq_of_lt hb,
    Nat.mod_eq_of_lt (by omega)]

theorem fSign_fOfBf {b : Nat} (hb : b < 65536) (he : b / 128 % 256 ≠ 0) : fSign (fOfBf b) = b.testBit 15 := by
  unfold fSign
  rw [fOfBf_toNat hb he, show b * 65536 = 2 ^ 16 * b by omega, Nat.testBit_two_pow_mul]
  rfl

theorem fExpo_fOfBf {b : Nat} (hb : b < 65536) (he : b / 128 % 256 ≠ 0) : fExpo (fOfBf b) = b / 128 % 256 := by
  unfold fExpo
  rw [fOfBf_toNat hb he, Nat.shiftRight_eq_div_pow]
  omega

theorem fFrac_fOfBf {b : Nat} (hb : b < 65536) (he : b / 128 % 256 ≠ 0) : fFrac (fOfBf b) = b % 128 * 65536 := by
  unfold fFrac
  rw [fOfBf_toNat hb he]
  omega

theorem testBit_fifteen {b : Nat} (hb : b < 65536) : (if b.testBit 15 then 0x8000 else 0) = b / 32768 * 32768 := by
  rw [Nat.testBit_eq_decide_div_mod_eq]
  split <;> simp_all <;> omega

/-- A subnormal operand reads as the zero of its sign. -/
theorem fOfBf_of_subnormal {b : Nat} (hb : b < 65536) (he : b / 128 % 256 = 0) :
    fOfBf b = BitVec.ofNat 32 (b / 32768 * 2147483648) := by
  have hs : b.testBit 15 = decide (b / 32768 = 1) := by
    rw [Nat.testBit_eq_decide_div_mod_eq]
    congr 1
    simp only [eq_iff_iff]
    omega
  unfold fOfBf
  rw [if_pos (by simpa [Nat.shiftRight_eq_div_pow] using he), hs]
  rcases (by omega : b / 32768 = 0 ∨ b / 32768 = 1) with h | h <;> rw [h] <;> rfl

/-- Rounding the value of a finite operand back gives the operand. -/
theorem bfOf_fOfBf_of_finite {b : Nat} (hb : b < 65536) (he : b / 128 % 256 ≠ 0) (hfin : b / 128 % 256 ≠ 255) :
    bfOf (fOfBf b) = b := by
  have hround : roundSig 8 (scale2 (fMant (fOfBf b)) 1 (fUnit (fOfBf b))).1 (scale2 (fMant (fOfBf b)) 1 (fUnit (fOfBf b))).2 =
      (128 + b % 128, (b / 128 % 256 : Int) - 127) := by
    have hm : fMant (fOfBf b) = (128 + b % 128) * 2 ^ 16 := by
      unfold fMant
      rw [fExpo_fOfBf hb he, if_neg he, fFrac_fOfBf hb he]
      omega
    rw [hm, ← pow_zero 2, scale2_two_pow, roundSig_two_pow (m := 128 + b % 128) (by omega) (by omega), fUnit, fExpo_fOfBf hb he]
    refine Prod.ext rfl ?_
    dsimp only
    omega
  have hsplit : b / 32768 * 32768 + b / 128 % 256 * 128 + b % 128 = b := by omega
  unfold bfOf
  simp only [fIsNaN, fIsInf, fIsZero, fExpo_fOfBf hb he, fSign_fOfBf hb he, testBit_fifteen hb, hround, beq_iff_eq, hfin, he,
    Bool.and_eq_true, false_and, if_false]
  rw [if_neg (by omega), if_neg (by omega), Nat.shiftLeft_eq]
  omega

/-- Settles O54. -/
theorem bf16ReadsExactly : Obligations.Bf16ReadsExactly := by
  intro b hb
  refine ⟨fOfBf_of_subnormal hb, fun he => ⟨fSign_fOfBf hb he, fExpo_fOfBf hb he, fFrac_fOfBf hb he⟩, fun he hnan => ?_⟩
  by_cases hinf : b / 128 % 256 = 255
  · have hz : b % 128 = 0 := by
      by_contra hne
      exact hnan ⟨hinf, hne⟩
    unfold bfOf
    simp only [fIsNaN, fIsInf, fExpo_fOfBf hb he, fFrac_fOfBf hb he, fSign_fOfBf hb he, testBit_fifteen hb, hinf, hz]
    rw [if_neg (by decide), if_pos (by decide)]
    omega
  · exact bfOf_fOfBf_of_finite hb he hinf

-- The bits of CAIRN_MODE (R206).

/-- A sum of flags at the places below n has exactly the flags' bits. -/
theorem foldl_flagBit (f : Nat → Bool) (n : Nat) :
    (List.range n).foldl (fun v k => v + flagBit (f k) k) 0 < 2 ^ n ∧
      ∀ i, ((List.range n).foldl (fun v k => v + flagBit (f k) k) 0).testBit i = (decide (i < n) && f i) := by
  induction n with
  | zero => simp
  | succ n ih =>
    obtain ⟨hlt, hbits⟩ := ih
    rw [List.range_succ, List.foldl_append]
    generalize (List.range n).foldl (fun v k => v + flagBit (f k) k) 0 = v at hlt hbits ⊢
    simp only [List.foldl_cons, List.foldl_nil]
    cases hf : f n with
    | false =>
      refine ⟨by simp only [flagBit, Bool.false_eq_true, if_false]; omega, fun i => ?_⟩
      simp only [flagBit, Bool.false_eq_true, if_false, Nat.add_zero, hbits]
      by_cases hi : i = n
      · simp [hi, hf]
      · simp [show i < n + 1 ↔ i < n by omega]
    | true =>
      have hor : v + 2 ^ n = 2 ^ n ||| v := by
        have := Nat.two_pow_add_eq_or_of_lt hlt 1
        rw [Nat.mul_one] at this
        omega
      refine ⟨by simp only [flagBit, if_true]; omega, fun i => ?_⟩
      simp only [flagBit, if_true, hor, Nat.testBit_or, hbits, Nat.testBit_two_pow]
      by_cases hi : i = n
      · simp [hi, hf]
      · simp [show i < n + 1 ↔ i < n by omega, Ne.symm hi]

/-- Settles O52. -/
theorem cairnModeShowsEachGroup : Obligations.CairnModeShowsEachGroup := by
  have bits := fun (s : State) (q : Nat) => foldl_flagBit (fun k => (s.group (groupKey q k)).mode) 64
  refine ⟨fun s q channel rank group hc hr hg => ?_, fun s q => (bits s q).1, fun q => ?_⟩
  · exact ((bits s q).2 _).trans (by simp [show 8 * channel + 4 * rank + group < 64 by omega])
  · refine Nat.zero_of_testBit_eq_false fun i => ((bits State.reset q).2 i).trans ?_
    exact Bool.and_false _

-- Masks (R322).

theorem and_eq_zero_iff_testBit (a b : Nat) : a &&& b = 0 ↔ ∀ i, b.testBit i = true → a.testBit i = false := by
  constructor
  · intro h i hb
    have hi : (a &&& b).testBit i = false := by rw [h, Nat.zero_testBit]
    rwa [Nat.testBit_and, hb, Bool.and_true] at hi
  · refine fun h => Nat.zero_of_testBit_eq_false fun i => ?_
    rw [Nat.testBit_and]
    cases hb : b.testBit i with
    | false => exact Bool.and_false _
    | true => rw [h i hb, Bool.false_and]

/-- Settles O55: two keys differ in a bit where their sum without carries has it. -/
theorem loupeEntriesMatchUnderTheirMask : Obligations.LoupeEntriesMatchUnderTheirMask := by
  intro e k hvalid
  have hm : e.matches e.table k = true ↔ (k ^^^ e.key) &&& e.mask = 0 := by simp [LEntry.matches, hvalid]
  rw [hm, and_eq_zero_iff_testBit]
  simp only [Nat.testBit_xor, bne_eq_false_iff_eq]

-- The bytes of a region (R267, R271).

theorem memSlice_succ (m : List Host.Cell) (a n : Nat) : memSlice m a (n + 1) = memGet m a :: memSlice m (a + 1) n := by
  simp only [memSlice, List.range_succ_eq_map, List.map_cons, List.map_map, Nat.add_zero]
  congr 1
  refine List.map_congr_left fun i _ => ?_
  simp only [Function.comp_apply]
  congr 1
  omega

theorem memSlice_memPut (m : List Host.Cell) (a : Nat) (bs : List Byte) (hm : memWf m = true) :
    memSlice (memPut m a bs) a bs.length = bs := by
  induction bs generalizing m a with
  | nil => rfl
  | cons b bs ih =>
    have hset := memWf_memSet m a b hm
    rw [List.length_cons, memSlice_succ, memPut, ih _ _ hset, memGet_memPut_outside _ _ _ _ (Or.inl a.lt_succ_self),
      memGet_memSet m a b hm]

/-- Settles O59. -/
theorem regionWritesReadBack : Obligations.RegionWritesReadBack :=
  fun m a bs hm => ⟨memWf_memPut m a bs hm, memSlice_memPut m a bs hm, fun c hc => memGet_memPut_outside m a c bs hc⟩

end Sys2Proof.Machine
end

section
/-! SUPPORT. Frames of the mailbox messages: a part of the state that serving the mailbox leaves, and that a message's own part leaves, is
as before. -/

namespace Sys2Proof.Machine

open Sys2Proof

/-- What serving a mailbox and a message's own part leave, the message leaves. -/
theorem State.message_keeps {β : Type} {s x : State} {t : Nat} {i : Instr} {h : MbxHdr} {op : Nat} {defined : Bool} {who : Rights}
    {body : State → MRes} (p : State → β) (hp : ∀ a b : State, State.mailStep h.fn.key a b → p b = p a)
    (ha : (s.advance t).asleep = false) (hx : s.message t i h op defined who body = .next x) (hb : ∀ m, p (body m).st = p m) :
    p x = p s := by
  obtain ⟨m, hm, hc | hc⟩ := State.message_cases s x t i h op defined who body ha hx
  · rw [hp m x hc, hp s m hm]
  · rw [hp _ x hc, hb, hp s m hm]

/-- A message whose own part changes nothing touches nothing but the mailbox. -/
theorem State.message_reads {s x : State} {t : Nat} {i : Instr} {h : MbxHdr} {op : Nat} {defined : Bool} {who : Rights}
    {body : State → MRes} (ha : (s.advance t).asleep = false) (hx : s.message t i h op defined who body = .next x)
    (hb : ∀ m, (body m).st = m) : State.mailStep h.fn.key s x := by
  obtain ⟨m, hm, hc | hc⟩ := State.message_cases s x t i h op defined who body ha hx
  · exact State.mailStep_trans hm hc
  · exact State.mailStep_trans hm (hb m ▸ hc)

/-- A part of the state that looks past the mailboxes is left by serving one. -/
theorem State.mailStep_keeps {β : Type} (p : State → β) {k : Nat} (hp : ∀ a : State, p a = p a.sansMail) (a b : State)
    (h : State.mailStep k a b) : p b = p a := by
  rw [hp a, hp b, h.1]

-- What the guards of a message's own part leave.

theorem ite_keeps {β : Type} (p : State → β) {c : Prop} [Decidable c] {a b : MRes} {v : β} (ha : p a.st = v) (hb : p b.st = v) :
    p (if c then a else b).st = v := by
  split
  · exact ha
  · exact hb

theorem withRidge_keeps {β : Type} (p : State → β) {h : MbxHdr} {s : State} {body : Nat → MRes}
    (hb : ∀ r, h.target = some r → p (body r).st = p s) : p (withRidge h s body).st = p s := by
  unfold withRidge
  split
  · rfl
  next r hr => exact ite_keeps p (hb r hr) rfl

theorem withRidge0_keeps {β : Type} (p : State → β) {h : MbxHdr} {s : State} {body : Nat → MRes}
    (hb : ∀ r, h.target = some r → p (body r).st = p s) : p (withRidge0 h s body).st = p s := by
  unfold withRidge0
  split
  · rfl
  next r hr => exact ite_keeps p (hb r hr) rfl

theorem withRing_keeps {β : Type} (p : State → β) {h : MbxHdr} {i : Nat} {s : State} {body : Nat → Ring → MRes}
    (hb : ∀ r g, p (body r g).st = p s) : p (withRing h i s body).st = p s := by
  refine withRidge_keeps p fun r _ => ite_keeps p rfl ?_
  split
  · rfl
  · exact hb r _

theorem withConn_keeps {β : Type} (p : State → β) {h : MbxHdr} {n : Nat} {s : State} {body : Nat → Conn → MRes}
    (hb : ∀ r c, p (body r c).st = p s) : p (withConn h n s body).st = p s := by
  refine withRidge_keeps p fun r _ => ?_
  split
  · rfl
  · exact ite_keeps p (hb r _) rfl

-- Messages that only read.

/-- Settles O47: the own part of each of these messages answers from the state it finds. -/
theorem readingMessagesChangeNothingElse : Obligations.ReadingMessagesChangeNothingElse := by
  intro i s x t h hi ha hx
  have hstep : State.mailStep h.fn.key s x := by
    rcases hi with rfl | rfl | rfl | ⟨n, rfl⟩ | ⟨n, rfl⟩ | ⟨n, rfl⟩ | ⟨l, n, rfl⟩ | rfl | rfl
    · exact State.message_reads ha hx fun m => rfl
    · exact State.message_reads ha hx fun m => rfl
    · exact State.message_reads ha hx (fun m => withRidge0_keeps id fun r _ => rfl)
    · exact State.message_reads ha hx (fun m => withRing_keeps id fun r g => rfl)
    · exact State.message_reads ha hx (fun m => withConn_keeps id fun r c => rfl)
    · exact State.message_reads ha hx (fun m => withRidge0_keeps id fun r _ => ite_keeps id rfl rfl)
    · refine State.message_reads ha hx (fun m => ?_)
      split
      · rfl
      · split <;> rfl
    · exact State.message_reads ha hx (fun m => ite_keeps id rfl rfl)
    · refine State.message_reads ha hx (fun m => withRidge_keeps id fun r _ => ?_)
      split <;> rfl
  obtain ⟨hmail, htime, hfunc⟩ := hstep
  exact ⟨State.of_sansMail hmail, htime, hfunc⟩

-- Messages about one setting of a ridge.

theorem State.ridge_modRidge_ne (s : State) {r k : Nat} (h : k ≠ r) (f : Ridge → Ridge) : (s.modRidge r f).ridge k = s.ridge k := by
  simp only [State.ridge, State.modRidge_ridges, FMap.get?_adjust_ne _ _ _ _ h]

/-- What serving a mailbox leaves, and a change of the ridge a message names, is left by a message about one setting of a ridge. -/
theorem exec_ridgeSetting_keeps {β : Type} (p : State → β) {i : Instr} {s x : State} {t : Nat} {h : MbxHdr}
    (hi : (∃ n, i = .shadowSet t h n) ∨ (∃ b, i = .belaySetStandin t h b) ∨ (∃ c b, i = .belaySetMirror t h c b) ∨
      (∃ n, i = .watchdogSet t h n) ∨ (∃ n w c, i = .mprogLoad t h n w c) ∨ (∃ n, i = .mprogClear t h n))
    (hp : ∀ a b : State, State.mailStep h.fn.key a b → p b = p a)
    (hr : ∀ (m : State) (r : Nat) (f : Ridge → Ridge), h.target = some r → p (m.modRidge r f) = p m)
    (ha : (s.advance t).asleep = false) (hx : exec i s = .next x) : p x = p s := by
  rcases hi with ⟨n, rfl⟩ | ⟨b, rfl⟩ | ⟨c, b, rfl⟩ | ⟨n, rfl⟩ | ⟨n, w, c, rfl⟩ | ⟨n, rfl⟩
  · exact State.message_keeps p hp ha hx (fun m => withRidge_keeps p fun r ht => ite_keeps p rfl (hr m r _ ht))
  · exact State.message_keeps p hp ha hx (fun m => withRidge_keeps p fun r ht => ite_keeps p rfl (hr m r _ ht))
  · refine State.message_keeps p hp ha hx (fun m => withRidge_keeps p fun r ht => ?_)
    split
    · exact hr m r _ ht
    · split
      · rfl
      · exact ite_keeps p rfl (ite_keeps p rfl (hr m r _ ht))
  · exact State.message_keeps p hp ha hx (fun m => withRidge0_keeps p fun r ht => ite_keeps p rfl (hr m r _ ht))
  · exact State.message_keeps p hp ha hx (fun m => withRidge_keeps p fun r ht => ite_keeps p rfl (ite_keeps p rfl (hr m r _ ht)))
  · exact State.message_keeps p hp ha hx (fun m => withRidge_keeps p fun r ht => ite_keeps p rfl (ite_keeps p rfl (hr m r _ ht)))

/-- Settles O48. -/
theorem ridgeSettingsStayInTheirRidge : Obligations.RidgeSettingsStayInTheirRidge := by
  intro i s x t h hi ha hx
  constructor
  · have hframe := exec_ridgeSetting_keeps (fun y : State => { y.sansMail with ridges := [] }) hi
      (State.mailStep_keeps _ fun _ => rfl) (fun _ _ _ _ => rfl) ha hx
    exact congrArg (fun y : State => { y with
      time := s.time, ctrs := s.ctrs, funcs := s.funcs, out := s.out, ridges := s.ridges
      trace := { y.trace with heldMsix := s.trace.heldMsix } }) hframe
  · intro r hr
    exact exec_ridgeSetting_keeps (fun y => y.ridge r) hi (State.mailStep_keeps _ fun _ => rfl)
      (fun m k f hk => m.ridge_modRidge_ne (fun hrk => hr (by rw [hk, hrk])) f) ha hx

-- Messages about one unit.

theorem State.brk_modBrk_ne (s : State) {x k : Nat} (h : k ≠ x) (f : Breakout → Breakout) : (s.modBrk x f).brk k = s.brk k := by
  simp only [State.brk, State.modBrk_brks, FMap.get?_adjust_ne _ _ _ _ h]

/-- RING_CREATE, RING_DESTROY and RING_RESET leave what serving a mailbox and a change of the rings leave. -/
theorem exec_ringMessage_keeps {β : Type} (p : State → β) {i : Instr} {s x : State} {t : Nat} {h : MbxHdr}
    (hi : (∃ q, i = .ringCreate t h q) ∨ (∃ n, i = .ringDestroy t h n) ∨ (∃ n, i = .ringReset t h n))
    (hp : ∀ a b : State, State.mailStep h.fn.key a b → p b = p a) (hr : ∀ (m : State) (l : FMap Ring), p { m with rings := l } = p m)
    (ha : (s.advance t).asleep = false) (hx : exec i s = .next x) : p x = p s := by
  rcases hi with ⟨q, rfl⟩ | ⟨n, rfl⟩ | ⟨n, rfl⟩
  · refine State.message_keeps p hp ha hx (fun m => withRidge_keeps p fun r _ =>
      ite_keeps p rfl (ite_keeps p rfl (ite_keeps p rfl ?_)))
    split
    · rfl
    · exact hr m _
  · exact State.message_keeps p hp ha hx (fun m => withRing_keeps p fun r g => ite_keeps p rfl (hr m _))
  · exact State.message_keeps p hp ha hx (fun m => withRing_keeps p fun r g => ite_keeps p rfl (ite_keeps p rfl (hr m _)))

/-- GATE_SET, SHT_SET and CBS_SET leave what serving a mailbox and a change of their breakout leave. -/
theorem exec_breakoutMessage_keeps {β : Type} (p : State → β) {i : Instr} {s x : State} {t b : Nat} {h : MbxHdr}
    (hi : (∃ e n, i = .gateSet t h b e n) ∨ (∃ e n, i = .shtSet t h b e n) ∨ (∃ c n m e f, i = .cbsSet t h b c n m e f))
    (hp : ∀ a b : State, State.mailStep h.fn.key a b → p b = p a)
    (hr : ∀ (m : State) (f : Breakout → Breakout), p (m.modBrk b f) = p m)
    (ha : (s.advance t).asleep = false) (hx : exec i s = .next x) : p x = p s := by
  rcases hi with ⟨e, n, rfl⟩ | ⟨e, n, rfl⟩ | ⟨c, n, m, e, f, rfl⟩
  · exact State.message_keeps p hp ha hx (fun m => withRidge0_keeps p fun r _ => ite_keeps p rfl (hr m _))
  · exact State.message_keeps p hp ha hx (fun m => ite_keeps p rfl (hr m _))
  · exact State.message_keeps p hp ha hx (fun m => withRidge0_keeps p fun r _ => ite_keeps p rfl (hr m _))

/-- STOP_AT, its CANCEL and a record selection leave what serving a mailbox and a change of the trace leave. -/
theorem exec_traceMessage_keeps {β : Type} (p : State → β) {i : Instr} {s x : State} {t : Nat} {h : MbxHdr}
    (hi : (∃ n m, i = .stopAt t h n m) ∨ i = .stopAtCancel t h ∨ (∃ q, i = .traceSetRecords t h q))
    (hp : ∀ a b : State, State.mailStep h.fn.key a b → p b = p a) (hr : ∀ (m : State) (l : TraceSt), p { m with trace := l } = p m)
    (ha : (s.advance t).asleep = false) (hx : exec i s = .next x) : p x = p s := by
  rcases hi with ⟨n, m, rfl⟩ | rfl | ⟨q, rfl⟩
  · exact State.message_keeps p hp ha hx (fun m => ite_keeps p rfl (ite_keeps p rfl (ite_keeps p rfl (hr m _))))
  · exact State.message_keeps p hp ha hx (fun m => hr m _)
  · exact State.message_keeps p hp ha hx (fun m => ite_keeps p rfl (hr m _))

/-- FW_FLOOR and OWNER_ENROL leave what serving a mailbox and a change of the boot records leave. -/
theorem exec_bootMessage_keeps {β : Type} (p : State → β) {i : Instr} {s x : State} {t : Nat} {h : MbxHdr}
    (hi : (∃ n, i = .fwFloor t h n) ∨ (∃ q r, i = .ownerEnrol t h q r))
    (hp : ∀ a b : State, State.mailStep h.fn.key a b → p b = p a) (hr : ∀ (m : State) (l : BootSt), p { m with boot := l } = p m)
    (ha : (s.advance t).asleep = false) (hx : exec i s = .next x) : p x = p s := by
  rcases hi with ⟨n, rfl⟩ | ⟨q, r, rfl⟩
  · exact State.message_keeps p hp ha hx (fun m => ite_keeps p (ite_keeps p (hr m _) rfl) (ite_keeps p rfl (hr m _)))
  · exact State.message_keeps p hp ha hx (fun m => ite_keeps p rfl (ite_keeps p rfl (hr m _)))

/-- EPOCH_DRAIN leaves what serving a mailbox and a change of the description's record leave. -/
theorem exec_drainMessage_keeps {β : Type} (p : State → β) {i : Instr} {s x : State} {t : Nat} {h : MbxHdr}
    (hi : (∃ n, i = .epochDrain t h n) ∨ i = .epochDrainEndNow t h)
    (hp : ∀ a b : State, State.mailStep h.fn.key a b → p b = p a) (hr : ∀ (m : State) (l : FabricSt), p { m with fab := l } = p m)
    (ha : (s.advance t).asleep = false) (hx : exec i s = .next x) : p x = p s := by
  rcases hi with ⟨n, rfl⟩ | rfl
  · exact State.message_keeps p hp ha hx (fun m => ite_keeps p rfl (hr m _))
  · exact State.message_keeps p hp ha hx (fun m => hr m _)

/-- Settles O49: what a unit's messages leave, all but the mailbox and the unit, put beside the old mailbox and unit is the old state. -/
theorem oneUnitMessagesChangeOnlyTheirUnit : Obligations.OneUnitMessagesChangeOnlyTheirUnit := by
  intro i s x t h ha hx y
  refine ⟨fun hi => ?_, fun b hi => ⟨?_, fun k hk => ?_⟩, fun hi => ?_, fun hi => ?_, fun hi => ?_⟩
  · have hframe := exec_ringMessage_keeps (fun y : State => { y.sansMail with rings := [] }) hi (State.mailStep_keeps _ fun _ => rfl)
      (fun _ _ => rfl) ha hx
    exact congrArg (fun y : State => { y with
      time := s.time, ctrs := s.ctrs, funcs := s.funcs, out := s.out, rings := s.rings
      trace := { y.trace with heldMsix := s.trace.heldMsix } }) hframe
  · have hframe := exec_breakoutMessage_keeps (fun y : State => { y.sansMail with brks := [] }) hi
      (State.mailStep_keeps _ fun _ => rfl) (fun _ _ => rfl) ha hx
    exact congrArg (fun y : State => { y with
      time := s.time, ctrs := s.ctrs, funcs := s.funcs, out := s.out, brks := s.brks
      trace := { y.trace with heldMsix := s.trace.heldMsix } }) hframe
  · exact exec_breakoutMessage_keeps (fun y => y.brk k) hi (State.mailStep_keeps _ fun _ => rfl)
      (fun m f => m.brk_modBrk_ne hk f) ha hx
  · have hframe := exec_traceMessage_keeps (fun y : State => { y.sansMail with trace := State.reset.trace }) hi
      (State.mailStep_keeps _ fun _ => rfl) (fun _ _ => rfl) ha hx
    exact congrArg (fun y : State => { y with
      time := s.time, ctrs := s.ctrs, funcs := s.funcs, out := s.out, trace := s.trace }) hframe
  · have hframe := exec_bootMessage_keeps (fun y : State => { y.sansMail with boot := State.reset.boot }) hi
      (State.mailStep_keeps _ fun _ => rfl) (fun _ _ => rfl) ha hx
    exact congrArg (fun y : State => { y with
      time := s.time, ctrs := s.ctrs, funcs := s.funcs, out := s.out, boot := s.boot
      trace := { y.trace with heldMsix := s.trace.heldMsix } }) hframe
  · have hframe := exec_drainMessage_keeps (fun y : State => { y.sansMail with fab := State.reset.fab }) hi
      (State.mailStep_keeps _ fun _ => rfl) (fun _ _ => rfl) ha hx
    exact congrArg (fun y : State => { y with
      time := s.time, ctrs := s.ctrs, funcs := s.funcs, out := s.out, fab := s.fab
      trace := { y.trace with heldMsix := s.trace.heldMsix } }) hframe

end Sys2Proof.Machine
end

section
/-! SUPPORT. Mailbox messages that reach their own part and end there, session and fabric messages and those about ridges. -/

namespace Sys2Proof.Machine

open Sys2Proof

-- A message that reaches its own part ends as that part says.

theorem State.mbox_ok_of {s m x : State} {t : Nat} {i : Instr} {h : MbxHdr} {op : Nat} {who : Rights} {body : State → MRes}
    {vals : List Nat} (hr : s.msgRuns t h op who = true) (hm : m = s.atMsg t h op) (hb : body m = .ok x vals) :
    s.mbox t i h op who body = .next (x.okMsg h op vals) := by
  rw [s.mbox_runs t i h op who body hr, ← hm, hb]
  rfl

theorem State.mbox_no_of {s m x : State} {t : Nat} {i : Instr} {h : MbxHdr} {op : Nat} {who : Rights} {body : State → MRes}
    {st : MStatus} (hst : st ≠ .busy) (hr : s.msgRuns t h op who = true) (hm : m = s.atMsg t h op) (hb : body m = .no x st) :
    s.mbox t i h op who body = .next (x.answer h.fn.key h.tag op st 0 []) := by
  rw [s.mbox_runs t i h op who body hr, ← hm, hb, MRes.no, if_neg hst]
  rfl

theorem State.mbox_wait_of {s m x : State} {t : Nat} {i : Instr} {h : MbxHdr} {op : Nat} {who : Rights} {body : State → MRes}
    (hr : s.msgRuns t h op who = true) (hm : m = s.atMsg t h op) (hb : body m = .wait x) : s.mbox t i h op who body = .next x := by
  rw [s.mbox_runs t i h op who body hr, ← hm, hb]
  rfl

theorem State.mboxOn_ok_of {s m x : State} {t : Nat} {i : Instr} {h : MbxHdr} {op r : Nat} {who : Rights} {body : State → Nat → MRes}
    {vals : List Nat} (hr : s.msgOn t h op who r = true) (hm : m = s.atMsg t h op) (hb : body m r = .ok x vals) :
    s.mbox t i h op who (fun s => withRidge h s (body s)) = .next (x.okMsg h op vals) := by
  rw [s.mbox_on t i h op who body r hr, ← hm, hb]
  rfl

theorem State.mboxOn_wait_of {s m x : State} {t : Nat} {i : Instr} {h : MbxHdr} {op r : Nat} {who : Rights}
    {body : State → Nat → MRes} (hr : s.msgOn t h op who r = true) (hm : m = s.atMsg t h op) (hb : body m r = .wait x) :
    s.mbox t i h op who (fun s => withRidge h s (body s)) = .next x := by
  rw [s.mbox_on t i h op who body r hr, ← hm, hb]
  rfl

/-- A message about a ridge from 0 to 16. -/
theorem State.mboxOn0_ok_of {s m x : State} {t : Nat} {i : Instr} {h : MbxHdr} {op r : Nat} {who : Rights} {body : State → Nat → MRes}
    {vals : List Nat} (hr : s.msgRuns t h op who = true) (ht : h.target = some r) (hr16 : r ≤ 16) (hm : m = s.atMsg t h op)
    (hb : body m r = .ok x vals) : s.mbox t i h op who (fun s => withRidge0 h s (body s)) = .next (x.okMsg h op vals) :=
  State.mbox_ok_of hr hm ((withRidge0_of h m (body m) r ht hr16).trans hb)

/-- Settles O4, message by message: each reaches its own part, and the clause's conditions decide that part's branches. -/
theorem sessionAndFabricMessagesComplete : Obligations.SessionAndFabricMessagesComplete := by
  refine ⟨fun s t h versions hr hv => ?_, fun s t h hr => ?_, fun s t h aliasCert offset hr => ?_, fun s t h nonce sel hr hsel => ?_,
    fun s t h x d hr => ?_, fun s t h x d hr => ?_, fun s t h hr => ?_, fun s t h us hr hlow hhigh => ?_, fun s t h hr => ?_⟩ <;> intro m
  · refine State.mbox_ok_of hr rfl ?_
    simp [hv, m]
  · exact State.mbox_ok_of hr rfl rfl
  · intro hid
    have hsec : (aliasCert && !m.boot.identity) = false := by cases aliasCert <;> simp_all
    split
    case isTrue hpast =>
      refine State.mbox_no_of (m := m) (by decide) hr rfl ?_
      clear_value m
      simp [hsec, hpast]
    case isFalse hin =>
      refine State.mbox_ok_of hr (m := m) rfl ?_
      clear_value m
      simp [hsec, hin]
  · intro hreset hid bytes kept
    have hknown : ¬ (!m.boot.identity) = true := by simp only [hid, Bool.not_true, Bool.false_eq_true, not_false_iff]
    refine State.mbox_ok_of hr rfl ?_
    change (match selOk h.fn sel with | some st => MRes.no m st | none => _) = _
    rw [hsel]
    change (match (m.ridge sel).resetAt with | some at_ => _ | none => _) = _
    rw [hreset]
    exact if_neg hknown
  · intro hd hvalid hat
    refine State.mbox_ok_of hr (m := m) rfl ?_
    clear_value m
    simp [hd, hvalid, hat]
  · intro hd hvalid hat
    refine State.mbox_ok_of hr (m := m) rfl ?_
    clear_value m
    simp [hd, hvalid, hat]
  · intro part
    exact State.mbox_ok_of hr rfl rfl
  · refine State.mbox_ok_of hr (m := m) rfl ?_
    exact if_neg (by simp; omega)
  · intro at_
    have hmin : (if m.now < m.fab.drainAt then m.now else m.fab.drainAt) = at_ := (min_def_lt _ _).symm
    refine State.mbox_ok_of hr (m := m) rfl ?_
    clear_value m
    simp only [hmin]

end Sys2Proof.Machine
end

section
/-! SUPPORT. Messages about ridges, rings and connections run to their end. -/

namespace Sys2Proof.Machine

open Sys2Proof

/-- Settles O5, message by message: each reaches its own part, and the clause's conditions decide that part's branches. -/
theorem ridgeMessagesComplete : Obligations.RidgeMessagesComplete := by
  refine ⟨fun s t h p r hr => ?_, fun s t h pf en r hr => ?_, fun s t h r hr => ?_, fun s t h r hr => ?_, fun s t h force r hr => ?_,
    fun s t h r hr ht hr16 => ?_⟩ <;> intro m
  · intro hranges habsent hscratch hroom own
    refine State.mboxOn_wait_of hr (m := m) rfl ?_
    clear_value m
    have hallow : (decide (p.scratch = 1) && !m.boot.scratchAllow) = false := by
      by_cases h1 : p.scratch = 1 <;> simp [h1, hscratch]
    simp [hranges, habsent, hallow, hroom, own]
  · intro hpf hen hopen hallow hfree x
    refine State.mboxOn_ok_of hr (m := m) rfl ?_
    clear_value m
    have hset : (decide (en = some 1) && !m.boot.scratchAllow) = false := by
      by_cases h1 : en = some 1 <;> simp [h1, hallow]
    have hclear : (decide (en = some 0) && m.holdsScratch r) = false := by
      by_cases h0 : en = some 0 <;> simp [h0, hfree]
    have hrange : (decide (8 < pf.getD 0) || decide (1 < en.getD (m.ridge r).p.scratch)) = false := by simp; omega
    simp [hrange, hopen, hset, hclear, MRes.okRidge, x]
  · intro hopen x
    refine State.mboxOn_ok_of hr (m := m) rfl ?_
    clear_value m
    simp [hopen, MRes.okRidge, x]
  · intro hdraining hrefused x
    refine State.mboxOn_ok_of hr (m := m) rfl ?_
    clear_value m
    simp [hdraining, hrefused, MRes.okRidge, x]
  · intro hstate
    refine State.mboxOn_wait_of hr (m := m) rfl ?_
    clear_value m
    exact if_pos (by simpa using hstate)
  · exact State.mboxOn0_ok_of hr ht hr16 rfl rfl

-- A message about a ring or a connection of its ridge.

theorem State.mboxRing_ok_of {s m x : State} {t : Nat} {ins : Instr} {h : MbxHdr} {op i r : Nat} {g : Ring}
    {body : State → Nat → Ring → MRes} {vals : List Nat} (hr : s.msgOn t h op .any r = true) (hm : m = s.atMsg t h op) (hi : i < 8192)
    (hg : m.rings.get? (ringKey r i) = some g) (hb : body m r g = .ok x vals) :
    s.mbox t ins h op .any (fun s => withRing h i s (body s)) = .next (x.okMsg h op vals) := by
  obtain ⟨hruns, ht, h1, h2⟩ := Machine.msgOn_parts s t h op .any r hr
  exact State.mbox_ok_of hruns hm ((withRing_of h i m (body m) r g ht h1 h2 hi hg).trans hb)

theorem State.mboxConn_ok_of {s m x : State} {t : Nat} {ins : Instr} {h : MbxHdr} {op n r : Nat} {c : Conn}
    {body : State → Nat → Conn → MRes} {vals : List Nat} (hr : s.msgOn t h op .any r = true) (hm : m = s.atMsg t h op)
    (hc : m.conns.get? n = some c) (hcr : c.ridge = r) (hb : body m r c = .ok x vals) :
    s.mbox t ins h op .any (fun s => withConn h n s (body s)) = .next (x.okMsg h op vals) := by
  obtain ⟨hruns, ht, h1, h2⟩ := Machine.msgOn_parts s t h op .any r hr
  exact State.mbox_ok_of hruns hm ((withConn_of h n m (body m) r c ht h1 h2 hc hcr).trans hb)

theorem State.mboxConn_wait_of {s m x : State} {t : Nat} {ins : Instr} {h : MbxHdr} {op n r : Nat} {c : Conn}
    {body : State → Nat → Conn → MRes} (hr : s.msgOn t h op .any r = true) (hm : m = s.atMsg t h op)
    (hc : m.conns.get? n = some c) (hcr : c.ridge = r) (hb : body m r c = .wait x) :
    s.mbox t ins h op .any (fun s => withConn h n s (body s)) = .next x := by
  obtain ⟨hruns, ht, h1, h2⟩ := Machine.msgOn_parts s t h op .any r hr
  exact State.mbox_wait_of hruns hm ((withConn_of h n m (body m) r c ht h1 h2 hc hcr).trans hb)

/-- Settles O6, message by message: each reaches its own part, and the clause's conditions decide that part's branches. -/
theorem ringAndConnectionMessagesComplete : Obligations.RingAndConnectionMessagesComplete := by
  refine ⟨fun s t h p r i hr => ?_, fun s t h i r g hr hi => ?_, fun s t h i r g hr hi => ?_, fun s t h i r g hr hi => ?_,
    fun s t h p r n peer own m1 m2 hr => ?_, fun s t h n r c hr => ?_, fun s t h n r c hr => ?_, fun s t h n r c hr => ?_⟩ <;> intro m
  · intro creator hopen hok hslice hfree
    refine State.mboxOn_ok_of hr (m := m) rfl ?_
    clear_value m
    simp [hopen, hok, hslice, hfree, creator]
  · intro hg hidle hunused
    refine State.mboxRing_ok_of hr (m := m) rfl hi hg ?_
    clear_value m
    simp only [hidle, hunused]
    rfl
  · intro hg hidle herr
    refine State.mboxRing_ok_of hr (m := m) rfl hi hg ?_
    clear_value m
    simp [hidle, herr]
  · intro hg
    exact State.mboxRing_ok_of hr (m := m) rfl hi hg rfl
  · intro hopen hok hroom htrng hn hpeer hown cross d m3 m4
    have hdraws : (m.boot.trngBad && m.fab.cur.any (fun f => Fabric.crossRack f p.peerAddr)) = false := by
      cases hx : m.fab.cur.any (fun f => f.crossRack p.peerAddr) <;> simp [hx, htrng]
    refine State.mboxOn_ok_of hr (m := m) rfl ?_
    clear_value m
    simp only [hopen, hok, hdraws, hn, hpeer, hown, Nat.not_le.mpr hroom]
    rfl
  · intro hc hcr hfailed htrng d k x
    have hdraws : (m.boot.trngBad && c.crossRack) = false := by cases hx : c.crossRack <;> simp [hx, htrng]
    refine State.mboxConn_ok_of hr (m := m) rfl hc hcr ?_
    clear_value m
    simp only [hfailed, hdraws]
    rfl
  · intro hc hcr hopen
    split
    case isTrue hquiet =>
      refine State.mboxConn_ok_of hr (m := m) rfl hc hcr ?_
      clear_value m
      simp [hopen, hquiet]
    case isFalse hbusy =>
      refine State.mboxConn_wait_of hr (m := m) rfl hc hcr ?_
      clear_value m
      simp [hopen, hbusy]
  · intro hc hcr
    exact State.mboxConn_ok_of hr (m := m) rfl hc hcr rfl

end Sys2Proof.Machine
end

section
/-! SUPPORT. Messages about programs, buffers, indexes, filters, ports and time run to their end. -/

namespace Sys2Proof.Machine

open Sys2Proof

/-- Settles O7, message by message: each reaches its own part, and the clause's conditions decide that part's branches. -/
theorem bufferAndIndexMessagesComplete : Obligations.BufferAndIndexMessagesComplete := by
  refine ⟨fun s t h slot words consts r hr => ?_, fun s t h slot r hr => ?_, fun s t h slots size cirque r g m1 hr => ?_,
    fun s t h region r hr => ?_, fun s t h cirque groups r g gs m1 hr => ?_, fun s t h region r q n hr => ?_,
    fun s t h p r x gs ex hr => ?_, fun s t h index r x hr => ?_, fun s t h width seed groups r gs hr => ?_, fun s t h r hr => ?_⟩
    <;> intro m
  · intro hslot hprog hup last v
    refine State.mboxOn_ok_of hr (m := m) rfl ?_
    clear_value m
    simp [Nat.not_lt.mpr hslot, hprog, hup, v, last]
  · intro hslot hup
    refine State.mboxOn_ok_of hr (m := m) rfl ?_
    clear_value m
    simp [Nat.not_lt.mpr hslot, hup]
  · intro h1 h512 hmod hlow hhigh hcirque hopen hbytes hcount hnew
    refine State.mboxOn_ok_of hr (m := m) rfl ?_
    clear_value m
    have hrange : (decide (slots < 1) || decide (512 < slots) || decide (size % 1024 ≠ 0) || decide (size < 1024) ||
        decide (1048576 < size) || !(m.ridge r).p.cirques.contains cirque) = false := by
      simp only [hcirque]
      simp
      omega
    have hroom : (decide (1048576 < m.cbufBytes cirque + slots * size) || decide (64 ≤ m.cbufCount r)) = false := by
      simp
      omega
    simp only [hrange, hopen, hroom, hnew]
    rfl
  · intro hbuf hfree
    refine State.mboxOn_ok_of hr (m := m) rfl ?_
    clear_value m
    simp [hbuf, Option.isSome_iff_ne_none.mp hfree]
  · intro h1 h1024 hcirque hscratch hopen hgroups hnew w
    refine State.mboxOn_ok_of hr (m := m) rfl ?_
    clear_value m
    have hrange : (decide (groups < 1) || decide (1024 < groups) || !(m.ridge r).p.cirques.contains cirque) = false := by
      simp only [hcirque]
      simp
      omega
    simp only [hrange, hscratch, hopen, hgroups, hnew]
    rfl
  · intro hscratch hidle
    refine State.mboxOn_ok_of hr (m := m) rfl ?_
    clear_value m
    simp only [hscratch, hidle]
    rfl
  · intro hok hcirques hopen hdrain hfree hreserve htrng z w tag gen k new
    refine State.mboxOn_ok_of hr (m := m) rfl ?_
    clear_value m
    simp only [hok, hcirques, hopen, hdrain, hfree, hreserve, htrng]
    rfl
  · intro hx hidle
    refine State.mboxOn_ok_of hr (m := m) rfl ?_
    clear_value m
    simp [hx, hidle]
  · intro hwidth h1 hmax hopen hnone hseqs hreserve htrng w k
    refine State.mboxOn_ok_of hr (m := m) rfl ?_
    clear_value m
    have hrange : (!(width == 256 || width == 512) || decide (groups < 1) || decide (64365 < groups)) = false := by
      simp
      omega
    simp only [hrange, hopen, hnone, hseqs, hreserve, htrng]
    rfl
  · intro hsome hseqs
    refine State.mboxOn_ok_of hr (m := m) rfl ?_
    clear_value m
    simp [Option.isSome_iff_ne_none.mp hsome, hseqs]

/-- The ridge a LOUPE_SET speaks of: the sender's own for a ridge's filters, ridge 0 for the offset tables. -/
theorem State.loupeSet_ok_of {s m x : State} {t : Nat} {i : Instr} {h : MbxHdr} {table : LoupeTable} {r : Nat}
    {body : State → Nat → MRes} {vals : List Nat}
    (hr : table = .rfl ∧ s.msgOn t h 0x0040 .any r = true ∨
      (table = .ofs ∨ table = .ofl) ∧ r = 0 ∧ s.msgRuns t h 0x0040 .ridge0 = true)
    (hm : m = s.atMsg t h 0x0040) (hb : body m r = .ok x vals) :
    s.mbox t i h 0x0040 (lRights table) (fun s => lOwner h s table (body s)) = .next (x.okMsg h 0x0040 vals) := by
  obtain ⟨rfl, hon⟩ | ⟨rfl | rfl, rfl, hruns⟩ := hr
  · exact State.mboxOn_ok_of hon hm hb
  · exact State.mbox_ok_of hruns hm hb
  · exact State.mbox_ok_of hruns hm hb

/-- Settles O8, message by message: each reaches its own part, and the clause's conditions decide that part's branches. -/
theorem loupePortAndTimeMessagesComplete : Obligations.LoupePortAndTimeMessagesComplete := by
  refine ⟨fun s t h table e r b i hr => ?_, fun s t h table index r b i hr => ?_, fun s t h table index e r b i hr => ?_,
    fun s t h port mode mtu macs hr => ?_, fun s t h hr => ?_, fun s t h x cls idle hi r enable full hr ht hr16 => ?_,
    fun s t h x r takeover entries hr ht hr16 => ?_, fun s t h x takeover slots hr => ?_, fun s t h x r hr ht hr16 => ?_⟩
    <;> intro m
  · intro hok hfree
    refine State.loupeSet_ok_of hr (m := m) rfl ?_
    clear_value m
    simp [hok, hfree]
  · intro hnamed
    refine State.loupeSet_ok_of hr (m := m) rfl ?_
    clear_value m
    simp [hnamed]
  · intro hnamed hok
    refine State.loupeSet_ok_of hr (m := m) rfl ?_
    clear_value m
    simp [hnamed, hok]
  · intro hport hmode hlow hhigh hlen hmacs hfree d x
    refine State.mbox_ok_of hr (m := m) rfl ?_
    clear_value m
    have hwf : macs.any (fun a => decide (2 ^ 48 ≤ a)) = false := by
      simpa using hmacs
    have hrange : (decide (1 < port) || decide (2 < mode) || decide (mtu < 1500) || decide (9000 < mtu) ||
        decide (macs.length ≠ 2 ^ mode) || macs.any (fun a => decide (2 ^ 48 ≤ a))) = false := by
      simp only [hwf]
      simp
      omega
    simp only [hrange, hfree]
    rfl
  · intro hst
    refine State.mbox_ok_of hr (m := m) rfl ?_
    clear_value m
    obtain hacq | ⟨hset, halone⟩ := hst
    · simp [hacq]
    · cases hx : m.time.st <;> simp_all
  · intro b k hx hcls h1 hrate hmtu hhi hsum old new busy put
    refine State.mboxOn0_ok_of hr ht hr16 (m := m) rfl ?_
    clear_value m
    simp only [b, k] at hsum
    refine if_neg ?_
    simp [hx]
    omega
  · intro g hx hok htake new
    refine State.mboxOn0_ok_of hr ht hr16 (m := m) rfl ?_
    clear_value m
    exact if_neg (by simp [hx, hok, g, htake])
  · intro g hx hok htake new
    refine State.mbox_ok_of hr (m := m) rfl ?_
    clear_value m
    exact if_neg (by simp [hx, hok, g, htake])
  · intro hx
    refine State.mboxOn0_ok_of hr ht hr16 (m := m) rfl ?_
    clear_value m
    exact if_neg (by simp [hx])

end Sys2Proof.Machine
end

section
/-! SUPPORT. Messages about firmware, power, resets and the test strip run to their end. -/

namespace Sys2Proof.Machine

open Sys2Proof

/-- Settles O9, message by message: each reaches its own part, and the clause's conditions decide that part's branches. -/
theorem firmwarePowerAndResetMessagesComplete : Obligations.FirmwarePowerAndResetMessagesComplete := by
  refine ⟨fun s t h img hr => ?_, fun s t h at_ hr => ?_, fun s t h value hr => ?_, fun s t h rec release hr => ?_,
    fun s t h target hr => ?_, fun s t h hr => ?_, fun s t h r hr => ?_, fun s t h cirque hr => ?_, fun s t h run hr => ?_⟩
  · intro m hnone hblob hpasses
    refine State.mbox_ok_of hr (m := m) rfl ?_
    clear_value m
    simp [hnone, hblob, hpasses]
  · intro m hat harmed hheld hnone hstaged
    refine State.mbox_wait_of hr (m := m) rfl ?_
    clear_value m
    have hfuture : (decide (at_ ≠ 0) && decide (at_ < m.now)) = false := by
      simp
      omega
    have hsome : m.boot.staged.isNone = false := by rw [← Option.not_isSome, hstaged, Bool.not_true]
    simp only [hfuture, harmed, hheld, hnone, hsome]
    rfl
  · intro m hgood hlow hhigh
    refine State.mbox_ok_of hr (m := m) rfl ?_
    clear_value m
    simp [hgood, Nat.not_lt.mpr hlow, Nat.not_lt.mpr hhigh]
  · intro m hdev hed hml howner
    refine State.mbox_ok_of hr (m := m) rfl ?_
    clear_value m
    have hallowed : ((m.boot.owner.isSome || m.boot.ownerNext.isSome) && !releases m.boot.deviceId release) = false := by
      obtain ⟨hown, hnext⟩ | hrelease := howner
      · simp [hown, hnext]
      · simp [hrelease]
    simp only [hed, hml, hallowed]
    simp [hdev]
  · intro m h3 hne h0 hnone hstrip harmed hheld hidle hridges
    have hrange : (decide (3 < target) || decide (target = m.power.state) || (decide (target = 0) && decide (m.power.state ≠ 1))) =
        false := by
      simp
      omega
    have hquiet : (decide (2 ≤ target) && m.ridges.any (fun e => e.2.state == .opening || e.2.state == .closing)) = false := by
      by_cases h2 : 2 ≤ target
      · rw [hridges h2, Bool.and_false]
      · simp [h2]
    by_cases ht0 : target = 0
    · rw [if_pos ht0]
      refine State.mbox_ok_of hr (m := m) rfl ?_
      clear_value m
      simp only [hrange, hquiet, hnone, hstrip, harmed, hheld, hidle, if_pos ht0]
      rfl
    · rw [if_neg ht0]
      by_cases ht1 : target = 1
      · rw [if_pos ht1]
        refine State.mbox_ok_of hr (m := m) rfl ?_
        clear_value m
        simp only [hrange, hquiet, hnone, hstrip, harmed, hheld, hidle, if_neg ht0, if_pos ht1]
        rfl
      · rw [if_neg ht1]
        refine State.mbox_wait_of hr (m := m) rfl ?_
        clear_value m
        simp only [hrange, hquiet, hnone, hstrip, harmed, hheld, hidle, if_neg ht0, if_neg ht1]
        rfl
  · exact State.mbox_ok_of hr rfl rfl
  · intro m hup hnone
    refine State.mboxOn_wait_of hr (m := m) rfl ?_
    clear_value m
    simp [hup, hnone]
  · intro m h16 hzero
    refine State.mbox_ok_of hr (m := m) rfl ?_
    clear_value m
    simp [Nat.not_le.mpr h16, hzero]
  · intro m hcirques hbanks hbreakouts hstate hready hclocks hsupplies
    refine State.mbox_wait_of hr (m := m) rfl ?_
    clear_value m
    simp only [hcirques, hbanks, hbreakouts, hstate, hready, hclocks, hsupplies]
    rfl

end Sys2Proof.Machine
end

section
/-! SUPPORT. Messages about logs, health, belay, stops and the trace run to their end, and stray ones are answered. -/

namespace Sys2Proof.Machine

open Sys2Proof

/-- Settles O10, message by message: each reaches its own part, and the clause's conditions decide that part's branches. -/
theorem healthAndBelayMessagesComplete : Obligations.HealthAndBelayMessagesComplete := by
  refine ⟨fun s t h r start hr hlog => ?_, fun s t h start hr hlog => ?_, fun s t h hr => ?_, fun s t h fraction r hr hmax => ?_,
    fun s t h cirque cell hr hcirque hcell => ?_, fun s t h target count expiry hr => ?_, fun s t h id hr => ?_, fun s t h on hr => ?_,
    fun s t h conn sync r hr => ?_, fun s t h on r hr hup => ?_, fun s t h p r k m1 hr => ?_, fun s t h p r l hr => ?_,
    fun s t h r hr => ?_, fun s t h r hr => ?_⟩
  · intro m l recs
    refine State.mbox_ok_of hr (m := m) rfl ?_
    clear_value m
    simp only [hlog]
    rfl
  · intro m recs
    refine State.mbox_ok_of hr (m := m) rfl ?_
    clear_value m
    simp only [hlog]
    rfl
  · intro m r h16
    refine State.mbox_ok_of hr (m := m) rfl ?_
    exact if_neg (Nat.not_lt.mpr h16)
  · exact State.mboxOn_ok_of hr rfl (if_neg (Nat.not_lt.mpr hmax))
  · exact State.mbox_ok_of hr rfl (if_neg (by simp; omega))
  · intro m hallow hok htarget h1 h255 hexpiry hroom j
    refine State.mbox_ok_of hr (m := m) rfl ?_
    clear_value m
    have hrange : (!target.ok || !m.injTargetOk target || decide (count < 1) || decide (255 < count) || decide (expiry ≤ m.now)) =
        false := by
      simp [hok, htarget]
      omega
    simp only [hallow, hrange, Nat.not_le.mpr hroom]
    rfl
  · intro m hallow hsome x
    refine State.mbox_ok_of hr (m := m) rfl ?_
    clear_value m
    simp only [hallow, hsome]
    rfl
  · intro m hne x y
    refine State.mbox_ok_of hr (m := m) rfl ?_
    clear_value m
    exact if_neg hne
  · intro m hconn
    refine State.mboxOn_ok_of hr (m := m) rfl ?_
    clear_value m
    cases conn with
    | none => rfl
    | some n =>
      obtain ⟨c, hc, hcr, hopen⟩ := hconn n rfl
      simp [hc, hcr, hopen]
  · refine State.mboxOn_ok_of hr rfl (if_neg ?_)
    simp only [hup, Bool.not_true, Bool.false_eq_true, not_false_iff]
  · intro m hopen hnone hok hnew
    refine State.mboxOn_ok_of hr (m := m) rfl ?_
    clear_value m
    simp [hopen, hnone, hok, hnew]
  · intro m hlease hok
    refine State.mboxOn_ok_of hr (m := m) rfl ?_
    clear_value m
    simp [hlease, hok]
  · intro m vals
    refine State.mboxOn_ok_of hr (m := m) rfl ?_
    clear_value m
    simp only [vals]
    cases (m.ridge r).lease with
    | none => rfl
    | some l => rfl
  · exact State.mboxOn_ok_of hr rfl rfl

/-- R510's checks turn an opcode that R378 does not define away with UNSUPPORTED when the checks before it pass. -/
theorem State.mboxCheck_undefined {x : State} {h : MbxHdr} {op v : Nat} (hframing : h.framing = true)
    (hsession : (x.func h.fn.key).session = some v) (hproto : h.proto = v) (hswitch : x.switching = false)
    (hwarm : x.power.warmAt = none) : x.mboxCheck h op false .any = some (.unsupported, 0) := by
  simp [State.mboxCheck, hframing, hsession, hproto, hswitch, hwarm]

theorem State.execMboxUnsupportedOpcode_of (s : State) (t : Nat) (h : MbxHdr) (op : Nat)
    (hcheck : (s.serving t h op).mboxCheck h op false .any = some (.unsupported, 0)) (halive : (s.advance t).dead = false)
    (hawake : (s.advance t).asleep = false) (hserving : (s.advance t).fnServing h.fn = true)
    (hready : ((s.advance t).func h.fn.key).ready = true) (hrec : (s.advance t).boot.recovery = false)
    (hbusy : ((s.advance t).func h.fn.key).busy = none) :
    execMboxUnsupportedOpcode t h op s = .next ((s.serving t h op).answer h.fn.key h.tag op .unsupported 0 []) := by
  have hready' : (((s.advance t).fillRequest h op).func h.fn.key).ready = true :=
    ((s.advance t).fillRequest_func h op).1.trans hready
  have hbusy' : (((s.advance t).fillRequest h op).func h.fn.key).busy = none :=
    ((s.advance t).fillRequest_func h op).2.trans hbusy
  have hserving' : ((s.advance t).fillRequest h op).fnServing h.fn = true := hserving
  have hrec' : ((s.advance t).fillRequest h op).boot.recovery = false := hrec
  rw [State.serving, State.submitted] at hcheck
  unfold execMboxUnsupportedOpcode State.message
  simp only [halive, hawake, hserving', hready', hrec', hbusy', Bool.false_eq_true, if_false, Bool.not_true, Bool.false_and,
    Bool.or_self, Option.isSome_none, State.serve, hcheck]
  rfl

/-- Settles O11, message by message: each reaches its own part, and the clause's conditions decide that part's branches. -/
theorem traceAndStrayMessagesComplete : Obligations.TraceAndStrayMessagesComplete := by
  refine ⟨fun s t h instant holdMax hr => ?_, fun s t h hr => ?_, fun s t h hr hheld => ?_, fun s t h ms r hr ht hr16 hmax => ?_,
    fun s t h sels hr hok => ?_, fun s t h sel hr hk hridges hcirques htypes => ?_, fun s t h mode hr => ?_, fun s t h addr len hr => ?_,
    fun s t fn => ?_, fun s t h op v => ?_, fun s t src d x c => ?_⟩
  · intro m hold h1 h60 hsoon hmax hset hacq hstate htransit hact hheld
    refine State.mbox_ok_of hr (m := m) rfl ?_
    clear_value m
    have hrange : (decide (hold < 1) || decide (60 < hold) || decide (instant < m.now + 1000000) || decide (ctrMax < instant)) =
        false := by
      simp
      omega
    simp only [hold] at hrange
    simp only [hrange, hset, hacq, Nat.not_le.mpr hstate, htransit, hact, hheld]
    rfl
  · exact State.mbox_ok_of hr rfl rfl
  · exact State.mbox_ok_of hr rfl (if_pos hheld)
  · exact State.mboxOn0_ok_of hr ht hr16 rfl (if_neg (Nat.not_lt.mpr hmax))
  · exact State.mbox_ok_of hr rfl (if_pos hok)
  · intro m
    exact State.mbox_ok_of hr rfl (if_neg (by simp; omega))
  · exact State.mbox_ok_of hr rfl rfl
  · intro m hheld hmode hlen
    refine State.mbox_ok_of hr (m := m) rfl ?_
    clear_value m
    simp only [hheld, hmode, Nat.not_lt.mpr hlen]
    rfl
  · intro a hawake halive hserving hbusy
    refine if_neg ?_
    change ¬ (a.asleep || a.dead || !a.fnServing fn || (a.func fn.key).busy.isNone) = true
    rw [hawake, halive, hserving, ← Option.not_isSome, hbusy]
    decide
  · exact fun halive hawake hserving hready hrec hbusy hframing hswitch hwarm0 hsession hproto hwarm =>
      s.execMboxUnsupportedOpcode_of t h op (State.mboxCheck_undefined hframing hsession hproto hswitch hwarm) halive hawake
        hserving hready hrec hbusy
  · intro a hfrozen htake hfail
    simp only [exec, execUndefinedCommandOpcode]
    rw [if_neg (by rw [hfrozen]; decide), htake]
    simp only [hfail]
    rfl

end Sys2Proof.Machine
end

section
/-! SUPPORT. Data-path commands that pass their checks run with their effect. -/

namespace Sys2Proof.Machine

open Sys2Proof

/-- Settles O12, command by command: its checks pass, so it runs, and the clause's conditions decide the branches of its run. -/
theorem sequenceCommandsComplete : Obligations.SequenceCommandsComplete := by
  refine ⟨fun s t src d x c h hdrain hfree hshape htag => ?_, fun s t src d x c q h hok hin htag hq => ?_,
    fun s t src d x c h hok hin htag => ?_, fun s t src d x c q h hq hdrain hst hlow hhigh hfree hlimit htag => ?_,
    fun s t src d data x y c q bs h hq hsrc => ?_, fun s t src d data x y c q bs h hq hstandin hopen hlayer hpage htag hsp hqsrc hsrc => ?_,
    fun s t src d x c q keys bs h hq hst hlayer hkeys htag hout => ?_, fun s t src d x c q h hq => ?_⟩
  · intro p y
    refine s.taken_runs t src d [] openLayout _ _ x c h ?_
    simp only [hdrain, hfree, hshape, htag]
    rfl
  · intro y
    refine (s.taken_runs t src d [] handleLayout _ _ x c h ?_).trans (congrArg Host.Outcome.next ?_)
    · simp only [hok, hin, htag]
      rfl
    · simp only [hq]
      rfl
  · intro y
    refine s.taken_runs t src d [] handleLayout _ _ x c h ?_
    simp only [hok, hin, htag]
    rfl
  · refine s.taken_runs t src d [] forkLayout _ _ x c h ?_
    have hstate : (q.state == .opened || q.state == .sealed) = true := by simpa using hst
    simp only [hq, hdrain, hstate, hlow, hhigh, hfree, hlimit, htag]
    rfl
  · intro a
    refine (s.command_runs t src d _ appendLayout _ _ x c h).trans (congrArg Host.Outcome.next ?_)
    simp only [hq, hsrc]
    rfl
  · intro a
    refine (s.taken_runs t src d _ ingestLayout _ _ x c h ?_).trans (congrArg Host.Outcome.next ?_)
    · have hsource : (c.d.srcOf.qsrc != 0) = true := by simpa using hqsrc
      simp only [hq, hstandin, hopen, hlayer, hpage, htag, hsp, hsource]
      rfl
    · simp only [hsrc]
      rfl
  · intro a hread
    refine (s.taken_runs t src d [] readLayout _ _ x c h ?_).trans (congrArg Host.Outcome.next ?_)
    · have hstate : (q.state == .opened || q.state == .sealed) = true := by simpa using hst
      simp only [hq, hstate, hlayer, hkeys, htag, hout]
      rfl
    · simp only [a] at hread
      simp only [hq, hkeys, Option.getD_some, hread]
      rfl
  · intro l a
    refine (s.command_runs t src d [] prefetchLayout _ _ x c h).trans (congrArg Host.Outcome.next ?_)
    simp only [hq]
    rfl

/-- Settles O13, command by command: its checks pass, so it runs, and the clause's conditions decide the branches of its run. -/
theorem proofCommandsRun : Obligations.ProofCommandsRun := by
  refine ⟨fun s t src d inl x c q h hq => ?_, fun s t src d inl x y c q h hq => ?_, fun s t src d x c h => ?_,
    fun s t src d x c q l h hq => ?_, fun s t src d x c q h hq => ?_⟩
  · intro a
    refine (s.command_runs t src d inl developLayout _ _ x c h).trans (congrArg Host.Outcome.next ?_)
    simp only [hq]
    rfl
  · intro a htime hgrads
    refine (s.command_runs t src d inl developLayout _ _ x c h).trans (congrArg Host.Outcome.next ?_)
    have hintime : (c.d.lateDiscard && decide (a.1.deadlineFor c.d < a.1.now)) = false := by
      by_cases hl : c.d.lateDiscard = true <;> simp [hl, htime]
    simp only [a] at hintime hgrads
    simp only [hq, hintime, hgrads]
    rfl
  · exact s.command_runs t src d [] compositeLayout _ _ x c h
  · intro a hrecords
    refine (s.command_runs t src d [] gradSendLayout _ _ x c h).trans (congrArg Host.Outcome.next ?_)
    simp only [a] at hrecords
    simp only [hq, hrecords]
    rfl
  · intro y
    refine (s.command_runs t src d [] gradClearLayout _ _ x c h).trans (congrArg Host.Outcome.next ?_)
    simp only [hq]
    rfl

/-- Settles O14, command by command: its checks pass, so it runs, and the clause's conditions decide the branches of its run. -/
theorem indexAndCairnCommandsRun : Obligations.IndexAndCairnCommandsRun := by
  refine ⟨fun s t src d inl x c g h hg => ?_, fun s t src d data x y c g bs h hg hsrc => ?_,
    fun s t src d data x y c g bs h hg hsrc => ?_, fun s t src d x c g h hg htag => ?_, fun s t src d inl x c q n held h hq => ?_,
    fun s t src d x c q n held h hq => ?_, fun s t src d x c h => ?_⟩
  · intro a
    refine (s.command_runs t src d inl queryLayout _ _ x c h).trans (congrArg Host.Outcome.next ?_)
    simp only [hg]
    rfl
  · intro a
    refine (s.command_runs t src d _ insertLayout _ _ x c h).trans (congrArg Host.Outcome.next ?_)
    simp only [hg, hsrc]
    rfl
  · intro a
    refine (s.command_runs t src d _ insertLayout _ _ x c h).trans (congrArg Host.Outcome.next ?_)
    simp only [hg, hsrc]
    rfl
  · refine (s.taken_runs t src d [] handleLayout _ _ x c h ?_).trans (congrArg Host.Outcome.next ?_)
    · simp only [hg, htag]
      rfl
    · simp only [hg]
  · intro a banks latch
    refine (s.command_runs t src d inl cairnLayout _ _ x c h).trans (congrArg Host.Outcome.next ?_)
    simp only [hq, a, banks, latch, Bool.or_eq_true, decide_eq_true_eq]
  · intro a y
    refine (s.command_runs t src d [] holdLayout _ _ x c h).trans (congrArg Host.Outcome.next ?_)
    simp only [hq]
    rfl
  · exact s.command_runs t src d [] holdLayout _ _ x c h

end Sys2Proof.Machine
end

section
/-! SUPPORT. BAR accesses of a served window, and Kalad packets from the wire to their own part. -/

namespace Sys2Proof.Machine

open Sys2Proof

/-- Settles O15, access by access: a served window's write takes its effect, and a read is decided by the register at its offset. -/
theorem barAccessesComplete : Obligations.BarAccessesComplete := by
  refine ⟨fun s t fn ridge ring tail h => ?_, fun s t fn ridge ring head h => ?_, fun s t fn bits h => ?_, fun s t fn bits h => ?_,
    fun s t value h => ?_, fun s t fn offset size value h => ?_, fun s t fn offset size h => ?_, fun s t fn offset v hf => ?_,
    fun s t fn offset v hf => ?_, fun s t fn offset v hf => ?_, fun s t fn offset hf => ?_, fun s t fn offset size hawake halive => ?_⟩
  · exact s.arrive_runs t fn (ringOff fn ridge ring 0) 4 (tail % 4096) (fun s => s.heldWrite fn (ringOff fn ridge ring 0) (tail % 4096)
      (fun s => s.ringDbW (ringRidge fn ridge) ring (tail % 4096))) h
  · exact s.arrive_runs t fn (ringOff fn ridge ring 4) 4 (head % 4096) (fun s => s.heldWrite fn (ringOff fn ridge ring 4) (head % 4096)
      (fun s => s.cqHeadW (ringRidge fn ridge) ring (head % 4096))) h
  · exact s.arrive_runs t fn 0x2000 4 bits.toNat (fun s => s.causeW fn.key bits) h
  · exact s.arrive_runs t fn 0x2008 4 bits.toNat (fun s => s.enableW fn.key bits) h
  · exact s.arrive_runs t .pf 0x27020 4 value.toNat (fun s => s.markW value.toNat) h
  · exact s.arrive_runs t fn offset size value (fun s => s.barWrite fn offset size value) h
  · exact s.arrive_runs t fn offset size 0 (fun s => s.bumpN 15) h
  · intro a halive h64
    simp only [a] at halive h64
    simp only [exec, execLowWordRead, hf, halive, h64, Bool.false_eq_true, if_false, a]
  · intro a halive h64 h32
    simp only [a] at halive h64 h32
    simp only [exec, execLowWordRead, hf, halive, h64, h32, Bool.false_eq_true, if_false, a]
  · intro a halive h64 h32 hhigh hlow
    simp only [a] at halive h64 h32 hlow
    simp only [exec, execLowWordRead, hf, halive, h64, h32, hhigh, hlow, Bool.false_eq_true, if_false, if_true, a]
  · intro a halive h64 h32 hlow hbad
    simp only [a] at halive h64 h32
    simp only [exec, execLowWordRead, hf, halive, h64, h32, if_neg hlow, hbad, Bool.false_eq_true, if_false, a]
  · intro a hnow hserving
    simp only [a] at hnow hserving
    simp only [exec, execBarBadAccess, hawake, halive, Bool.false_eq_true, if_false, State.badRead, hnow, hserving, Bool.not_true,
      Bool.or_self, a]

theorem exec_of_kaladPacket {s : State} {t : Nat} {p : KPkt} {i : Instr}
    (hi : i = .write t p ∨ i = .writeImm t p ∨ i = .readReq t p ∨ i = .readResp t p ∨ i = .command t p ∨ i = .ack t p ∨
      i = .sack t p ∨ i = .nack t p) : exec i s = .next ((s.advance t).kRecv p) := by
  rcases hi with rfl | rfl | rfl | rfl | rfl | rfl | rfl | rfl <;> rfl

/-- Settles O16, clause by clause along the front of a packet's way (R269). -/
theorem packetsComplete : Obligations.PacketsComplete := by
  refine ⟨fun s t p i x y hi hgate hfront hconn hclass => ?_, fun s t p r x n c hfront hdecl hst hver hok => ?_,
    fun s t p r x n c hfront hto hver hok hseg => ?_, fun s t p r x n c hfront hto h1 h3 => ?_⟩
  · simp only [exec_of_kaladPacket hi, State.kRecv, hgate, hfront, if_neg hconn, hclass]
  · intro seg a z y
    simp only [exec, execConnect, hfront, hdecl, if_neg hst, hver, hok]
    rfl
  · intro own z
    simp only [exec, execAccept, hfront, hto, hver, hok, Nat.not_lt.mpr hseg]
    rfl
  · simp only [exec, execRefuse, hfront, hto, h1, h3, and_self, if_true]

/-- A packet with data that passes checks 8 to 13 of R269 is placed. -/
theorem State.kCheck8_accepted {z : State} {n : Nat} {k : Conn} {p : KPkt} (hop : p.hdr.op < 5) (h : (z.ceMarked n p).kAccepted k p) :
    z.kCheck8 n k p = ((z.ceMarked n p).filmRx n k p 0).kPlace n k p := by
  obtain ⟨hdup, hwin, hepoch, hlen, hregion⟩ := h
  have h56 : (decide (p.hdr.op = 5) || decide (p.hdr.op = 6)) = false := by
    simp
    omega
  have h7 : ¬ p.hdr.op = 7 := by omega
  unfold State.kCheck8
  simp only [h56, h7, hdup, hwin, hepoch, hlen, hregion, Bool.false_eq_true, if_false, Bool.not_true]

/-- Settles O17, from `kRecv_passes`: a packet that passes checks 1 to 7 comes to check 8, whose branches the clause's conditions decide. -/
theorem acceptedPacketsTakeEffect : Obligations.AcceptedPacketsTakeEffect := by
  refine ⟨fun s t p i c hi hp => ?_, fun s t p i c hi hp hack hsack => ?_, fun s t p c hop hp hcode => ?_⟩
  · intro n z k haccept
    have hop : p.hdr.op < 5 := by omega
    have hi' : i = .write t p ∨ i = .writeImm t p ∨ i = .readReq t p ∨ i = .readResp t p ∨ i = .command t p ∨ i = .ack t p ∨
        i = .sack t p ∨ i = .nack t p := by tauto
    rw [exec_of_kaladPacket hi', State.kRecv_passes _ c p hp, State.kCheck8_accepted hop haccept]
  · intro z
    have hop : (decide (p.hdr.op = 5) || decide (p.hdr.op = 6)) = true := by
      simp
      omega
    have hi' : i = .write t p ∨ i = .writeImm t p ∨ i = .readReq t p ∨ i = .readResp t p ∨ i = .command t p ∨ i = .ack t p ∨
        i = .sack t p ∨ i = .nack t p := by tauto
    rw [exec_of_kaladPacket hi', State.kRecv_passes _ c p hp, State.kCheck8]
    simp only [hop, if_true]
    rfl
  · intro z
    change Host.Outcome.next ((s.advance t).kRecv p) = _
    rw [State.kRecv_passes _ c p hp, State.kCheck8]
    simp only [hop]
    rfl

end Sys2Proof.Machine
end

section
/-! SUPPORT. Events and timers of a connection act when they are due. -/

namespace Sys2Proof.Machine

open Sys2Proof

/-- Settles O18, event by event: the clause's conditions decide the branches of the event's own part. -/
theorem connectionEventsComplete : Obligations.ConnectionEventsComplete := by
  refine ⟨fun s t n msn c m => ?_, fun s t n c => ?_, fun s t n c => ?_, fun s t n at_ c => ?_, fun s t n at_ c => ?_,
    fun s t n c => ?_, fun s t n c => ?_, fun s t n at_ c => ?_, fun s t n at_ c => ?_⟩
  · simp only [exec, execMessageNotify]
    generalize s.advance t = a
    intro hc hf hopen hnotice
    simp only [hc, hf, hopen, hnotice, ne_eq, not_true_eq_false, decide_false, Bool.or_self, Bool.false_eq_true, if_false,
      apply_ite Host.Outcome.next]
  · simp only [exec, execContextFetchDone]
    generalize s.advance t = a
    intro hc hf hoff hparked
    simp only [hc, hf, hoff, hparked, Bool.or_self, Bool.false_eq_true, if_false, Bool.not_true]
  · simp only [exec, execContextFetchDone]
    generalize s.advance t = a
    intro hc hf hoff hparked
    simp only [hc, hf, hoff, hparked, Bool.or_self, Bool.false_eq_true, if_false, Bool.not_false, if_true]
  · simp only [exec, execRtoExpiry]
    generalize s.advance t = a
    intro hc hrto hf hopen hdue hun
    simp only [hc, hrto, hf, hopen, Nat.not_lt.mpr hdue, hun, ne_eq, not_true_eq_false, decide_false, Bool.or_self, Bool.false_eq_true,
      if_false, apply_ite Host.Outcome.next]
  · simp only [exec, execAckDelayExpiry]
    generalize s.advance t = a
    intro hc hold hf hopen hdue
    simp only [hc, hold, hf, hopen, Nat.not_lt.mpr hdue, ne_eq, not_true_eq_false, decide_false, Bool.or_self, Bool.false_eq_true,
      if_false]
  · simp only [exec, execConnectResend]
    generalize s.advance t = a
    intro hc hf hconnecting hdue
    simp only [hc, hf, hconnecting, Nat.not_lt.mpr hdue, ne_eq, not_true_eq_false, decide_false, Bool.or_self, Bool.false_eq_true,
      if_false, apply_ite Host.Outcome.next]
  · simp only [exec, execRetryAfterExpiry]
    generalize s.advance t = a
    intro hc hf hopen
    simp only [hc, hf, hopen, ne_eq, not_true_eq_false, decide_false, Bool.or_self, Bool.false_eq_true, if_false]
  · simp only [exec, execConnCloseTimeout]
    generalize s.advance t = a
    intro hc hclosing hf hdue
    have hwait : (decide (a.now < at_) && !c.quiet) = false := by
      obtain hpast | hquiet := hdue
      · simp [Nat.not_lt.mpr hpast]
      · simp [hquiet]
    simp only [hc, hclosing, hf, hwait, Bool.or_self, Bool.false_eq_true, if_false]
  · simp only [exec, execOldKeyExpiry]
    generalize s.advance t = a
    intro hc hkey hdue
    simp only [hc, hkey, isDueAt, hdue, decide_true, if_true]

end Sys2Proof.Machine
end

section
/-! SUPPORT. Time, frame and port events act on network time and on their breakout. -/

namespace Sys2Proof.Machine

open Sys2Proof

/-- The best master is one of the clocks heard. -/
theorem bestMaster_mem {l : List (Nat × Announce)} {v : Nat × Announce} (h : bestMaster l = some v) : v ∈ l := by
  induction l using List.reverseRecOn with
  | nil => cases h
  | append_singleton l e ih =>
    rw [bestMaster, List.foldl_append, ← bestMaster] at h
    cases hb : bestMaster l with
    | none => simp_all
    | some w =>
      rw [hb] at h ih
      simp only [List.foldl_cons, List.foldl_nil] at h
      split at h
      · simp_all
      · cases h
        exact List.mem_append_left _ (ih rfl)

/-- A clock heard last that is better than every other is the best master. -/
theorem bestMaster_append_of_best {l : List (Nat × Announce)} {e : Nat × Announce}
    (h : ∀ v ∈ l, lexLess (announceKey e.2 e.1) (announceKey v.2 v.1) = true) : bestMaster (l ++ [e]) = some e := by
  rw [bestMaster, List.foldl_append, ← bestMaster]
  cases hb : bestMaster l with
  | none => rfl
  | some v => exact if_pos (h v (bestMaster_mem hb))

/-- Settles O19, event by event: the clause's conditions decide the branches of the event's own part. -/
theorem timeEventsComplete : Obligations.TimeEventsComplete := by
  refine ⟨fun s t domain brk offset logInterval x m hon hfront hmaster => ?_, fun s t domain brk n x hon hfront => ?_,
    fun x brk n hbest => ?_, fun s t domain brk delay x m hon hfront hmaster => ?_, fun s t => ?_, fun s t => ?_, fun s t => ?_,
    fun s t => ?_, fun s t => ?_, fun s t => ?_⟩
  · simp only [exec, execPtpSync, hon, hfront, hmaster, Bool.not_true, Bool.false_eq_true, if_false, ne_eq, not_true_eq_false,
      apply_ite Host.Outcome.next]
  · simp only [exec, execPtpAnnounce, hon, hfront, Bool.not_true, Bool.false_eq_true, if_false]
  · refine bestMaster_append_of_best fun v hv => ?_
    obtain ⟨hmem, hother⟩ := List.mem_filter.mp hv
    obtain ⟨hbrk, hid⟩ | hless := hbest v hmem
    · simp [hbrk, hid] at hother
    · exact hless
  · simp only [exec, execPtpDelayResp, hon, hfront, hmaster, Bool.not_true, Bool.false_eq_true, if_false, beq_self_eq_true, if_true]
  · simp only [exec, execPpsInEdge]
    generalize s.advance t = a
    intro hrole hon hset
    simp only [hrole, hon, hset, ne_eq, not_true_eq_false, decide_false, Bool.not_true, Bool.or_self, Bool.false_eq_true, if_false]
  · rfl
  · intro a hdue
    exact if_neg (Nat.not_lt.mpr hdue)
  · simp only [exec, execHoldoverSecond]
    generalize s.advance t = a
    intro hst hdue
    simp only [hst, Nat.not_lt.mpr hdue, ne_eq, not_true_eq_false, decide_false, Bool.or_self, Bool.false_eq_true, if_false]
  · simp only [exec, execPpsLoss]
    generalize s.advance t = a
    intro hphase hdue
    simp only [hphase, Nat.not_lt.mpr hdue, decide_false, Bool.not_true, Bool.or_self, Bool.false_eq_true, if_false]
  · simp only [exec, execPpsOutEdge]
    generalize s.advance t = a
    intro hrole hsecond hset hacq hon hnew
    simp only [hrole, hsecond, hset, hacq, hon, hnew, ne_eq, not_true_eq_false, decide_false, Bool.not_true, Bool.or_self,
      Bool.false_eq_true, if_false]

/-- Settles O20, event by event: the clause's conditions decide the branches of the event's own part. -/
theorem frameAndPortEventsComplete : Obligations.FrameAndPortEventsComplete := by
  refine ⟨fun s t brk target f => ?_, fun s t brk hlink => ?_, fun s t f => ?_, fun s t x => ?_, fun s t x => ?_, fun s t x => ?_,
    fun s t r x => rfl, fun s t x slots at_ => ?_⟩
  · simp only [exec, execArpRx]
    generalize s.advance t = a
    intro hon hlink hheld hfab hown
    simp only [hon, hlink, hheld, hfab, hown, Bool.not_true, Bool.or_self, Bool.false_eq_true, if_false, Bool.and_self, if_true]
  · simp only [exec, execEthFrameDrop, hlink, Bool.not_true, Bool.false_eq_true, if_false, and_self]
  · simp only [exec, execWakeFrame]
    generalize s.advance t = a
    intro halive hwake hheld hasleep hwakes
    simp only [halive, hwake, hheld, hasleep, hwakes, Bool.not_true, Bool.or_self, Bool.false_eq_true, if_false, if_true]
  · simp only [exec, execEgressDecision]
    generalize s.advance t = a
    intro hfree hx hheld hlink halive hawake
    simp only [Nat.not_lt.mpr hfree, hx, hheld, hlink, halive, hawake, decide_false, Bool.not_true, Bool.or_self, Bool.false_eq_true,
      if_false, Bool.false_and]
    generalize State.choose7 _ _ _ _ _ _ = chosen
    obtain _ | ⟨c, q, f, defs⟩ := chosen
    · rfl
    · rfl
  · simp only [exec, execLinkDown]
    generalize s.advance t = a
    intro hlink
    rw [State.linkLost, if_neg (by rw [hlink]; decide)]
    rfl
  · simp only [exec, execLinkUp]
    generalize s.advance t = a
    intro hlink hx hstate halive hclock
    simp only [hlink, hx, hstate, halive, hclock, decide_false, Bool.not_true, Bool.or_self, Bool.false_eq_true, if_false]
  · simp only [exec, execShutterTakeover]
    generalize s.advance t = a
    intro hpend hdue
    simp only [hpend, Nat.not_lt.mpr hdue, if_false]

end Sys2Proof.Machine
end

section
/-! SUPPORT. Fabric instants, requests, cells and pages: their events act when due. -/

namespace Sys2Proof.Machine

open Sys2Proof

/-- Settles O21, event by event: the clause's conditions decide the branches of the event's own part. -/
theorem fabricInstantsComplete : Obligations.FabricInstantsComplete := by
  refine ⟨fun s t f => ?_, fun s t => ?_, fun s t n f => ?_, fun s t slot => rfl⟩
  · simp only [exec, execFabricActivation]
    generalize s.advance t = a
    intro hpend hdue
    simp only [hpend, Nat.not_lt.mpr hdue, if_false]
  · intro a hdue
    exact if_neg (Nat.not_lt.mpr hdue)
  · simp only [exec, execExposureBoundary]
    generalize s.advance t = a
    intro hfab hopen hclose hawake halive hnew
    have hfirst : (a.sns.boundaryAt == some (openingOf f n)) = false := by simpa using hnew
    simp only [hfab, Nat.not_lt.mpr hopen, Nat.not_le.mpr hclose, hawake, halive, hfirst, decide_false, Bool.or_self,
      Bool.false_eq_true, if_false, apply_ite Host.Outcome.next]

/-- Settles O22, event by event: the clause's conditions decide the branches of the event's own part. -/
theorem requestAndCellEventsComplete : Obligations.RequestAndCellEventsComplete := by
  refine ⟨fun s t slot data q bytes => ?_, fun s t slot err q => ?_, fun s t slot q => ?_, fun s t slot ok q => ?_,
    fun s t slot ok b q => ?_, fun s t q => ?_, fun s t q cell flip i r w => ?_, fun s t q => ?_, fun s t q cell => ?_,
    fun s t q slot start kind err p => ?_⟩
  · simp only [exec, execQueryPlaced]
    generalize s.advance t = a
    intro hf hq hphase hplaced hlen htime
    have hintime : (decide (q.deadline < a.now) && (q.desc.srcOf.qsrc == 3 || !q.placed)) = false := by
      obtain hearly | ⟨hsrc, hdone⟩ := htime
      · simp [Nat.not_lt.mpr hearly]
      · simp [hsrc, hdone]
    simp only [hf, hq, hphase, hintime, hplaced, Nat.not_lt.mpr hlen, ne_eq, not_true_eq_false, Bool.false_eq_true, if_false]
  · simp only [exec, execThinPhaseDone]
    generalize s.advance t = a
    intro hq hf hphase hsegs
    simp only [hq, hf, hphase, hsegs, ne_eq, not_true_eq_false, decide_false, Bool.or_self, Bool.false_eq_true, if_false,
      apply_ite Host.Outcome.next]
  · simp only [exec, execRequestFinish]
    generalize s.advance t = a
    intro hq hf hdone
    simp only [hq, hf, hdone, Bool.not_true, Bool.or_self, Bool.false_eq_true, if_false, apply_ite Host.Outcome.next]
  · simp only [exec, execOutputDelivered]
    generalize s.advance t = a
    intro hf hq hphase hout
    simp only [hf, hq, hphase, hout, ne_eq, not_true_eq_false, Bool.false_eq_true, if_false, if_true]
  · simp only [exec, execOutputDelivered]
    generalize s.advance t = a
    intro hf hq hphase hout hdone
    simp only [hf, hq, hphase, hout, hdone, ne_eq, not_true_eq_false, Bool.false_eq_true, if_false]
  · simp only [exec, execItemDispatch]
    generalize s.advance t = a
    intro hf hready
    simp only [hf, hready, Bool.or_self, Bool.false_eq_true, if_false]
  · simp only [exec, execItemComplete]
    generalize s.advance t = a
    intro hitem hf hfed hstall hgood hreq hop hwork
    have hkind : (r.opcode == 0x28) = false := by simpa using hop
    simp only [hitem, hf, hfed, Nat.not_lt.mpr hstall, hgood, hreq, hop, hkind, hwork, reduceCtorEq, decide_false, Bool.not_true,
      Bool.or_self, Bool.and_self, Bool.false_eq_true, if_false]
  · intro a hf
    exact if_neg (by rw [hf]; decide)
  · simp only [exec, execSpillComplete]
    generalize s.advance t = a
    intro hf hspilling
    exact if_neg (by rw [hf, hspilling]; decide)
  · simp only [exec, execFillComplete]
    generalize s.advance t = a
    intro hf hfill hp
    simp only [hf, hfill, hp]
    generalize State.fillRead _ _ _ _ = read
    obtain ⟨f, _ | ⟨g, cause⟩⟩ := read
    · rfl
    · rfl

/-- Settles O23, event by event: the clause's conditions decide the branches of the event's own part. -/
theorem pageEventsComplete : Obligations.PageEventsComplete := by
  refine ⟨fun s t q key rest p => ?_, fun s t slot => ?_, fun s t slot => ?_, fun s t slot r q => ?_, fun s t index => ?_⟩
  · simp only [exec, execPageSeal]
    generalize s.advance t = a
    intro hheld halive hawake hq hp hgood
    simp only [hheld, halive, hawake, hq, hp, hgood, Bool.false_and, Bool.or_self, Bool.false_eq_true, if_false, List.find?_nil]
  · simp only [exec, execRingReuseResume]
    generalize s.advance t = a
    intro hf happend
    simp only [hf, happend, Bool.false_eq_true, if_false, if_true]
  · simp only [exec, execRingReuseResume]
    generalize s.advance t = a
    intro hf happend hingest
    simp only [hf, happend, hingest, Bool.false_eq_true, if_false, if_true]
  · simp only [exec, execForkResume]
    generalize s.advance t = a
    intro hf hr hphase hq hready
    simp only [hf, hr, hphase, hq, hready, ne_eq, not_true_eq_false, Bool.false_eq_true, if_false, if_true]
  · intro a hf
    exact if_neg (by rw [hf]; decide)

end Sys2Proof.Machine
end

section
/-! SUPPORT. Events of rings, PCIe and the Cairn units act when due. -/

namespace Sys2Proof.Machine

open Sys2Proof

/-- Settles O24, event by event: the clause's conditions decide the branches of the event's own part. -/
theorem ringAndPcieEventsComplete : Obligations.RingAndPcieEventsComplete := by
  refine ⟨fun s t r i g => ?_, fun s t r i at_ g => ?_, fun s t r i span g => ?_, fun s t r i g => ?_, fun s t slot q => ?_,
    fun s t => rfl, fun s t => rfl, fun s t r => rfl, fun s t numVfs enable => rfl⟩
  · simp only [exec, execRingSpanFetch]
    generalize s.advance t = a
    intro hg hf hwait hfree
    simp only [hg, hf, hwait, hfree, Bool.not_true, Bool.or_self, Bool.false_eq_true, if_false]
  · simp only [exec, execCoalTimeout]
    generalize s.advance t = a
    intro hg hsince hf hdue hrun
    simp only [hg, hsince, hf, Nat.not_lt.mpr hdue, hrun, decide_false, Bool.or_self, Bool.false_eq_true, if_false]
  · simp only [exec, execSubmissionFetchComplete]
    generalize s.advance t = a
    intro hg hf hhost hactive hup hwait h1 hspan hfew hroom
    have hsome : span ≠ 0 := by omega
    have hnew : g.waiting ≠ 0 := by omega
    simp only [hg, hf, hhost, hactive, hup, hwait, hsome, hnew, Nat.not_le.mpr hspan, Nat.not_lt.mpr hfew, Nat.not_le.mpr hroom, ne_eq,
      not_true_eq_false, decide_false, Bool.not_true, Bool.or_self, Bool.false_eq_true, if_false]
  · simp only [exec, execPcieReadFailed]
    generalize s.advance t = a
    intro hg hf hhost hactive
    simp only [hg, hf, hhost, hactive, ne_eq, not_true_eq_false, decide_false, Bool.not_true, Bool.or_self, Bool.false_eq_true, if_false]
  · simp only [exec, execPcieReadFailed]
    generalize s.advance t = a
    intro hq hf hphase hsrc
    simp only [hq, hf, hphase, hsrc, ne_eq, not_true_eq_false, decide_false, Bool.or_self, Bool.false_eq_true, if_false]

/-- Settles O25, event by event: the clause's conditions decide the branches of the event's own part. -/
theorem cairnEventsComplete : Obligations.CairnEventsComplete := by
  refine ⟨fun s t r i q no x m => ?_, fun s t q bank met g => ?_, fun s t q g => ?_, fun s t k => ?_, fun s t q bank => ?_,
    fun s t q g at_ => ?_⟩
  · simp only [exec, execStripeSwitch]
    generalize s.advance t = a
    intro hx hmerge hf hretired
    simp only [hx, hmerge, hf, hretired, Bool.or_self, Bool.false_eq_true, if_false]
  · simp only [exec, execSegmentComplete]
    generalize s.advance t = a
    intro hf hg
    simp only [hf, hg, Bool.false_eq_true, if_false]
  · simp only [exec, execModeEntryComplete]
    generalize s.advance t = a
    intro hf hentering hnot
    have hsome : (a.group (groupKey q g)).entering.isNone = false := by rw [← Option.not_isSome, hentering, Bool.not_true]
    simp only [hf, hsome, hnot, Bool.or_self, Bool.false_eq_true, if_false]
  · simp only [exec, execCairnTick]
    generalize s.advance t = a
    intro hf hnew
    simp only [hf, Nat.not_le.mpr hnew, decide_false, Bool.or_self, Bool.false_eq_true, if_false]
  · simp only [exec, execRefreshDue]
    generalize s.advance t = a
    intro hf hdue
    simp only [hf, Nat.not_lt.mpr hdue, decide_false, Bool.or_self, Bool.false_eq_true, if_false, apply_ite Host.Outcome.next]
  · simp only [exec, execLingerExpiry]
    generalize s.advance t = a
    intro hf hholders hbusy hlinger hdue
    simp only [hf, hholders, hbusy, hlinger, hdue, Bool.not_true, Bool.or_self, Bool.false_eq_true, if_false, if_true]

end Sys2Proof.Machine
end

section
/-! SUPPORT. Events of the patrol, health, leases, the watchdog and the global stop act when due. -/

namespace Sys2Proof.Machine

open Sys2Proof

/-- Settles O26, event by event: the clause's conditions decide the branches of the event's own part. -/
theorem healthAndLeaseEventsComplete : Obligations.HealthAndLeaseEventsComplete := by
  refine ⟨fun s t k => ?_, fun s t => ?_, fun s t b i e => ?_, fun s t => ?_, fun s t => ?_, fun s t id => rfl,
    fun s t r n l k => ?_, fun s t r => rfl, fun s t r l => ?_⟩
  · simp only [exec, execPatrolRead]
    generalize s.advance t = a
    intro hf hzero hpages hzero' hpages'
    simp only [hf, hzero', hpages', Bool.false_eq_true, if_false, List.find?_nil]
  · simp only [exec, execScrubPass]
    generalize s.advance t = a
    intro hf hdue
    simp only [hf, hdue, ne_eq, not_true_eq_false, decide_false, Bool.or_self, Bool.false_eq_true, if_false]
  · simp only [exec, execScrubPass]
    generalize s.advance t = a
    intro hf hdue hcopy
    simp only [hf, hdue, hcopy, ne_eq, not_true_eq_false, decide_false, Bool.or_self, Bool.false_eq_true, if_false]
  · simp only [exec, execHealthDecay]
    generalize s.advance t = a
    intro hawake halive hdue
    simp only [hawake, halive, Nat.not_lt.mpr hdue, decide_false, Bool.or_self, Bool.false_eq_true, if_false]
  · simp only [exec, execAdvisoryMinute]
    generalize s.advance t = a
    intro hawake halive hdue
    simp only [hawake, halive, Nat.not_lt.mpr hdue, decide_false, Bool.or_self, Bool.false_eq_true, if_false]
  · simp only [exec, execLeaseRecordSend]
    generalize s.advance t = a
    intro hlease hf hdue hpeer
    simp only [hlease, hf, Nat.not_lt.mpr hdue, hpeer, decide_false, Bool.or_self, Bool.false_eq_true, if_false]
    generalize State.kSend _ _ _ _ _ _ _ _ = sent
    obtain _ | ⟨c, x⟩ := sent
    · rfl
    · rfl
  · simp only [exec, execOrphanReclaim]
    generalize s.advance t = a
    intro hlease hf hlost hnew horphan hdue
    simp only [hlease, hf, hlost, hnew, horphan, Nat.not_lt.mpr hdue, decide_false, Bool.or_self, Bool.false_eq_true, if_false]

/-- Settles O27, event by event: the clause's conditions decide the branches of the event's own part. -/
theorem traceEventsComplete : Obligations.TraceEventsComplete := by
  refine ⟨fun s t slot q => ?_, fun s t => ?_, fun s t at_ hold => ?_, fun s t => ?_, fun s t => ?_⟩
  · simp only [exec, execWatchdogFire]
    generalize s.advance t = a
    intro hq hf hnew hposted hwaiting hon hdue
    simp only [hq, hf, hnew, hposted, hwaiting, hon, Nat.not_lt.mpr hdue, decide_false, Bool.or_self, Bool.false_eq_true, if_false]
  · simp only [exec, execFilmstripSync]
    generalize s.advance t = a
    intro hawake halive hnew
    simp only [hawake, halive, Nat.not_le.mpr hnew, decide_false, Bool.or_self, Bool.false_eq_true, if_false]
    rfl
  · simp only [exec, execStopCut]
    generalize s.advance t = a
    intro harmed hdue hawake halive
    simp only [harmed, Nat.not_lt.mpr hdue, hawake, halive, decide_false, Bool.or_self, Bool.false_eq_true, if_false]
  · simp only [exec, execCutWritten]
    generalize s.advance t = a
    intro hheld hnew halive
    simp only [hheld, hnew, halive, Bool.not_true, Bool.or_self, Bool.false_eq_true, if_false]
  · simp only [exec, execHoldMaxExpiry]
    generalize s.advance t = a
    intro hheld hdue halive
    simp only [hheld, hdue, halive, decide_true, Bool.not_false, Bool.and_self, if_true]

end Sys2Proof.Machine
end

section
/-! SUPPORT. What a reset, a strip run, a switch, a hold or a ridge's opening and close began comes to its end. -/

namespace Sys2Proof.Machine

open Sys2Proof

/-- Settles O29, event by event: the clause's conditions decide the branches of the event's own part. -/
theorem completionEventsComplete : Obligations.CompletionEventsComplete := by
  refine ⟨fun s t c => ?_, fun s t r => ?_, fun s t r run => ?_, fun s t at_ fn x => ?_, fun s t at_ fn x => ?_,
    fun s t fn r => ?_, fun s t => rfl⟩
  · simp only [exec, execWarmResetComplete]
    generalize s.advance t = a
    intro hwarm halive
    have hsome : a.power.warmAt.isNone = false := by rw [← Option.not_isSome, hwarm, Bool.not_true]
    simp only [hsome, halive, Bool.or_self, Bool.false_eq_true, if_false]
  · simp only [exec, execRidgeResetComplete]
    generalize s.advance t = a
    intro hf hreset
    have hsome : (a.ridge r).resetAt.isNone = false := by rw [← Option.not_isSome, hreset, Bool.not_true]
    simp only [hf, hsome, Bool.or_self, Bool.false_eq_true, if_false]
  · simp only [exec, execStripComplete]
    generalize s.advance t = a
    intro hrun hf hstate
    simp only [hrun, hf, hstate, ne_eq, not_true_eq_false, decide_false, Bool.or_self, Bool.false_eq_true, if_false]
  · simp only [exec, execFwSwitch]
    generalize s.advance t = a
    intro hact hstaged hdue halive
    simp only [hact, hstaged, Nat.not_lt.mpr hdue, halive, decide_false, Bool.or_self, Bool.false_eq_true, if_false, if_true]
  · simp only [exec, execFwSwitch]
    generalize s.advance t = a
    intro hact hstaged hdue halive
    simp only [hact, hstaged, Nat.not_lt.mpr hdue, halive, decide_false, Bool.or_self, Bool.false_eq_true, if_false]
  · simp only [exec, execAttestReportHoldExpiry]
    generalize s.advance t = a
    intro hreport hdue
    simp only [hreport, hdue, if_true]

/-- Settles O30, event by event: the clause's conditions decide the branches of the event's own part. -/
theorem ridgeEventsComplete : Obligations.RidgeEventsComplete := by
  refine ⟨fun s t r => ?_, fun s t r trngOk => ?_, fun s t r readBacks => ?_, fun s t r readBacks => ?_, fun s t r => ?_⟩
  · simp only [exec, execRidgeOpened]
    generalize s.advance t = a
    intro hf hopening htrng
    simp only [hf, hopening, htrng, ne_eq, not_true_eq_false, decide_false, Bool.not_true, Bool.or_self, Bool.false_eq_true, if_false]
  · simp only [exec, execRidgeOpened]
    generalize s.advance t = a
    intro hf hopening hbad
    have hfail : (!trngOk || a.boot.trngBad) = true := by
      obtain htrng | htrng := hbad <;> simp [htrng]
    simp only [hf, hopening, hfail, ne_eq, not_true_eq_false, decide_false, Bool.or_self, Bool.false_eq_true, if_false, if_true]
  · simp only [exec, execRidgeCloseComplete]
    generalize s.advance t = a
    intro hf hclosing hkey hrun hdone hzeroed
    have hsome : (a.ridge r).key.isNone = false := by rw [← Option.not_isSome, hkey, Bool.not_true]
    have hwait : (!(a.ridge r).force && !a.commandsDone r) = false := by
      obtain hforce | hquiet := hdone
      · simp [hforce]
      · simp [hquiet]
    simp only [hf, hclosing, hsome, hrun, hwait, hzeroed, ne_eq, not_true_eq_false, decide_false, Bool.or_self, Bool.false_eq_true,
      if_false, if_true]
  · simp only [exec, execRidgeCloseComplete]
    generalize s.advance t = a
    intro hf hclosing hkey hrun hdone hzeroed
    have hsome : (a.ridge r).key.isNone = false := by rw [← Option.not_isSome, hkey, Bool.not_true]
    have hwait : (!(a.ridge r).force && !a.commandsDone r) = false := by
      obtain hforce | hquiet := hdone
      · simp [hforce]
      · simp [hquiet]
    simp only [hf, hclosing, hsome, hrun, hwait, hzeroed, ne_eq, not_true_eq_false, decide_false, Bool.or_self, Bool.false_eq_true,
      if_false]
  · simp only [exec, execRidgeZeroed]
    generalize s.advance t = a
    intro hf hclosing hkey hrows
    have hclean : (a.ridge r).rowsLeft.any (fun e => e.2 != 0) = false := by
      simpa using hrows
    simp only [hf, hclosing, hkey, hclean, ne_eq, not_true_eq_false, decide_false, Option.isSome_none, Bool.or_self, Bool.false_eq_true,
      if_false]

end Sys2Proof.Machine
end

section
/-! SUPPORT. What cold reset leaves, and the wake that an entry to A2 or A3 latches. -/

namespace Sys2Proof.Machine

open Sys2Proof

-- A map filled in for every key below a bound.

theorem FMap.get?_map_range' {α : Type} (f : Nat → α) (k a n : Nat) :
    FMap.get? ((List.range' a n).map (fun i => (i, f i))) k = if a ≤ k ∧ k < a + n then some (f k) else none := by
  induction n generalizing a with
  | zero => simp [FMap.get?]
  | succ n ih =>
    rw [List.range'_succ, List.map_cons, FMap.get?, ih (a + 1)]
    by_cases hk : a = k
    · subst hk
      simp
    · rw [if_neg hk]
      have hrange : (a + 1 ≤ k ∧ k < a + 1 + n) ↔ (a ≤ k ∧ k < a + (n + 1)) := by omega
      rw [if_congr hrange rfl rfl]

theorem FMap.get?_tabulate {α : Type} (n : Nat) (f : Nat → α) (k : Nat) :
    (FMap.tabulate n f).get? k = if k < n then some (f k) else none := by
  rw [FMap.tabulate, List.range_eq_range', FMap.get?_map_range']
  simp

theorem State.reset_brk {x : Nat} (h : x < 8) : State.reset.brk x = Breakout.reset 0 := by
  change ((FMap.tabulate 8 fun _ => Breakout.reset 0).get? x).getD _ = _
  rw [FMap.get?_tabulate, if_pos h]
  rfl

theorem State.reset_ridge {r : Nat} (h : r < 17) : State.reset.ridge r = Ridge.fresh (if r = 0 then .opened else .absent) := by
  change ((FMap.tabulate 17 fun r => Ridge.fresh (if r = 0 then .opened else .absent)).get? r).getD _ = _
  rw [FMap.get?_tabulate, if_pos h]
  rfl

theorem State.reset_func {k : Nat} (h : k < 18) : State.reset.func k = Func.fresh (k = 0 || k = 17) := by
  change ((FMap.tabulate 18 fun k => Func.fresh (k = 0 || k = 17)).get? k).getD _ = _
  rw [FMap.get?_tabulate, if_pos h]
  rfl

/-- Settles O31, field by field; the maps that reset fills in are read by `FMap.get?_tabulate`. -/
theorem resetLeavesTheSpecsValues : Obligations.ResetLeavesTheSpecsValues := by
  have hridge0 : (State.reset.ridge 0).state = .opened := by
    rw [State.reset_ridge (by decide)]
    rfl
  have hridges : ∀ r, 1 ≤ r → r ≤ 16 → (State.reset.ridge r).state = .absent := fun r h1 h16 => by
    rw [State.reset_ridge (by omega), if_neg (by omega)]
    rfl
  have hbrks : ∀ x, x < 8 → (State.reset.brk x).shutter.run = CycList.ridge0 ∧
      ∀ r, r ≤ 16 → ((State.reset.brk x).gate r).run = CycList.openGate := fun x hx => by
    rw [State.reset_brk hx]
    exact ⟨rfl, fun _ _ => rfl⟩
  have hfuncs : ∀ k, k < 18 →
      (State.reset.func k).cause = 0 ∧ (State.reset.func k).enable = 0 ∧ (State.reset.func k).session = none := fun k hk => by
    rw [State.reset_func hk]
    exact ⟨rfl, rfl, rfl⟩
  exact ⟨rfl, rfl, rfl, rfl, rfl, hridge0, hridges, rfl, rfl, rfl, rfl, rfl, rfl, rfl, rfl, rfl, rfl, rfl, rfl, rfl, rfl, rfl,
    hbrks, hfuncs⟩

-- Charging the cells, leaving the Cairn mode and answering a message leave the power record as it is.

@[simp] theorem State.bumpBy_power (s : State) (c : Ctr) (n : Nat) : (s.bumpBy c n).power = s.power := by
  rw [State.bumpBy, apply_ite State.power, State.setCtr_power, ite_self]

@[simp] theorem State.bumpN_power (s : State) (i : Nat) : (s.bumpN i).power = s.power := s.bumpBy_power _ 1

@[simp] theorem State.maxCtr_power (s : State) (c : Ctr) (v : Nat) : (s.maxCtr c v).power = s.power := by
  rw [State.maxCtr, apply_ite State.power, State.setCtr_power, ite_self]

@[simp] theorem State.event_power (s : State) (c : Option Nat) (ev qty : Nat) : (s.event c ev qty).power = s.power :=
  foldl_keeps _ _ State.power (fun s e => by rw [apply_ite State.power, State.bumpBy_power, ite_self]) s

@[simp] theorem State.countRows_power (s : State) (c n : Nat) : (s.countRows c n).power = s.power := by
  rw [State.countRows, State.event_power, State.bumpBy_power]

@[simp] theorem State.setBankRow_power (s : State) (c j row : Nat) (x : RowImg) : (s.setBankRow c j row x).power = s.power := by
  simp only [State.setBankRow]

@[simp] theorem State.keepUnit_power (s : State) (c j : Nat) (u : UnitRun) : (s.keepUnit c j u).power = s.power := by
  rw [State.keepUnit, State.modBank_power]
  exact foldl_keeps _ _ State.power (fun s e => by simp only [State.setBankRow_power]) s

@[simp] theorem State.boundary_power (s : State) (key : Nat) : (s.boundary key).power = s.power := by
  simp only [State.boundary, State.modBank_power, State.event_power]
  rw [apply_ite State.power, State.maxCtr_power, ite_self]

@[simp] theorem State.stopBank_power (s : State) (key : Nat) (g : Segment) : (s.stopBank key g).power = s.power := by
  simp only [State.stopBank, State.boundary_power, State.modBank_power, State.countRows_power, State.keepUnit_power]

@[simp] theorem State.exitCairn_power (s : State) (c : Nat) : (s.exitCairn c).power = s.power :=
  foldl_keeps _ _ State.power (fun s e => by
    split
    · rw [apply_ite State.power, State.stopBank_power, ite_self]
    · rfl) s

@[simp] theorem State.bumpOpen_power (s : State) (c : Ctr) (n : Nat) : (s.bumpOpen c n).power = s.power := by
  rw [State.bumpOpen, apply_ite State.power, State.setCtr_power, ite_self]

@[simp] theorem State.chargeOpen_power (s : State) (c e n t0 : Nat) (fed shadows : Bool) :
    (s.chargeOpen c e n t0 fed shadows).power = s.power := by
  simp only [State.chargeOpen, apply_ite State.power, State.bumpOpen_power, ite_self]

@[simp] theorem State.chargeCycles_power (s : State) (c e n : Nat) (x : Cell) (gated : Bool) :
    (s.chargeCycles c e n x gated).power = s.power := by
  simp only [State.chargeCycles, apply_ite State.power, State.bumpBy_power, State.chargeOpen_power, ite_self]

@[simp] theorem State.charge_power (s : State) (c e : Nat) (gated : Bool) : (s.charge c e gated).power = s.power := by
  simp only [State.charge, State.modCell, State.modCirque_power]
  split
  · split <;> simp only [State.modRidge_power, State.chargeCycles_power]
  · rw [State.chargeCycles_power]

@[simp] theorem State.chargeAll_power (s : State) (gated : Bool) : (s.chargeAll gated).power = s.power := by
  rw [State.chargeAll]
  exact foldl_keeps _ _ State.power (fun s c => foldl_keeps _ _ State.power (fun s e => s.charge_power c e _) s) s

theorem State.exitAll_power (s : State) : ((List.range 16).foldl State.exitCairn (s.chargeAll false)).power = s.power :=
  (foldl_keeps (List.range 16) State.exitCairn State.power State.exitCairn_power (s.chargeAll false)).trans (s.chargeAll_power false)

/-- What an entry does after the folds over the cirques: the connections' contexts leave the die, and for A3 all frames go. -/
def State.dropVolatile (x : State) (target : Nat) : State :=
  let x := { x with conns := x.conns.mapVals (fun _ c => { c with onDie := false }), trace := { x.trace with portUp := false } }
  if target = 3 then
    { x with frames := [], hands := [], brks := x.brks.mapVals (fun _ b => { b with link := false, queue := [], sending := none }) }
  else x

theorem State.powerDown_eq_dropVolatile (s : State) (target : Nat) :
    s.powerDown target = ((List.range 16).foldl State.exitCairn (s.chargeAll false)).dropVolatile target := by
  rw [State.powerDown, State.dropVolatile]

theorem State.dropVolatile_power (x : State) (target : Nat) : (x.dropVolatile target).power = x.power := by
  unfold State.dropVolatile
  split <;> rfl

@[simp] theorem State.powerDown_power (s : State) (target : Nat) : (s.powerDown target).power = s.power := by
  rw [State.powerDown_eq_dropVolatile, State.dropVolatile_power, State.exitAll_power]

@[simp] theorem State.msix_power (s : State) (k vector : Nat) : (s.msix k vector).power = s.power := by
  rw [State.msix, apply_ite State.power, State.emit_power, ite_self]

@[simp] theorem State.raiseCause_power (s : State) (k bit : Nat) : (s.raiseCause k bit).power = s.power := by
  simp only [State.raiseCause, apply_ite State.power, State.msix_power, State.modFunc_power, ite_self]

@[simp] theorem State.answer_power (s : State) (k tag op : Nat) (st : MStatus) (retry : Nat) (vals : List Nat) :
    (s.answer k tag op st retry vals).power = s.power := by
  simp only [State.answer, State.raiseCause_power, State.emit_power, State.modFunc_power]

@[simp] theorem State.answerBusy_power (s : State) (fn : Option Fn) (st : MStatus) (retry : Nat) (vals : List Nat) :
    (s.answerBusy fn st retry vals).power = s.power := by
  unfold State.answerBusy
  split
  · rfl
  · split
    · rfl
    · rw [State.answer_power]

/-- Settles O57: the third clause since nothing that an entry does on its way touches the power record. -/
theorem wakeEventsAreLatched : Obligations.WakeEventsAreLatched := by
  refine ⟨fun s source brk fn hentering hnone => ?_, fun s source brk fn hentering hsome => ?_, fun s t => ?_⟩
  · have hlatch : s.wakeLatch source brk fn = { s with power := { s.power with wake := some (source, brk, fn, s.now) } } := by
      rw [State.wakeLatch, if_neg (by rw [hnone, hentering]; decide)]
    rw [State.wakeUp, hlatch]
    exact if_neg (by change ¬ (s.power.transit == .none && _) = true; rw [hentering]; simp)
  · have hlatch : s.wakeLatch source brk fn = s.bumpN 2339 := by
      rw [State.wakeLatch, if_pos (by rw [hsome, Bool.true_or])]
    rw [State.wakeUp, hlatch]
    exact if_neg (by rw [State.bumpN_power, hentering]; simp)
  · simp only [exec, execPwrEntryComplete]
    generalize s.advance t = a
    intro hentering hwake halive hsealed
    simp only [hentering, halive, hsealed, ne_eq, not_true_eq_false, decide_false, Bool.or_self, Bool.false_eq_true, if_false,
      State.bumpN_power, State.answerBusy_power, State.powerDown_power, hwake, if_true, after_next, State.startExit, and_self]

end Sys2Proof.Machine
end
